-- ==== Sys2Proof/Word.lean ====
section
/-! DEFINITION. The word types of the block and their plainest views: 32-bit control-space registers (R24), 64-bit
sequencer registers (R55), bytes of memory. -/

namespace Sys2Proof

/-- A byte of memory. -/
abbrev Byte := BitVec 8
/-- A control-space register or bus word (R24). -/
abbrev W32 := BitVec 32
/-- A sequencer register (R55) or a 64-bit bus datum. -/
abbrev W64 := BitVec 64

end Sys2Proof
end

