-- ==== Sys2Proof/Syntax.lean ====
section
/-! DEFINITION. The commands that reach the block: one constructor of `Instr` per row of spec/opcode_table.json, with the
row's operands. Unit numbers, pins, addresses and times are natural numbers; data words are bit vectors. -/

namespace Sys2Proof

/-- A requester of the block (R107): host function `f`, sequencer `n`, DMA channel `c`, the starter, or debug. -/
inductive Agent where
  | host (f : Nat)
  | seq (n : Nat)
  | dma (c : Nat)
  | starter
  | debug
  deriving DecidableEq, Repr

/-- What the outer code makes of a DRAM burst as its cells hold it (R138): a codeword; bytes corrected; a pattern miscorrected into
another codeword; one that passes undetected; none within reach. The word of the third and fourth is an operand beside it. -/
inductive BurstOutcome where
  | clean | corrected | miscorrected | undetected | uncorrectable
  deriving DecidableEq, Repr

/-- What debug does at a sequencer beside halting it (R127): registers of a set and memory read and written, the PC sampled. -/
inductive DebugAct where
  | readG (set k : Nat)
  | writeG (set k : Nat) (v : W64)
  | readMem (addr len : Nat)
  | writeMem (addr : Nat) (data : List Byte)
  | samplePc
  deriving DecidableEq, Repr

/-- A halt of a sequencer by debug, with what debug does then (R127). -/
structure DebugHalt where
  seq  : Nat
  acts : List DebugAct
  deriving DecidableEq, Repr

/-- Debug lets a sequencer go on, or run one instruction (R127). -/
structure DebugResume where
  seq  : Nat
  step : Bool
  deriving DecidableEq, Repr

/-- The conditions of CMP and CMPI (R62). -/
inductive Cond where
  | eq | ne | lt | ltu | ge | geu
  deriving DecidableEq, Repr

/-- What decoding a unit yields, which the video standards give from its bits and the spec takes as its inputs (R189, R196 to
R198): the picture's own number, the references it names, those kept valid after it, the pictures put out now, and its
envelope. -/
structure PicInfo where
  /-- Number of the decoded picture. -/
  pic      : Nat
  /-- A random-access point: an IRAP picture, or a shown AV1 key frame. -/
  rap      : Bool
  /-- An AV1 key frame that is not shown. -/
  hiddenKey : Bool
  /-- show_existing_frame of this picture; nothing is decoded. -/
  shows    : Option Nat
  /-- A RASL picture of the last CRA. -/
  rasl     : Bool
  /-- Pictures named as references, and those valid afterwards. -/
  refs     : List Nat
  kept     : List Nat
  /-- Pictures put out by the unit, in output order. -/
  outputs  : List Nat
  /-- The unit holds a syntax error; unsupported syntax; its decoded picture hash does not match. -/
  syntaxErr : Bool
  unsupported : Bool
  hashBad  : Bool
  /-- A read of its data or of a reference met an error that its code could not correct. -/
  poisoned : Bool
  /-- Width, height, bit depth, chroma (0 monochrome, 1 4:2:0, 2 4:2:2, 3 4:4:4), ten times the level, and D of R197. -/
  width    : Nat
  height   : Nat
  depth    : Nat
  chroma   : Nat
  level    : Nat
  dpb      : Nat
  /-- The samples of the decoded picture, as its output format lays them out; of a monochrome picture in a linear format its luma plane. -/
  samples  : List Byte
  /-- The same with AV1 film grain synthesised, where the picture has any. -/
  grained  : Option (List Byte)
  /-- Byte ranges of a linear output that lost slices or tiles cover, and the first entry of RefPicList0, or LAST_FRAME (R196). -/
  lostAt   : List (Nat × Nat)
  ref0     : Option Nat
  deriving DecidableEq, Repr

/-- What identification reads from a cave member's chip enables (R298). -/
structure MemberId where
  m         : Nat
  pageBytes : Nat
  spareBytes : Nat
  tlcSlc    : Bool
  endurance : Nat
  /-- Dies, and blocks, pages of TLC data and planes of each die; the dies agree. -/
  dies      : Nat
  blocks    : Nat
  pages     : Nat
  planes    : Nat
  alike     : Bool
  /-- Interface reached (0 SDR, 1 NV-DDR3, 2 NV-LPDDR4) and its MT/s; factory bad blocks. -/
  iface     : Nat
  rate      : Nat
  bad       : List Nat
  deriving DecidableEq, Repr

/-- What the header frame of a Rogar strip carries (R386, R387): the stamp, t_change, the reference head's frame count, strip,
first and last source line, the rectangle's size and its vertical placement, and H_total, V_total, V_active, S, n, d. -/
structure StripHdr where
  stamp   : List W32 := []
  tChange : Nat := 0
  frame   : Nat := 0
  k       : Nat := 0
  first   : Nat := 0
  last    : Nat := 0
  w       : Nat := 0
  h       : Nat := 0
  yDst    : Nat := 0
  hDst    : Nat := 0
  timing  : List Nat := []
  deriving DecidableEq, Repr

/-- A Rogar link frame (R379): its header, whether its crc holds, an acknowledgement, the strip header or the data it carries. -/
structure RFrame where
  cls    : Nat
  dst    : Nat
  src    : Nat
  hops   : Nat
  stream : Nat
  seq    : Nat
  crcOk  : Bool := true
  ack    : Bool := false
  hdr    : Option StripHdr := none
  data   : List Byte := []
  deriving DecidableEq, Repr

/-- A member as discovery finds it along one direction of the ring (R383): what it floods, and the port it is entered by. -/
structure WheelNode where
  wheel  : Nat
  member : Nat
  root   : Bool
  ports  : Nat
  num    : Nat
  den    : Nat
  entry  : Nat
  deriving DecidableEq, Repr

/-- The commands of the block, one constructor per row of the table of operations and events. -/
inductive Instr where
  /-- REGISTER_WRITE (R25) -/
  | registerWrite (ag : Agent) (addr : Nat) (v : W32)
  /-- HOST_BAR_ACCESS (R366) -/
  | hostBarAccess (f : Nat) (bar : Nat) (wr : Bool) (off : Nat) (width : Nat) (v : W64)
  /-- PAIRED_WRITE (R124) -/
  | pairedWrite (ag : Agent) (addr : Nat) (v : W32)
  /-- PAIR_TIMEOUT (R124) -/
  | pairTimeout (addr : Nat)
  /-- MASTER_BOUNDARY (R34) -/
  | masterBoundary (phase : Int)
  /-- TICK_WINDOW_CLOSE (R33) -/
  | tickWindowClose (dom : Nat)
  /-- COMMIT_SWITCH (R34) -/
  | commitSwitch
  /-- HEAD_TICK (R30) -/
  | headTick (h : Nat)
  /-- AUDIO_TICK (R31) -/
  | audioTick (d : Nat)
  /-- TKG_SOURCE_SELECT (R29) -/
  | tkgSourceSelect (ag : Agent) (v : W32)
  /-- TIME_INFO (R29) -/
  | timeInfo (src : Nat)
  /-- SOURCE_LOSS_TIMEOUT (R29) -/
  | sourceLossTimeout
  /-- PHASE_STEP (R29) -/
  | phaseStep (step : Int)
  /-- CONTRACT_ADD (R450) -/
  | contractAdd (ag : Agent) (hi : W32)
  /-- CONTRACT_RELEASE (R45) -/
  | contractRelease (ag : Agent) (hi : W32)
  /-- CONTRACT_REPLACE (R45) -/
  | contractReplace (ag : Agent) (hi : W32)
  /-- PW_COMMIT (R48) -/
  | pwCommit (ag : Agent)
  /-- PW_DISCARD (R53) -/
  | pwDiscard (ag : Agent) (w : Nat)
  /-- PL_FLOOR_WRITE (R46) -/
  | plFloorWrite (ag : Agent) (floor : Nat)
  /-- ADD (R62) -/
  | add (n : Nat) (p : Nat) (d : Nat) (a : Nat) (b : Nat)
  /-- SUB (R62) -/
  | sub (n : Nat) (p : Nat) (d : Nat) (a : Nat) (b : Nat)
  /-- AND (R62) -/
  | andR (n : Nat) (p : Nat) (d : Nat) (a : Nat) (b : Nat)
  /-- OR (R62) -/
  | orR (n : Nat) (p : Nat) (d : Nat) (a : Nat) (b : Nat)
  /-- XOR (R62) -/
  | xorR (n : Nat) (p : Nat) (d : Nat) (a : Nat) (b : Nat)
  /-- ANDN (R62) -/
  | andn (n : Nat) (p : Nat) (d : Nat) (a : Nat) (b : Nat)
  /-- SHL (R62) -/
  | shl (n : Nat) (p : Nat) (d : Nat) (a : Nat) (b : Nat)
  /-- SHR (R62) -/
  | shr (n : Nat) (p : Nat) (d : Nat) (a : Nat) (b : Nat)
  /-- SAR (R62) -/
  | sar (n : Nat) (p : Nat) (d : Nat) (a : Nat) (b : Nat)
  /-- ROL (R62) -/
  | rol (n : Nat) (p : Nat) (d : Nat) (a : Nat) (b : Nat)
  /-- MIN (R62) -/
  | min (n : Nat) (p : Nat) (d : Nat) (a : Nat) (b : Nat)
  /-- MAX (R62) -/
  | max (n : Nat) (p : Nat) (d : Nat) (a : Nat) (b : Nat)
  /-- MINU (R62) -/
  | minu (n : Nat) (p : Nat) (d : Nat) (a : Nat) (b : Nat)
  /-- MAXU (R62) -/
  | maxu (n : Nat) (p : Nat) (d : Nat) (a : Nat) (b : Nat)
  /-- CLZ (R62) -/
  | clz (n : Nat) (p : Nat) (d : Nat) (a : Nat)
  /-- POPC (R62) -/
  | popc (n : Nat) (p : Nat) (d : Nat) (a : Nat)
  /-- CMP (R62) -/
  | cmp (n : Nat) (p : Nat) (cc : Cond) (d : Nat) (a : Nat) (b : Nat)
  /-- PAND (R62) -/
  | pand (n : Nat) (p : Nat) (d : Nat) (a : Nat) (b : Nat)
  /-- POR (R62) -/
  | por (n : Nat) (p : Nat) (d : Nat) (a : Nat) (b : Nat)
  /-- PXOR (R62) -/
  | pxor (n : Nat) (p : Nat) (d : Nat) (a : Nat) (b : Nat)
  /-- PANDN (R62) -/
  | pandn (n : Nat) (p : Nat) (d : Nat) (a : Nat) (b : Nat)
  /-- MUL (R62) -/
  | mul (n : Nat) (p : Nat) (d : Nat) (a : Nat) (b : Nat)
  /-- MULH (R62) -/
  | mulh (n : Nat) (p : Nat) (d : Nat) (a : Nat) (b : Nat)
  /-- MULHU (R62) -/
  | mulhu (n : Nat) (p : Nat) (d : Nat) (a : Nat) (b : Nat)
  /-- DIV (R63) -/
  | div (n : Nat) (p : Nat) (d : Nat) (a : Nat) (b : Nat)
  /-- DIVU (R63) -/
  | divu (n : Nat) (p : Nat) (d : Nat) (a : Nat) (b : Nat)
  /-- REM (R63) -/
  | rem (n : Nat) (p : Nat) (d : Nat) (a : Nat) (b : Nat)
  /-- REMU (R63) -/
  | remu (n : Nat) (p : Nat) (d : Nat) (a : Nat) (b : Nat)
  /-- MFS (R56) -/
  | mfs (n : Nat) (p : Nat) (d : Nat) (b : Nat)
  /-- MTS (R56) -/
  | mts (n : Nat) (p : Nat) (b : Nat) (a : Nat)
  /-- ADDI (R62) -/
  | addi (n : Nat) (d : Nat) (a : Nat) (imm : BitVec 16)
  /-- ANDI (R62) -/
  | andi (n : Nat) (d : Nat) (a : Nat) (imm : BitVec 16)
  /-- ORI (R62) -/
  | ori (n : Nat) (d : Nat) (a : Nat) (imm : BitVec 16)
  /-- XORI (R62) -/
  | xori (n : Nat) (d : Nat) (a : Nat) (imm : BitVec 16)
  /-- SHLI (R62) -/
  | shli (n : Nat) (d : Nat) (a : Nat) (sh : Nat)
  /-- SHRI (R62) -/
  | shri (n : Nat) (d : Nat) (a : Nat) (sh : Nat)
  /-- SARI (R62) -/
  | sari (n : Nat) (d : Nat) (a : Nat) (sh : Nat)
  /-- SETH (R62) -/
  | seth (n : Nat) (d : Nat) (k : Nat) (imm : BitVec 16)
  /-- CMPI (R62) -/
  | cmpi (n : Nat) (cc : Cond) (d : Nat) (a : Nat) (imm : BitVec 16)
  /-- LD (R57) -/
  | ld (n : Nat) (p : Nat) (d : Nat) (a : Nat) (off : BitVec 13)
  /-- LW (R57) -/
  | lw (n : Nat) (p : Nat) (d : Nat) (a : Nat) (off : BitVec 13)
  /-- LWS (R57) -/
  | lws (n : Nat) (p : Nat) (d : Nat) (a : Nat) (off : BitVec 13)
  /-- LH (R57) -/
  | lh (n : Nat) (p : Nat) (d : Nat) (a : Nat) (off : BitVec 13)
  /-- LHS (R57) -/
  | lhs (n : Nat) (p : Nat) (d : Nat) (a : Nat) (off : BitVec 13)
  /-- LB (R57) -/
  | lb (n : Nat) (p : Nat) (d : Nat) (a : Nat) (off : BitVec 13)
  /-- LBS (R57) -/
  | lbs (n : Nat) (p : Nat) (d : Nat) (a : Nat) (off : BitVec 13)
  /-- ST (R57) -/
  | st (n : Nat) (p : Nat) (d : Nat) (a : Nat) (off : BitVec 13)
  /-- STW (R57) -/
  | stw (n : Nat) (p : Nat) (d : Nat) (a : Nat) (off : BitVec 13)
  /-- STH (R57) -/
  | sth (n : Nat) (p : Nat) (d : Nat) (a : Nat) (off : BitVec 13)
  /-- STB (R57) -/
  | stb (n : Nat) (p : Nat) (d : Nat) (a : Nat) (off : BitVec 13)
  /-- LDC (R69) -/
  | ldc (n : Nat) (p : Nat) (d : Nat) (a : Nat) (off : BitVec 13)
  /-- STC (R69) -/
  | stc (n : Nat) (p : Nat) (d : Nat) (a : Nat) (off : BitVec 13)
  /-- TWR (R70) -/
  | twr (n : Nat) (p : Nat) (d : Nat) (a : Nat) (off : BitVec 13)
  /-- SIG (R62) -/
  | sig (n : Nat) (p : Nat) (src : Nat)
  /-- BR (R62) -/
  | br (n : Nat) (p : Nat) (off : BitVec 23)
  /-- BRN (R62) -/
  | brn (n : Nat) (p : Nat) (off : BitVec 23)
  /-- CALL (R65) -/
  | call (n : Nat) (p : Nat) (off : BitVec 23)
  /-- RET (R65) -/
  | ret (n : Nat) (p : Nat)
  /-- LOOP (R66) -/
  | loop (n : Nat) (gc : Nat) (len : Nat) (m : Nat)
  /-- JTAB (R68) -/
  | jtab (n : Nat) (a : Nat) (cnt : Nat)
  /-- WAITT (R58) -/
  | waitt (n : Nat) (p : Nat)
  /-- WAITS (R403) -/
  | waits (n : Nat) (p : Nat) (d : Nat)
  /-- RENNET (R49) -/
  | rennet (n : Nat) (p : Nat) (d : Nat)
  /-- EVRET (R96) -/
  | evret (n : Nat)
  /-- WRET (R75) -/
  | wret (n : Nat)
  /-- DRAIN (R71) -/
  | drain (n : Nat) (p : Nat)
  /-- DRAIN_COMPLETE (R71) -/
  | drainComplete (n : Nat)
  /-- FENCE (R71) -/
  | fence (n : Nat) (p : Nat)
  /-- WCALL (R74) -/
  | wcall (n : Nat) (svc : Nat)
  /-- EVENT_RAISE (R85) -/
  | eventRaise (src : Nat)
  /-- EVENT_ENTRY (R94) -/
  | eventEntry (n : Nat)
  /-- HOST_SOURCE_MESSAGE (R98) -/
  | hostSourceMessage (f : Nat)
  /-- EVR_DONE (R98) -/
  | evrDone (ag : Agent) (w : Nat) (v : W32)
  /-- EVR_REARM (R101) -/
  | evrRearm (ag : Agent) (w : Nat) (v : W32)
  /-- EVR_PEND_WRITE (R103) -/
  | evrPendWrite (ag : Agent) (w : Nat) (v : W32)
  /-- PIN_RAW_EDGE (R90) -/
  | pinRawEdge (pin : Nat)
  /-- PIN_FILTERED_TRANSITION (R89) -/
  | pinFilteredTransition (pin : Nat) (level : Bool)
  /-- PIN_LATCH_CAPTURE (R91) -/
  | pinLatchCapture (pin : Nat) (rising : Bool)
  /-- CREATE (R112) -/
  | create (ag : Agent) (p : Nat)
  /-- DESTROY (R132) -/
  | destroy (ag : Agent) (p : Nat)
  /-- PARTITION_RESET (R128) -/
  | partitionReset (ag : Agent) (p : Nat)
  /-- RUN (R130) -/
  | run (ag : Agent) (p : Nat)
  /-- CLAIM (R122) -/
  | claim (ag : Agent)
  /-- CLAIM_RELEASE (R122) -/
  | claimRelease (ag : Agent)
  /-- POT_REWRITE_DONE (R132) -/
  | potRewriteDone (p : Nat)
  /-- POT_EDIT (R119) -/
  | potEdit (ag : Agent)
  /-- POT_EDIT_DONE (R120) -/
  | potEditDone
  /-- FAULT_LATCH_CLEAR (R109) -/
  | faultLatchClear (ag : Agent)
  /-- DRAM_REQUEST (R143) -/
  | dramRequest (q : Nat) (world : Bool) (part : Nat) (wr : Bool) (addr : Nat) (len : Nat) (data : List Byte)
  /-- URGENCY_RAISE (R143) -/
  | urgencyRaise (id : Nat)
  /-- DRAM_REQUEST_DONE (R144) -/
  | dramRequestDone (id : Nat) (os : List BurstOutcome) (words : List (List Byte))
  /-- CORRECTION_WRITEBACK (R140) -/
  | correctionWriteback
  /-- SCRUB_READ (R140) -/
  | scrubRead (o : BurstOutcome) (word : List Byte)
  /-- SS_ACCESS (R133) -/
  | ssAccess (port : Nat) (world : Bool) (part : Nat) (wr : Bool) (addr : Nat) (len : Nat) (data : List Byte)
  /-- SS_SCRUB (R134) -/
  | ssScrub
  /-- RETRAIN_START (R147) -/
  | retrainStart (ch : Nat) (byTemp : Bool)
  /-- RETRAIN_STEP (R147) -/
  | retrainStep (lowMargin : Bool) (noSetting : Bool) (last : Bool) (odecc : Nat)
  /-- ROW_ACTIVATION (R148) -/
  | rowActivation (ch : Nat) (bank : Nat) (row : Nat) (q : Nat)
  /-- REFRESH_RATE_CHANGE (R148) -/
  | refreshRateChange (ch : Nat) (m : Nat)
  /-- CHANNEL_POWER_DOWN (R150) -/
  | channelPowerDown (ch : Nat) (selfRefresh : Bool)
  /-- DMA_START (R156) -/
  | dmaStart (ag : Agent) (ch : Nat)
  /-- DMA_STOP (R159) -/
  | dmaStop (ag : Agent) (ch : Nat)
  /-- DMA_STOPPED (R159) -/
  | dmaStopped (ch : Nat)
  /-- DMA_HALF_POINT (R160) -/
  | dmaHalfPoint (ch : Nat)
  /-- DMA_END (R160) -/
  | dmaEnd (ch : Nat)
  /-- DMA_ERROR (R163) -/
  | dmaError (ch : Nat) (code : Nat)
  /-- CRC_CONFIG_WRITE (R165) -/
  | crcConfigWrite (ag : Agent) (n : Nat) (v : W32)
  /-- CRC_RESTART (R165) -/
  | crcRestart (ag : Agent) (n : Nat)
  /-- CRC_ALIVE_RESET (R167) -/
  | crcAliveReset (ag : Agent) (n : Nat)
  /-- CRC_FEED (R166) -/
  | crcFeed (ag : Agent) (n : Nat) (width : Nat) (v : W32)
  /-- CRC_CHECK (R167) -/
  | crcCheck (ag : Agent) (n : Nat) (v : W32)
  /-- CSI_FRAME_START (R181) -/
  | csiFrameStart (p : Nat) (vc : Nat)
  /-- CSI_LINE (R182) -/
  | csiLine (p : Nat) (vc : Nat) (dt : Nat) (crcBad : Bool) (hdrBad : Bool) (data : List Byte)
  /-- CSI_FRAME_END (R182) -/
  | csiFrameEnd (p : Nat) (vc : Nat)
  /-- CSI_LINK_FAILURE (R182) -/
  | csiLinkFailure (p : Nat)
  /-- RTP_PACKET (R184) -/
  | rtpPacket (n : Nat) (udp : Nat) (ssrc : W32) (seq : Nat) (ts : Nat) (marker : Bool) (ptp : Bool) (off : Nat) (data : List Byte)
  /-- RTCP_SENDER_REPORT (R185) -/
  | rtcpSenderReport (n : Nat) (udp : Nat) (ssrc : W32) (rtp : Nat) (t : Nat)
  /-- PUBLISH_GUEST (R186) -/
  | publishGuest (ag : Agent) (slot : Nat)
  /-- PUBLISH_DERIVED (R186) -/
  | publishDerived (ag : Agent) (slot : Nat) (origin : Nat)
  /-- PUBLISH_REPLAY (R186) -/
  | publishReplay (ag : Agent) (slot : Nat)
  /-- PUBLISH_SYNTHETIC (R186) -/
  | publishSynthetic (ag : Agent) (slot : Nat)
  /-- SOURCE_LOSS_DEADLINE (R180) -/
  | sourceLossDeadline (slot : Nat)
  /-- VDE_WPTR_WRITE (R192) -/
  | vdeWptrWrite (ag : Agent) (v : Nat) (x : Nat) (ptr : W32)
  /-- PICTURE_TOKEN_REFILL (R194) -/
  | pictureTokenRefill (v : Nat) (x : Nat)
  /-- PICTURE_DECODED (R197) -/
  | pictureDecoded (v : Nat) (x : Nat) (info : PicInfo)
  /-- VDE_CANCEL (R193) -/
  | vdeCancel (ag : Agent) (v : Nat) (x : Nat)
  /-- LATCH_INSTANT (R203) -/
  | latchInstant (h : Nat)
  /-- STRIP_COMPOSITION_START (R255) -/
  | stripCompositionStart (h : Nat) (strip : Nat)
  /-- STRIP_SCANOUT_START (R203) -/
  | stripScanoutStart (h : Nat) (strip : Nat) (complete : Bool)
  /-- LAYER_WRITE (R210) -/
  | layerWrite (ag : Agent) (h : Nat) (slot : Nat) (off : Nat) (v : W32)
  /-- ENGINE_FAULT (R227) -/
  | engineFault (n : Nat) (check : Bool)
  /-- HEAD_LINE_START (R241) -/
  | headLineStart (h : Nat) (ringLate : Bool) (protLate : Bool) (rindChk : Nat)
  /-- HEAD_ENABLE (R235) -/
  | headEnable (ag : Agent) (h : Nat) (en : Bool)
  /-- RASTER_START (R235) -/
  | rasterStart (h : Nat)
  /-- SYNC_WRITE (R233) -/
  | syncWrite (ag : Agent) (h : Nat) (vert : Bool) (v : W32)
  /-- ADAPT_GO (R234) -/
  | adaptGo (ag : Agent) (h : Nat)
  /-- FRAME_DONE (R241) -/
  | frameDone (h : Nat)
  /-- LINK_TRAIN (R248) -/
  | linkTrain (t : Nat) (cause : Nat)
  /-- LINK_TRAINING_DONE (R247) -/
  | linkTrainingDone (t : Nat) (rate : Nat) (lanes : Nat) (fec : Bool) (lttpr : Bool) (sinkRate : Nat) (sinkLanes : Nat) (sinkCrc : Bool) (sinkMsa : Bool)
  /-- HPD_LOSS (R249) -/
  | hpdLoss (t : Nat)
  /-- IRQ_HPD (R249) -/
  | irqHpd (t : Nat) (lockLost : Bool)
  /-- LINK_LOSS (R249) -/
  | linkLoss (t : Nat)
  /-- AUX_NATIVE_WRITE (R250) -/
  | auxNativeWrite (ag : Agent) (t : Nat) (addr : Nat) (len : Nat)
  /-- AUX_NATIVE_READ (R250) -/
  | auxNativeRead (ag : Agent) (t : Nat) (addr : Nat) (len : Nat)
  /-- AUX_I2C_WRITE (R250) -/
  | auxI2cWrite (ag : Agent) (t : Nat) (addr : Nat) (len : Nat)
  /-- AUX_I2C_READ (R250) -/
  | auxI2cRead (ag : Agent) (t : Nat) (addr : Nat) (len : Nat)
  /-- AUX_REPLY (R250) -/
  | auxReply (t : Nat) (reply : Nat) (data : List Byte)
  /-- AUX_DEFER_RETRY (R250) -/
  | auxDeferRetry (t : Nat)
  /-- SINK_CRC_RESULT (R251) -/
  | sinkCrcResult (t : Nat) (stream : Nat) (ok : Bool) (crc : Nat)
  /-- ENCODE_TOKEN_REFILL (R279) -/
  | encodeTokenRefill (e : Nat) (x : Nat)
  /-- CTU_ROW_READY (R286) -/
  | ctuRowReady (e : Nat) (x : Nat) (row : Nat) (deadline : Nat) (frame : Nat) (t0 : Nat) (flags : Nat)
  /-- CTU_ROW_CODED (R287) -/
  | ctuRowCoded (e : Nat) (x : Nat) (head : Nat) (sizes : List Nat) (fallback : List Nat)
  /-- ROW_DEADLINE (R289) -/
  | rowDeadline (e : Nat) (x : Nat) (row : Nat) (fallback : List Nat)
  /-- ENCODER_FAULT (R289) -/
  | encoderFault (e : Nat)
  /-- WITNESS_RECORD (R292) -/
  | witnessRecord
  /-- SEGMENT_CLOSE (R293) -/
  | segmentClose (ns : Nat) (bySize : Bool)
  /-- SEGMENT_HANDOFF (R293) -/
  | segmentHandoff
  /-- HOLD_SET (R295) -/
  | holdSet (ag : Agent) (n : Nat)
  /-- HOLD_RELEASE (R295) -/
  | holdRelease (ag : Agent) (n : Nat)
  /-- CAVE_SEGMENT_ACCEPT (R303) -/
  | caveSegmentAccept
  /-- SEGMENT_COMMIT (R303) -/
  | segmentCommit
  /-- PROGRAM_FAILURE (R304) -/
  | programFailure (m : Nat) (b : Nat)
  /-- CAVE_READ (R305) -/
  | caveRead (ns : Nat) (num : Nat) (retry : Bool) (bad : List Nat)
  /-- AFFINAGE_READ (R308) -/
  | affinageRead (m : Nat) (b : Nat) (page : Nat) (bits : Nat) (retry : Bool) (parity : Bool)
  /-- SUPERBLOCK_REFRESH (R308) -/
  | superblockRefresh (sb : Nat)
  /-- RETENTION_UPDATE (R308) -/
  | retentionUpdate (temps : List (Nat × Nat × Int))
  /-- REMOVE (R310) -/
  | remove (ag : Agent) (m : Nat)
  /-- FORCE_REMOVE (R310) -/
  | forceRemove (ag : Agent) (m : Nat)
  /-- INSERT (R310) -/
  | insert (ag : Agent) (m : Nat)
  /-- MEMBER_DRAINED (R310) -/
  | memberDrained (m : Nat)
  /-- MEMBER_TIMEOUT (R310) -/
  | memberTimeout (m : Nat)
  /-- INSERTION_DONE (R311) -/
  | insertionDone (id : MemberId)
  /-- REBUILD_COMPLETE (R311) -/
  | rebuildComplete
  /-- CAVE_FORMAT (R312) -/
  | caveFormat (ag : Agent) (ids : List MemberId)
  /-- MIX_SAMPLE (R325) -/
  | mixSample (d : Nat)
  /-- TDM_FRAME (R321) -/
  | tdmFrame (t : Nat) (drift : Int) (data : List W32)
  /-- TDM_FS_TIMEOUT (R321) -/
  | tdmFsTimeout (t : Nat)
  /-- TDM_CONFIG_WRITE (R320) -/
  | tdmConfigWrite (ag : Agent) (t : Nat) (v : W32)
  /-- AUDIO_PACKET (R322) -/
  | audioPacket (n : Nat) (udp : Nat) (ssrc : W32) (pt : Nat) (ts : Nat) (chans : Nat) (data : List Byte)
  /-- AUDIO_PACKET_TX (R322) -/
  | audioPacketTx (n : Nat) (k : Nat)
  /-- NS_CONFIG_WRITE (R322) -/
  | nsConfigWrite (ag : Agent) (n : Nat) (k : Nat) (v : W32)
  /-- IN_CONFIG_WRITE (R325) -/
  | inConfigWrite (ag : Agent) (i : Nat) (v : W32)
  /-- BRIDGE_RATIO_FAULT (R324) -/
  | bridgeRatioFault (b : Nat) (err : Int)
  /-- SILENCE_HOLD_EXPIRY (R329) -/
  | silenceHoldExpiry (o : Nat)
  /-- AMP_WAKE_DONE (R329) -/
  | ampWakeDone (p : Nat)
  /-- CHIME_START (R328) -/
  | chimeStart (ag : Agent) (v : Nat)
  /-- CHIME_STOP (R328) -/
  | chimeStop (ag : Agent) (v : Nat)
  /-- METER_READ (R330) -/
  | meterRead (ag : Agent) (o : Nat)
  /-- TOUCH_RATE_TICK (R337) -/
  | touchRateTick (t : Nat)
  /-- SCAN_START (R337) -/
  | scanStart (t : Nat)
  /-- SCAN_END (R339) -/
  | scanEnd (t : Nat) (raw : List Nat) (self : List Nat)
  /-- FREE_MODE_FALLBACK (R338) -/
  | freeModeFallback (t : Nat)
  /-- TSL_STEP_FRAME (R336) -/
  | tslStepFrame (t : Nat) (step : Nat) (ok : Bool) (counts : List Nat)
  /-- TSL_WRITE (R336) -/
  | tslWrite (ag : Agent) (t : Nat) (bytes : Nat) (addr : Nat)
  /-- TSL_READ (R336) -/
  | tslRead (ag : Agent) (t : Nat) (bytes : Nat) (addr : Nat)
  /-- TSL_REPLY (R336) -/
  | tslReply (t : Nat) (crcOk : Bool) (data : List Byte)
  /-- TSL_TIMEOUT (R336) -/
  | tslTimeout (t : Nat)
  /-- TOUCH_START (R342) -/
  | touchStart (ag : Agent) (t : Nat)
  /-- TOUCH_STOP (R342) -/
  | touchStop (ag : Agent) (t : Nat)
  /-- REBASE (R343) -/
  | rebase (ag : Agent) (t : Nat)
  /-- TOUCH_SELFTEST (R345) -/
  | touchSelftest (ag : Agent) (t : Nat)
  /-- LONG_HOLD (R343) -/
  | longHold (t : Nat)
  /-- WAKE_GESTURE (R347) -/
  | wakeGesture (t : Nat)
  /-- HPT_GO (R355) -/
  | hptGo (ag : Agent) (ch : Nat) (v : W32)
  /-- CARRIER_PERIOD (R351) -/
  | carrierPeriod (ch : Nat)
  /-- EFFECT_SEGMENT_END (R353) -/
  | effectSegmentEnd (ch : Nat)
  /-- ENABLE_HOLD_EXPIRY (R358) -/
  | enableHoldExpiry (ch : Nat)
  /-- ENABLE_DELAY_DONE (R358) -/
  | enableDelayDone (ch : Nat)
  /-- HAPTIC_FAULT (R360) -/
  | hapticFault (ch : Nat) (kind : Nat)
  /-- HAPTIC_SELFTEST (R361) -/
  | hapticSelftest (ag : Agent) (ch : Nat)
  /-- HAPTIC_SELFTEST_END (R361) -/
  | hapticSelftestEnd (ch : Nat) (r : Nat)
  /-- HAPTIC_DISABLE (R359) -/
  | hapticDisable (ag : Agent) (ch : Nat)
  /-- SQ_TAIL_WRITE (R370) -/
  | sqTailWrite (f : Nat) (q : Nat) (v : Nat)
  /-- CQ_HEAD_WRITE (R371) -/
  | cqHeadWrite (f : Nat) (q : Nat) (v : Nat)
  /-- NOP (R369) -/
  | nop (f : Nat) (q : Nat)
  /-- CONTRACT (R369) -/
  | contract (f : Nat) (q : Nat)
  /-- COMMIT (R369) -/
  | commit (f : Nat) (q : Nat)
  /-- DISCARD (R369) -/
  | discard (f : Nat) (q : Nat)
  /-- SUBMIT (R369) -/
  | submit (f : Nat) (q : Nat)
  /-- WAIT_EPOCH (R369) -/
  | waitEpoch (f : Nat) (q : Nat)
  /-- READ_SEG (R369) -/
  | readSeg (f : Nat) (q : Nat) (retry : Bool) (bad : List Nat) (hostOk : Bool)
  /-- MODERATION_TIMER (R373) -/
  | moderationTimer (v : Nat)
  /-- MSIX_UNMASK (R373) -/
  | msixUnmask (f : Nat) (e : Nat)
  /-- LINK_L0_RETURN (R374) -/
  | linkL0Return
  /-- D3HOT_ENTRY (R374) -/
  | d3hotEntry (f : Nat)
  /-- FLR (R375) -/
  | flr (f : Nat)
  /-- PCIE_LINK_CHANGE (R376) -/
  | pcieLinkChange (up : Bool) (speed : Nat) (width : Nat)
  /-- LINK_FRAME (R379) -/
  | linkFrame (p : Nat) (f : RFrame)
  /-- FRAME_RESEND (R379) -/
  | frameResend
  /-- PORT_UP (R381) -/
  | portUp (p : Nat) (farPort : Nat)
  /-- PORT_DOWN (R381) -/
  | portDown (p : Nat)
  /-- DISCOVERY (R383) -/
  | discovery (late : Bool) (a0 : List WheelNode) (a1 : List WheelNode)
  /-- PATH_REBUILD (R391) -/
  | pathRebuild (a0 : List WheelNode) (a1 : List WheelNode) (room : Bool)
  /-- TIME_FRAME (R385) -/
  | timeFrame (err : Int)
  /-- EXPORT_ENABLE (R388) -/
  | exportEnable (ag : Agent) (x : Nat) (v : W32) (room : Bool)
  /-- EXPORT_SNAPSHOT (R387) -/
  | exportSnapshot (x : Nat)
  /-- STRIP_SEND (R387) -/
  | stripSend (x : Nat) (k : Nat)
  /-- STRIP_MISSING (R390) -/
  | stripMissing (i : Nat) (k : Nat)
  /-- LEVEL_CHANGE (R400) -/
  | levelChange
  /-- REGULATOR_ACK (R400) -/
  | regulatorAck
  /-- REGULATOR_TIMEOUT (R400) -/
  | regulatorTimeout
  /-- THERMAL_SAMPLE (R401) -/
  | thermalSample (sensor : Nat) (t16 : Int)
  /-- WAKE (R405) -/
  | wake (cause : Nat)
  /-- DOMAIN_REQUEST (R406) -/
  | domainRequest (f : Nat)
  /-- POWER_GOOD_LOSS (R398) -/
  | powerGoodLoss (d : Nat)
  /-- PWR_ON (R436) -/
  | pwrOn
  /-- CHIP_RESET (R413) -/
  | chipReset (cause : Nat) (flash : Option (List Byte × List Byte)) (bad : List Nat) (pot : Nat)
  /-- CHIP (R417) -/
  | chip (ag : Agent) (bad : List Nat) (pot : Nat)
  /-- RECOVER (R415) -/
  | recover (ag : Agent) (bad : List Nat) (pot : Nat)
  /-- CONFIRM (R419) -/
  | confirm (ag : Agent)
  /-- ROLLBACK_COMMIT (R419) -/
  | rollbackCommit (ag : Agent)
  /-- WARM_PATH (R416) -/
  | warmPath (bad : List Nat) (pot : Nat)
  /-- HEAD_RESET (R417) -/
  | headReset (ag : Agent) (h : Nat)
  /-- UNIT_RESET (R417) -/
  | unitReset (ag : Agent) (kind : Nat) (i : Nat)
  /-- JOURNAL_SPILL (R421) -/
  | journalSpill
  /-- JOURNAL_BLOCK_COMMIT (R421) -/
  | journalBlockCommit
  /-- SUPPLY_LOSS (R435) -/
  | supplyLoss (bad : List Nat) (pot : Nat)
  /-- DEBUG_HALT (R127) -/
  | debugHalt (d : DebugHalt)
  /-- DEBUG_RESUME (R127) -/
  | debugResume (d : DebugResume)
  /-- NET_LINK_CHANGE (R180) -/
  | netLinkChange (n : Nat) (up : Bool)
  /-- FUNCTION_D0_ENTRY (R374) -/
  | functionD0Entry (f : Nat) (msixEn : Bool)
  /-- ASPM_L1_ENTRY (R374) -/
  | aspmL1Entry (sub : Nat)
  /-- D3COLD_ENTRY (R374) -/
  | d3coldEntry
  /-- REFRESH_WINDOW_END (R149) -/
  | refreshWindowEnd (ch : Nat)
  /-- SYNTHESISER_LOCK (R315) -/
  | synthesiserLock (lock : Bool)
  /-- LO_READ_LATCH (R426) -/
  | loReadLatch (ag : Agent) (addr : Nat)
  deriving DecidableEq, Repr

end Sys2Proof
end

