-- ==== Sys2Proof/WellFormed.lean ====
section
/-! DEFINITION. Well-formed commands: every operand within the range its field has in the spec, whatever the variant has of the
unit, and what the loader demands of a sequencer instruction (R56, R60 to R62, R66, R68). An ill-formed command has the
effect the meanings give it, none where it names nothing; statements about commands may assume this form. -/

namespace Sys2Proof

/-- A requester that the map can hold: 64 functions, 64 sequencers, 128 channels (R4). -/
def Agent.wf : Agent → Bool
  | .host f => f < 64
  | .seq n => n < 64
  | .dma c => c < 128
  | .starter => true
  | .debug => true

/-- A sequencer, a predicate and three registers in range (R60). -/
def wfR (n p d a b : Nat) : Bool := n < 64 && p < 8 && d < 32 && a < 32 && b < 32

/-- A predicate that may be written: p1 to p7 (R62). -/
def wfP (d : Nat) : Bool := d != 0 && d < 8

/-- A register's address: a multiple of 4 in control space (R23, R69). -/
def wfReg (a : Nat) : Bool := 0x20000000 ≤ a && a < 0x22000000 && a % 4 == 0

/-- The operands of a command are in range. -/
def Instr.wf : Instr → Bool
  | .registerWrite ag addr _ => ag.wf && wfReg addr
  | .hostBarAccess f bar _ _ width _ => f < 64 && (bar == 0 || bar == 2 || bar == 4) && 1 ≤ width && width ≤ 8
  | .pairedWrite ag addr _ => ag.wf && wfReg addr
  | .pairTimeout addr => wfReg addr
  | .masterBoundary _ => true
  | .tickWindowClose dom => dom == 0 || (0x10 ≤ dom && dom < 0x20) || (0x20 ≤ dom && dom < 0x23)
  | .commitSwitch => true
  | .headTick h => h < 16
  | .audioTick d => d < 3
  | .tkgSourceSelect ag _ => ag.wf
  | .timeInfo src => src < 3
  | .sourceLossTimeout => true
  | .phaseStep _ => true
  | .contractAdd ag _ => ag.wf
  | .contractRelease ag _ => ag.wf
  | .contractReplace ag _ => ag.wf
  | .pwCommit ag => ag.wf
  | .pwDiscard ag w => ag.wf && w < 65
  | .plFloorWrite ag floor => ag.wf && floor < 8
  | .add n p d a b => wfR n p d a b
  | .sub n p d a b => wfR n p d a b
  | .andR n p d a b => wfR n p d a b
  | .orR n p d a b => wfR n p d a b
  | .xorR n p d a b => wfR n p d a b
  | .andn n p d a b => wfR n p d a b
  | .shl n p d a b => wfR n p d a b
  | .shr n p d a b => wfR n p d a b
  | .sar n p d a b => wfR n p d a b
  | .rol n p d a b => wfR n p d a b
  | .min n p d a b => wfR n p d a b
  | .max n p d a b => wfR n p d a b
  | .minu n p d a b => wfR n p d a b
  | .maxu n p d a b => wfR n p d a b
  | .clz n p d a => wfR n p d a 0
  | .popc n p d a => wfR n p d a 0
  | .cmp n p _ d a b => wfR n p d a b && wfP d
  | .pand n p d a b => wfR n p d a b && wfP d && a < 8 && b < 8
  | .por n p d a b => wfR n p d a b && wfP d && a < 8 && b < 8
  | .pxor n p d a b => wfR n p d a b && wfP d && a < 8 && b < 8
  | .pandn n p d a b => wfR n p d a b && wfP d && a < 8 && b < 8
  | .mul n p d a b => wfR n p d a b
  | .mulh n p d a b => wfR n p d a b
  | .mulhu n p d a b => wfR n p d a b
  | .div n p d a b => wfR n p d a b
  | .divu n p d a b => wfR n p d a b
  | .rem n p d a b => wfR n p d a b
  | .remu n p d a b => wfR n p d a b
  | .mfs n p d b => wfR n p d 0 0 && b < 16
  | .mts n p b a => wfR n p 0 a 0 && (b == 6 || b == 7)
  | .addi n d a _ => wfR n 0 d a 0
  | .andi n d a _ => wfR n 0 d a 0
  | .ori n d a _ => wfR n 0 d a 0
  | .xori n d a _ => wfR n 0 d a 0
  | .shli n d a sh => wfR n 0 d a 0 && sh < 64
  | .shri n d a sh => wfR n 0 d a 0 && sh < 64
  | .sari n d a sh => wfR n 0 d a 0 && sh < 64
  | .seth n d k _ => wfR n 0 d 0 0 && k < 4
  | .cmpi n cc d a _ => wfR n 0 d a 0 && wfP d && cc != .ge && cc != .geu
  | .ld n p d a _ => wfR n p d a 0
  | .lw n p d a _ => wfR n p d a 0
  | .lws n p d a _ => wfR n p d a 0
  | .lh n p d a _ => wfR n p d a 0
  | .lhs n p d a _ => wfR n p d a 0
  | .lb n p d a _ => wfR n p d a 0
  | .lbs n p d a _ => wfR n p d a 0
  | .st n p d a _ => wfR n p d a 0
  | .stw n p d a _ => wfR n p d a 0
  | .sth n p d a _ => wfR n p d a 0
  | .stb n p d a _ => wfR n p d a 0
  | .ldc n p d a _ => wfR n p d a 0
  | .stc n p d a _ => wfR n p d a 0
  | .twr n p d a _ => wfR n p d a 0
  | .sig n p src => wfR n p 0 0 0 && src < 64
  | .br n p off => wfR n p 0 0 0 && 1 ≤ off.toInt
  | .brn n p off => wfR n p 0 0 0 && p != 0 && 1 ≤ off.toInt
  | .call n p off => wfR n p 0 0 0 && off != 0
  | .ret n p => wfR n p 0 0 0
  | .loop n gc len m => wfR n 0 gc 0 0 && 1 ≤ len && len < 32 && 1 ≤ m && m < 65536
  | .jtab n a cnt => wfR n 0 a 0 0 && 1 ≤ cnt && cnt ≤ 1024
  | .waitt n p => wfR n p 0 0 0
  | .waits n p d => wfR n p d 0 0
  | .rennet n p d => wfR n p d 0 0
  | .evret n => n < 64
  | .wret n => n < 64
  | .drain n p => wfR n p 0 0 0
  | .drainComplete n => n < 64
  | .fence n p => wfR n p 0 0 0
  | .wcall n svc => n < 64 && svc < 64
  | .eventRaise src => src < 1024
  | .eventEntry n => n < 64
  | .hostSourceMessage f => f < 64
  | .evrDone ag w _ => ag.wf && w < 32
  | .evrRearm ag w _ => ag.wf && w < 32
  | .evrPendWrite ag w _ => ag.wf && w < 32
  | .pinRawEdge pin => pin < 32
  | .pinFilteredTransition pin _ => pin < 32
  | .pinLatchCapture pin _ => pin < 32
  | .create ag p => ag.wf && p < 64
  | .destroy ag p => ag.wf && p < 64
  | .partitionReset ag p => ag.wf && p < 64
  | .run ag p => ag.wf && p < 64
  | .claim ag => ag.wf
  | .claimRelease ag => ag.wf
  | .potRewriteDone p => p < 64
  | .potEdit ag => ag.wf
  | .potEditDone => true
  | .faultLatchClear ag => ag.wf
  | .dramRequest q _ part _ _ _ _ => q < 32 && part < 64
  | .urgencyRaise _ => true
  | .dramRequestDone _ _ _ => true
  | .correctionWriteback => true
  | .scrubRead _ _ => true
  | .ssAccess _ _ part _ _ _ _ => part < 64
  | .ssScrub => true
  | .retrainStart ch _ => ch < 16
  | .retrainStep _ _ _ _ => true
  | .rowActivation ch _ _ q => ch < 16 && q < 32
  | .refreshRateChange ch _ => ch < 16
  | .channelPowerDown ch _ => ch < 16
  | .dmaStart ag ch => ag.wf && ch < 128
  | .dmaStop ag ch => ag.wf && ch < 128
  | .dmaStopped ch => ch < 128
  | .dmaHalfPoint ch => ch < 128
  | .dmaEnd ch => ch < 128
  | .dmaError ch code => ch < 128 && code < 16
  | .crcConfigWrite ag n _ => ag.wf && n < 128
  | .crcRestart ag n => ag.wf && n < 128
  | .crcAliveReset ag n => ag.wf && n < 128
  | .crcFeed ag n width _ => ag.wf && n < 128 && (width == 1 || width == 2 || width == 4)
  | .crcCheck ag n _ => ag.wf && n < 128
  | .csiFrameStart p vc => p < 8 && vc < 16
  | .csiLine p vc dt _ _ _ => p < 8 && vc < 16 && dt < 64
  | .csiFrameEnd p vc => p < 8 && vc < 16
  | .csiLinkFailure p => p < 8
  | .rtpPacket n udp _ seq ts _ _ _ _ => n < 4 && udp < 65536 && seq < 65536 && ts < 4294967296
  | .rtcpSenderReport n udp _ rtp _ => n < 4 && udp < 65536 && rtp < 4294967296
  | .publishGuest ag slot => ag.wf && slot < 1024
  | .publishDerived ag slot origin => ag.wf && slot < 1024 && origin < 1024
  | .publishReplay ag slot => ag.wf && slot < 1024
  | .publishSynthetic ag slot => ag.wf && slot < 1024
  | .sourceLossDeadline slot => slot < 1024
  | .vdeWptrWrite ag v x _ => ag.wf && v < 8 && x < 32
  | .pictureTokenRefill v x => v < 8 && x < 32
  | .pictureDecoded v x _ => v < 8 && x < 32
  | .vdeCancel ag v x => ag.wf && v < 8 && x < 32
  | .latchInstant h => h < 16
  | .stripCompositionStart h _ => h < 16
  | .stripScanoutStart h _ _ => h < 16
  | .layerWrite ag h slot off _ => ag.wf && h < 16 && slot < 32 && off < 64
  | .engineFault n _ => n < 64
  | .headLineStart h _ _ rindChk => h < 16 && rindChk < 3
  | .headEnable ag h _ => ag.wf && h < 16
  | .rasterStart h => h < 16
  | .syncWrite ag h _ _ => ag.wf && h < 16
  | .adaptGo ag h => ag.wf && h < 16
  | .frameDone h => h < 16
  | .linkTrain t _ => t < 8
  | .linkTrainingDone t _ _ _ _ _ _ _ _ => t < 8
  | .hpdLoss t => t < 8
  | .irqHpd t _ => t < 8
  | .linkLoss t => t < 8
  | .auxNativeWrite ag t addr len => ag.wf && t < 8 && addr < 1048576 && 1 ≤ len && len ≤ 16
  | .auxNativeRead ag t addr len => ag.wf && t < 8 && addr < 1048576 && 1 ≤ len && len ≤ 16
  | .auxI2cWrite ag t addr len => ag.wf && t < 8 && addr < 1048576 && 1 ≤ len && len ≤ 16
  | .auxI2cRead ag t addr len => ag.wf && t < 8 && addr < 1048576 && 1 ≤ len && len ≤ 16
  | .auxReply t _ _ => t < 8
  | .auxDeferRetry t => t < 8
  | .sinkCrcResult t stream _ _ => t < 8 && stream < 2
  | .encodeTokenRefill e x => e < 4 && x < 8
  | .ctuRowReady e x _ _ _ _ _ => e < 4 && x < 8
  | .ctuRowCoded e x _ _ _ => e < 4 && x < 8
  | .rowDeadline e x _ _ => e < 4 && x < 8
  | .encoderFault e => e < 4
  | .witnessRecord => true
  | .segmentClose ns _ => ns < 64
  | .segmentHandoff => true
  | .holdSet ag n => ag.wf && n < 1024
  | .holdRelease ag n => ag.wf && n < 1024
  | .caveSegmentAccept => true
  | .segmentCommit => true
  | .programFailure m _ => m < 32
  | .caveRead ns _ _ _ => ns < 65
  | .affinageRead m _ _ _ _ _ => m < 32
  | .superblockRefresh _ => true
  | .retentionUpdate _ => true
  | .remove ag m => ag.wf && m < 32
  | .forceRemove ag m => ag.wf && m < 32
  | .insert ag m => ag.wf && m < 32
  | .memberDrained m => m < 32
  | .memberTimeout m => m < 32
  | .insertionDone _ => true
  | .rebuildComplete => true
  | .caveFormat ag _ => ag.wf
  | .mixSample d => d < 3
  | .tdmFrame t _ _ => t < 8
  | .tdmFsTimeout t => t < 8
  | .tdmConfigWrite ag t _ => ag.wf && t < 8
  | .audioPacket n udp _ pt ts _ _ => n < 4 && udp < 65536 && pt < 128 && ts < 4294967296
  | .audioPacketTx n k => n < 4 && k < 16
  | .nsConfigWrite ag n k _ => ag.wf && n < 4 && k < 16
  | .inConfigWrite ag i _ => ag.wf && i < 128
  | .bridgeRatioFault b _ => b < 4
  | .silenceHoldExpiry o => o < 64
  | .ampWakeDone p => p < 16
  | .chimeStart ag v => ag.wf && v < 4
  | .chimeStop ag v => ag.wf && v < 4
  | .meterRead ag o => ag.wf && o < 64
  | .touchRateTick t => t < 8
  | .scanStart t => t < 8
  | .scanEnd t _ _ => t < 8
  | .freeModeFallback t => t < 8
  | .tslStepFrame t _ _ _ => t < 8
  | .tslWrite ag t bytes addr => ag.wf && t < 8 && 1 ≤ bytes && bytes ≤ 4 && addr < 65536
  | .tslRead ag t bytes addr => ag.wf && t < 8 && 1 ≤ bytes && bytes ≤ 4 && addr < 65536
  | .tslReply t _ _ => t < 8
  | .tslTimeout t => t < 8
  | .touchStart ag t => ag.wf && t < 8
  | .touchStop ag t => ag.wf && t < 8
  | .rebase ag t => ag.wf && t < 8
  | .touchSelftest ag t => ag.wf && t < 8
  | .longHold t => t < 8
  | .wakeGesture t => t < 8
  | .hptGo ag ch _ => ag.wf && ch < 8
  | .carrierPeriod ch => ch < 8
  | .effectSegmentEnd ch => ch < 8
  | .enableHoldExpiry ch => ch < 8
  | .enableDelayDone ch => ch < 8
  | .hapticFault ch _ => ch < 8
  | .hapticSelftest ag ch => ag.wf && ch < 8
  | .hapticSelftestEnd ch _ => ch < 8
  | .hapticDisable ag ch => ag.wf && ch < 8
  | .sqTailWrite f q _ => f < 64 && q < 4
  | .cqHeadWrite f q _ => f < 64 && q < 4
  | .nop f q => f < 64 && q < 4
  | .contract f q => f < 64 && q < 4
  | .commit f q => f < 64 && q < 4
  | .discard f q => f < 64 && q < 4
  | .submit f q => f < 64 && q < 4
  | .waitEpoch f q => f < 64 && q < 4
  | .readSeg f q _ _ _ => f < 64 && q < 4
  | .moderationTimer v => v < 2048
  | .msixUnmask f e => f < 64 && e < 2048
  | .linkL0Return => true
  | .d3hotEntry f => f < 64
  | .flr f => f < 64
  | .pcieLinkChange _ _ _ => true
  | .linkFrame p _ => p < 2
  | .frameResend => true
  | .portUp p _ => p < 2
  | .portDown p => p < 2
  | .discovery _ _ _ => true
  | .pathRebuild _ _ _ => true
  | .timeFrame _ => true
  | .exportEnable ag x _ _ => ag.wf && x < 16
  | .exportSnapshot x => x < 16
  | .stripSend x _ => x < 16
  | .stripMissing i _ => i < 16
  | .levelChange => true
  | .regulatorAck => true
  | .regulatorTimeout => true
  | .thermalSample sensor _ => sensor < 8
  | .wake _ => true
  | .domainRequest f => f < 64
  | .powerGoodLoss d => d < 24
  | .pwrOn => true
  | .chipReset _ _ _ _ => true
  | .chip ag _ _ => ag.wf
  | .recover ag _ _ => ag.wf
  | .confirm ag => ag.wf
  | .rollbackCommit ag => ag.wf
  | .warmPath _ _ => true
  | .headReset ag h => ag.wf && h < 16
  | .unitReset ag kind i => ag.wf && kind < 256 && i < 2048
  | .journalSpill => true
  | .journalBlockCommit => true
  | .supplyLoss _ _ => true
  | .debugHalt d => d.seq < 64
  | .debugResume d => d.seq < 64
  | .netLinkChange n _ => n < 4
  | .functionD0Entry f _ => f < 64
  | .aspmL1Entry k => k < 3
  | .d3coldEntry => true
  | .refreshWindowEnd ch => ch < 16
  | .synthesiserLock _ => true
  | .loReadLatch ag addr => ag.wf && wfReg addr

end Sys2Proof
end

