-- ==== Sys2Proof/Decode.lean ====
section
/-! DEFINITION. The command that a word spells by the bits of the table of operations and events (none, no row of it gives bits), and the
command that a 32-bit word of a Usfer sequencer's code spells by the formats of the instruction set (R60 to R62). The loader reads an image's
words for their flow, cost and rights (Machine/Loader.lean, R80). -/

namespace Sys2Proof

/-- The command whose bits are `w`: the table gives no row any bits, so no word spells one. -/
def decodeTableWord (_nbits _w : Nat) : Option Instr := none

/-! ### Code words (R60 to R62) -/

/-- Opcode, fields d, a and b, and the A-format predicate and function of a word. -/
def wOp (w : Nat) : Nat := w / 67108864 % 64
def wD (w : Nat) : Nat := w / 2097152 % 32
def wA (w : Nat) : Nat := w / 65536 % 32
def wB (w : Nat) : Nat := w / 2048 % 32
def wP (w : Nat) : Nat := w / 256 % 8
def wFn (w : Nat) : Nat := w % 256
/-- The immediate of I format; the predicate and the offset that memory, control-space and SIG words carry in it (R61). -/
def wImm (w : Nat) : Nat := w % 65536
def wIP (w : Nat) : Nat := w / 8192 % 8
def wOff (w : Nat) : BitVec 13 := BitVec.ofNat 13 w
/-- The predicate and the word offset of B format. -/
def wBP (w : Nat) : Nat := w / 8388608 % 8
def wBOff (w : Nat) : BitVec 23 := BitVec.ofNat 23 w

/-- Conditions of CMP by function code, and of CMPI by d[4:3]. -/
def condOf : Nat → Option Cond
  | 0 => some .eq | 1 => some .ne | 2 => some .lt | 3 => some .ltu | 4 => some .ge | 5 => some .geu
  | _ => none

/-- Opcode 0: the two-operand and one-operand ALU operations. -/
def aluWord (n w : Nat) : Option Instr :=
  let p := wP w
  let d := wD w
  let a := wA w
  let b := wB w
  match wFn w with
  | 0 => some (.add n p d a b) | 1 => some (.sub n p d a b) | 2 => some (.andR n p d a b) | 3 => some (.orR n p d a b)
  | 4 => some (.xorR n p d a b) | 5 => some (.andn n p d a b) | 6 => some (.shl n p d a b) | 7 => some (.shr n p d a b)
  | 8 => some (.sar n p d a b) | 9 => some (.rol n p d a b) | 10 => some (.min n p d a b) | 11 => some (.max n p d a b)
  | 12 => some (.minu n p d a b) | 13 => some (.maxu n p d a b)
  | 14 => if b = 0 then some (.clz n p d a) else none
  | 15 => if b = 0 then some (.popc n p d a) else none
  | _ => none

/-- Opcodes 1 to 5: comparisons, predicate operations, multiplications, divisions, special registers. -/
def regWord (n w : Nat) : Option Instr :=
  let p := wP w
  let d := wD w
  let a := wA w
  let b := wB w
  match wOp w, wFn w with
  | 1, f => if 0 < d ∧ d < 8 then (condOf f).map (fun cc => .cmp n p cc d a b) else none
  | 2, f =>
    if d = 0 ∨ 8 ≤ d ∨ 8 ≤ a ∨ 8 ≤ b then none
    else match f with
      | 0 => some (.pand n p d a b) | 1 => some (.por n p d a b) | 2 => some (.pxor n p d a b) | 3 => some (.pandn n p d a b)
      | _ => none
  | 3, 0 => some (.mul n p d a b)
  | 3, 1 => some (.mulh n p d a b)
  | 3, 2 => some (.mulhu n p d a b)
  | 4, 0 => some (.div n p d a b)
  | 4, 1 => some (.divu n p d a b)
  | 4, 2 => some (.rem n p d a b)
  | 4, 3 => some (.remu n p d a b)
  | 5, 0 => if a = 0 ∧ b < 16 then some (.mfs n p d b) else none
  | 5, 1 => if d = 0 ∧ (b = 6 ∨ b = 7) then some (.mts n p b a) else none
  | _, _ => none

/-- Opcode 6: system operations. -/
def sysWord (n w : Nat) : Option Instr :=
  let p := wP w
  let d := wD w
  if wA w ≠ 0 ∨ wB w ≠ 0 then none
  else match wFn w with
  | 0 => if d = 0 then some (.waitt n p) else none
  | 1 => some (.waits n p d)
  | 2 => some (.rennet n p d)
  | 3 => if d = 0 then some (.ret n p) else none
  | 4 => if d = 0 ∧ p = 0 then some (.evret n) else none
  | 5 => if d = 0 ∧ p = 0 then some (.wret n) else none
  | 6 => if d = 0 then some (.drain n p) else none
  | 7 => if d = 0 then some (.fence n p) else none
  | _ => none

/-- I-format words without a predicate. -/
def immWord (n w : Nat) : Option Instr :=
  let d := wD w
  let a := wA w
  let i : BitVec 16 := BitVec.ofNat 16 w
  let k := wImm w
  match wOp w with
  | 0x10 => some (.addi n d a i)
  | 0x11 => some (.andi n d a i)
  | 0x12 => some (.ori n d a i)
  | 0x13 => some (.xori n d a i)
  | 0x14 => if k < 64 then some (.shli n d a k) else none
  | 0x15 => if k < 64 then some (.shri n d a k) else none
  | 0x16 => if k < 64 then some (.sari n d a k) else none
  | 0x17 => if a < 4 then some (.seth n d a i) else none
  | 0x18 => if d % 8 = 0 then none else (condOf (d / 8)).map (fun cc => .cmpi n cc (d % 8) a i)
  | 0x34 => if d = 0 ∧ a = 0 ∧ k < 64 then some (.wcall n k) else none
  | 0x38 => if a ≠ 0 ∧ k ≠ 0 then some (.loop n d a k) else none
  | 0x39 => if d = 0 ∧ 1 ≤ k ∧ k ≤ 1024 then some (.jtab n a k) else none
  | _ => none

/-- Memory, control-space and SIG words (R61). -/
def memWord (n w : Nat) : Option Instr :=
  let p := wIP w
  let d := wD w
  let a := wA w
  let o := wOff w
  match wOp w with
  | 0x20 => some (.ld n p d a o)
  | 0x21 => some (.lw n p d a o)
  | 0x22 => some (.lws n p d a o)
  | 0x23 => some (.lh n p d a o)
  | 0x24 => some (.lhs n p d a o)
  | 0x25 => some (.lb n p d a o)
  | 0x26 => some (.lbs n p d a o)
  | 0x28 => some (.st n p d a o)
  | 0x29 => some (.stw n p d a o)
  | 0x2A => some (.sth n p d a o)
  | 0x2B => some (.stb n p d a o)
  | 0x2C => some (.ldc n p d a o)
  | 0x2D => some (.stc n p d a o)
  | 0x2E => some (.twr n p d a o)
  | 0x3A => if d = 0 ∧ a = 0 ∧ wImm w % 8192 < 64 then some (.sig n p (wImm w % 64)) else none
  | _ => none

/-- B-format words. -/
def branchWord (n w : Nat) : Option Instr :=
  let p := wBP w
  let o := wBOff w
  match wOp w with
  | 0x30 => if 1 ≤ o.toInt then some (.br n p o) else none
  | 0x31 => if 1 ≤ o.toInt ∧ p ≠ 0 then some (.brn n p o) else none
  | 0x32 => if o ≠ 0 then some (.call n p o) else none
  | _ => none

/-- The command that a code word of sequencer `n` spells; none for a word that R62 does not list. -/
def usferCommand (n w : Nat) : Option Instr :=
  let op := wOp w
  if 4294967296 ≤ w then none
  else if op = 0 then aluWord n w
  else if op < 6 then regWord n w
  else if op = 6 then sysWord n w
  else if 0x20 ≤ op ∧ op ≤ 0x2E ∨ op = 0x3A then memWord n w
  else if 0x30 ≤ op ∧ op ≤ 0x32 then branchWord n w
  else immWord n w

end Sys2Proof
end

