-- ==== Sys2Proof/Config.lean ====
section
/-! DEFINITION. What an implementation fixes or the spec leaves open, as constants without a body: nothing in Lean can
evaluate one, so a claim holds whatever it is. Cryptographic functions are here because their standards, not the spec, give
their values. -/

namespace Sys2Proof

/-- What the journal writes where R420 gives no number: the cause word and the detail word of a fault entry, by its address word
and the model's own numbering of causes, and the status of a write that a register did not take (0 ignored, 1 OWNED). -/
opaque Config.faultValue : BitVec 32 → Nat → BitVec 32
opaque Config.faultAux : BitVec 32 → Nat → BitVec 32
opaque Config.writeStatus : Nat → Nat
/-- The detail word of a control-write entry (R420 names none). -/
opaque Config.writeAux : BitVec 32 → BitVec 32
/-- Outcomes that a register write brings in from outside when the row that carries them as operands is not the one used: DRAM
channels whose training fails, the table base of the type 0x07 parameters, room on an export's path. -/
opaque Config.trainFails : Nat → List Nat
opaque Config.potParam : Nat → Nat
opaque Config.wheelRoom : Nat → Bool
/-- What identifying the configured cave members finds when a format is begun by a plain register write (R310). -/
opaque Config.memberIds : Nat → List MemberId
/-- A value the spec leaves open, drawn afresh at each counter value of `Core.free` (log entry 10). -/
opaque Config.freeWord : Nat → W64
/-- SHA-256 (R421) and SHA-384 (R79, R291) of a byte list. -/
opaque Config.sha256 : List Byte → BitVec 256
opaque Config.sha384 : List Byte → BitVec 384
/-- ECDSA P-384: verification of a signature (r, s) over a message under a public key (R79, R411), and signing (R291). -/
opaque Config.ecdsaVerify : (key msg sig : List Byte) → Bool
opaque Config.ecdsaSign : (key : Nat) → (digest : BitVec 384) → (i : Nat) → Byte
/-- AES-256-GCM: byte `i` of ciphertext and tag of a body under a key and nonce, with additional authenticated data (R291). -/
opaque Config.aesGcm : (key nonce : Nat) → (aad body : List Byte) → (i : Nat) → Byte
/-- Check byte `i` of the outer code over a burst of 64 data bytes (R138 names the code, not its generator). -/
opaque Config.rsCheck : List Byte → Nat → Byte
/-- Metadata blocks of a die with so many blocks held out of the data pool; the rest of the 1/32 are spares (R301). -/
opaque Config.metaBlocks : Nat → Nat

/-- SHA-384 of the root key, as fused (R410). -/
opaque Config.fusedKeyHash : BitVec 384
/-- The witness keys of an item wrapped with AES-256-GCM under the fused device key: four AES keys and the signing key; none when
the tag does not hold (R411). -/
opaque Config.unwrapKeys : List Byte → Option (List Nat)

end Sys2Proof
end

