-- ==== Sys2Proof/Machine/RegNames.lean ====
section
/-! DEFINITION. The names of the software-visible registers of the block: one constructor per register
family of the spec's register tables, and a register as a family with its instance numbers.
From the register tables of spec/, one name per register family. -/

namespace Sys2Proof.Machine

/-- A register family: a row of a register table of spec/. The docstring of each names its rule. -/
inductive Fam where
  /-- R9 -/
  | SYS_CAP0
  /-- R9 -/
  | SYS_CAP1
  /-- R9 -/
  | SYS_CAP2
  /-- R9 -/
  | SYS_CAP3
  /-- R423 -/
  | SYS_BOOT_STATUS
  /-- R423 -/
  | SYS_BOOT_CTRL
  /-- R417 -/
  | SYS_RST
  /-- R417 -/
  | SYS_RST_RESULT
  /-- R188 -/
  | SYS_SRC_PW_ADDR_LO
  /-- R188 -/
  | SYS_SRC_PW_ADDR_HI
  /-- R188 -/
  | SYS_SRC_PW_CMD
  /-- R188 -/
  | SYS_SRC_PW_RESULT
  /-- R188 -/
  | SYS_SRC_PW_SEQ
  /-- R188 -/
  | SYS_SRC_STATE
  /-- R188 -/
  | SYS_SRC_LOST
  /-- R188 -/
  | SYS_SRC_BACK
  /-- R188 -/
  | SYS_SRC_EVT
  /-- R188 -/
  | SYS_SRC_STAMP
  /-- R29 -/
  | TKG_CTRL
  /-- R29 -/
  | TKG_STATUS
  /-- R28 -/
  | TKG_MASTER_NUM
  /-- R28 -/
  | TKG_MASTER_DEN
  /-- R34 -/
  | TKG_TICK_LO
  /-- R34 -/
  | TKG_TICK_HI
  /-- R36 -/
  | TKG_OVR_STAT
  /-- R37 -/
  | TKG_OVR_LIMIT
  /-- R37 -/
  | TKG_OVR_HALT
  /-- R30 -/
  | TKG_HEAD_CFG
  /-- R31 -/
  | TKG_AUDIO_CFG
  /-- R36 -/
  | TKG_OVR_CNT
  /-- R54 -/
  | ADM_STATUS
  /-- R50 -/
  | ADM_EPOCH
  /-- R46 -/
  | ADM_PL_FLOOR
  /-- R43 -/
  | ADM_LOAD_SEQ
  /-- R43 -/
  | ADM_LOAD_LE
  /-- R43 -/
  | ADM_LOAD_MEM_LO
  /-- R43 -/
  | ADM_LOAD_MEM_HI
  /-- R43 -/
  | ADM_LOAD_DEC
  /-- R43 -/
  | ADM_LOAD_ENC
  /-- R40 -/
  | ADM_PW_DESC_LO
  /-- R40 -/
  | ADM_PW_DESC_HI
  /-- R48 -/
  | ADM_PW_CMD
  /-- R54 -/
  | ADM_PW_RESULT
  /-- R54 -/
  | ADM_PW_EXCESS
  /-- R54 -/
  | ADM_PW_ID
  /-- R47 -/
  | ADM_PW_DRAFT
  /-- R27 R106 -/
  | EVR_TSTAMP
  /-- R100 -/
  | EVR_QCNT
  /-- R103 -/
  | EVR_MASK
  /-- R103 -/
  | EVR_PEND
  /-- R88 -/
  | EVR_ACTIVE
  /-- R100 -/
  | EVR_QUAR
  /-- R101 -/
  | EVR_REARM
  /-- R98 -/
  | EVR_DONE
  /-- R89 -/
  | EVR_PIN_CFG
  /-- R90 -/
  | EVR_PIN_CHAT
  /-- R106 -/
  | EVR_PIN_RAW
  /-- R89 -/
  | EVR_PIN_FILT
  /-- R106 -/
  | EVR_SEQ_STAT
  /-- R86 -/
  | EVR_SRC_CFG
  /-- R86 -/
  | EVR_SRC_TARGET
  /-- R99 -/
  | EVR_SRC_STAT
  /-- R105 -/
  | EVR_SRC_TIME
  /-- R409 -/
  | PWR_CFG
  /-- R409 -/
  | PWR_STATUS
  /-- R400 -/
  | PWR_PL
  /-- R402 -/
  | PWR_RETAIN
  /-- R402 -/
  | PWR_WAKE_EN
  /-- R402 -/
  | PWR_WAKE_EN2
  /-- R402 -/
  | PWR_WAKE_TIMER
  /-- R401 -/
  | PWR_THERM
  /-- R401 -/
  | PWR_TEMP
  /-- R408 -/
  | PWR_EVT
  /-- R409 -/
  | PWR_DOM_STATE
  /-- R409 -/
  | PWR_MODE
  /-- R406 -/
  | PWR_DOM_SEL
  /-- R406 -/
  | PWR_DOM_RET
  /-- R406 -/
  | PWR_DOM_OFF
  /-- R406 -/
  | PWR_REQ_RESULT
  /-- R406 -/
  | PWR_DOM_GO
  /-- R115 -/
  | POT_BASE_LO
  /-- R115 -/
  | POT_BASE_HI
  /-- R119 -/
  | POT_EDIT_ADDR_LO
  /-- R119 -/
  | POT_EDIT_ADDR_HI
  /-- R119 -/
  | POT_EDIT_COUNT
  /-- R119 -/
  | POT_EDIT_ENTRY
  /-- R119 -/
  | POT_EDIT_STATUS
  /-- R109 -/
  | POT_FAULT_ADDR_LO
  /-- R109 -/
  | POT_FAULT_ADDR_HI
  /-- R109 -/
  | POT_FAULT_INFO
  /-- R109 -/
  | POT_FAULT_CNT
  /-- R124 -/
  | POT_PAIR_INFO
  /-- R125 -/
  | POT_PAIR_CNT
  /-- R123 R129 -/
  | POT_EVT
  /-- R127 -/
  | POT_DBG_EN
  /-- R110 -/
  | PART_DESC_LO
  /-- R110 -/
  | PART_DESC_HI
  /-- R453 -/
  | PART_CMD
  /-- R112 -/
  | PART_RESULT
  /-- R453 -/
  | PART_STATE
  /-- R121 -/
  | POT_OWN_SEL
  /-- R121 -/
  | POT_OWN
  /-- R423 -/
  | JNL_CFG
  /-- R422 -/
  | JNL_STATUS
  /-- R421 -/
  | JNL_WSEQ
  /-- R421 -/
  | JNL_SSEQ
  /-- R421 -/
  | JNL_BLOCK_LO
  /-- R421 -/
  | JNL_BLOCK_HI
  /-- R422 -/
  | JNL_LOST
  /-- R423 -/
  | JNL_EVT
  /-- R153 -/
  | DMC_CH_STATUS
  /-- R140 -/
  | DMC_CH_CORR
  /-- R139 -/
  | DMC_CH_UNCORR
  /-- R138 -/
  | DMC_CH_ODECC
  /-- R139 -/
  | DMC_CH_ERR_ADDR_LO
  /-- R139 -/
  | DMC_CH_ERR_ADDR_HI
  /-- R139 -/
  | DMC_CH_ERR_INFO
  /-- R140 -/
  | DMC_SCRUB_CFG
  /-- R149 -/
  | DMC_RH_THRESHOLD
  /-- R150 -/
  | DMC_PD_CFG
  /-- R147 -/
  | DMC_TRAIN_CFG
  /-- R134 R140 -/
  | DMC_ERR_THRESH
  /-- R146 -/
  | DMC_BG_STAT
  /-- R141 -/
  | DMC_PORT_CFG
  /-- R144 -/
  | DMC_PORT_LATE
  /-- R142 -/
  | DMC_PORT_TICK
  /-- R151 -/
  | DMC_HEAD_TOL
  /-- R134 -/
  | DMC_SS_CORR
  /-- R134 -/
  | DMC_SS_UNCORR
  /-- R134 -/
  | DMC_SS_ERR_ADDR
  /-- R134 -/
  | DMC_SS_ERR_INFO
  /-- R156 -/
  | DMA_CH_DESC_LO
  /-- R156 -/
  | DMA_CH_DESC_HI
  /-- R156 -/
  | DMA_CH_CTRL
  /-- R163 -/
  | DMA_CH_STATUS
  /-- R163 -/
  | DMA_CH_DONE
  /-- R163 -/
  | DMA_CH_ERR
  /-- R163 -/
  | DMA_CH_CUR_LO
  /-- R163 -/
  | DMA_CH_CUR_HI
  /-- R163 -/
  | DMA_CH_REMAIN
  /-- R163 -/
  | DMA_ENG_RUN
  /-- R165 -/
  | CRC_CFG
  /-- R165 -/
  | CRC_CTRL
  /-- R167 -/
  | CRC_STATUS
  /-- R171 -/
  | CRC_ERR_CNT
  /-- R164 -/
  | CRC_POLY_LO
  /-- R164 -/
  | CRC_POLY_HI
  /-- R164 -/
  | CRC_INIT_LO
  /-- R164 -/
  | CRC_INIT_HI
  /-- R164 -/
  | CRC_XOROUT_LO
  /-- R164 -/
  | CRC_XOROUT_HI
  /-- R166 -/
  | CRC_DATA8
  /-- R166 -/
  | CRC_DATA16
  /-- R166 -/
  | CRC_DATA32
  /-- R164 -/
  | CRC_RESULT_LO
  /-- R164 -/
  | CRC_RESULT_HI
  /-- R167 -/
  | CRC_ALIVE_RX
  /-- R167 -/
  | CRC_ALIVE
  /-- R167 -/
  | CRC_RX_LO
  /-- R167 -/
  | CRC_RX_HI
  /-- R168 -/
  | CRC_REGION_POS
  /-- R168 -/
  | CRC_REGION_SIZE
  /-- R168 -/
  | CRC_REGION_HEAD
  /-- R170 -/
  | CRC_REF0_LO
  /-- R170 -/
  | CRC_REF0_HI
  /-- R170 -/
  | CRC_REF1_LO
  /-- R170 -/
  | CRC_REF1_HI
  /-- R174 -/
  | CRC_FRAME
  /-- R82 -/
  | SEQ_STATUS
  /-- R78 -/
  | SEQ_EXC
  /-- R78 -/
  | SEQ_EXC_PC
  /-- R82 -/
  | SEQ_IMAGE_ID
  /-- R82 -/
  | SEQ_LASTCYC
  /-- R82 -/
  | SEQ_PEAKCYC
  /-- R57 -/
  | SEQ_MEMERR
  /-- R57 -/
  | SEQ_SVC_CFG
  /-- R228 -/
  | LE_STATUS
  /-- R228 -/
  | LE_CTRL
  /-- R227 -/
  | LE_FAULT
  /-- R228 -/
  | LE_LASTCYC
  /-- R228 -/
  | LE_PEAKCYC
  /-- R228 -/
  | LE_ERR_CNT
  /-- R235 -/
  | HD_CTRL
  /-- R252 -/
  | HD_STATUS
  /-- R241 -/
  | HD_FRAME
  /-- R252 -/
  | HD_TIMING_H
  /-- R252 -/
  | HD_TIMING_V
  /-- R232 -/
  | HD_PIXCLK
  /-- R233 -/
  | HD_HSYNC
  /-- R233 -/
  | HD_VSYNC
  /-- R234 -/
  | HD_ADAPT
  /-- R234 -/
  | HD_ADAPT_GO
  /-- R241 -/
  | HD_LINE_MATCH
  /-- R237 -/
  | HD_OUT
  /-- R245 -/
  | HD_QUIET
  /-- R241 -/
  | HD_EVT
  /-- R243 -/
  | HD_UNDERRUN
  /-- R243 -/
  | HD_UNDERRUN_INFO
  /-- R276 -/
  | HD_FRESH_STATE
  /-- R270 -/
  | HD_RIND_EN
  /-- R264 -/
  | HD_FRESH_LABEL
  /-- R276 -/
  | HD_FRESH_STATUS
  /-- R275 -/
  | HD_STALE_CNT
  /-- R275 -/
  | HD_LOST_CNT
  /-- R259 -/
  | HD_FUTURE_CNT
  /-- R276 -/
  | HD_FRESH_AGE
  /-- R201 -/
  | HD_COMP_RING
  /-- R208 -/
  | HD_BGCOLOR
  /-- R229 -/
  | HD_COMP_STATUS
  /-- R220 -/
  | HD_WHEY_TOTAL_LO
  /-- R220 -/
  | HD_WHEY_TOTAL_HI
  /-- R220 -/
  | HD_FETCH_TOTAL_LO
  /-- R220 -/
  | HD_FETCH_TOTAL_HI
  /-- R227 -/
  | HD_LE_GROUP_LO
  /-- R227 -/
  | HD_LE_GROUP_HI
  /-- R211 -/
  | LAYER_CTRL
  /-- R211 -/
  | LAYER_SRC
  /-- R211 -/
  | LAYER_CROP_POS
  /-- R211 -/
  | LAYER_CROP_SIZE
  /-- R211 -/
  | LAYER_DST_POS
  /-- R211 -/
  | LAYER_DST_SIZE
  /-- R211 -/
  | LAYER_PITCH0
  /-- R211 -/
  | LAYER_PITCH1
  /-- R211 -/
  | LAYER_PLANE1
  /-- R211 -/
  | LAYER_PLANE2
  /-- R211 -/
  | LAYER_BLEND
  /-- R211 -/
  | LAYER_CSC
  /-- R211 -/
  | LAYER_OPQ_POS
  /-- R211 -/
  | LAYER_OPQ_SIZE
  /-- R220 -/
  | LAYER_FETCH
  /-- R220 -/
  | LAYER_WHEY
  /-- R248 -/
  | DPT_CTRL
  /-- R248 -/
  | DPT_LINK
  /-- R252 -/
  | DPT_STATUS
  /-- R252 -/
  | DPT_STREAM
  /-- R251 -/
  | DPT_SINKCRC
  /-- R251 -/
  | DPT_SINKCRC_STAT
  /-- R250 -/
  | DPT_AUX_CMD
  /-- R250 -/
  | DPT_AUX_STATUS
  /-- R250 -/
  | DPT_AUX_DATA
  /-- R199 -/
  | VDE_STATUS
  /-- R199 -/
  | VDE_EVT
  /-- R193 -/
  | VDE_CTX_STATE
  /-- R193 -/
  | VDE_CTX_CTRL
  /-- R199 -/
  | VDE_CTX_CFG
  /-- R195 -/
  | VDE_CTX_RATE
  /-- R192 -/
  | VDE_CTX_WPTR
  /-- R192 -/
  | VDE_CTX_RPTR
  /-- R199 -/
  | VDE_CTX_PICS
  /-- R199 -/
  | VDE_CTX_CONC
  /-- R199 -/
  | VDE_CTX_LOST
  /-- R199 -/
  | VDE_CTX_LATE
  /-- R296 -/
  | VEE_STATUS
  /-- R296 -/
  | VEE_EVT
  /-- R296 -/
  | VEE_STR_STATE
  /-- R296 -/
  | VEE_STR_PICS
  /-- R296 -/
  | VEE_STR_FALLBACK
  /-- R296 -/
  | VEE_STR_DROP
  /-- R296 -/
  | VEE_STR_BYTES
  /-- R296 -/
  | WIT_CTRL
  /-- R296 -/
  | WIT_STATUS
  /-- R293 -/
  | WIT_STAGE_BASE_LO
  /-- R293 -/
  | WIT_STAGE_BASE_HI
  /-- R293 -/
  | WIT_STAGE_SIZE
  /-- R296 -/
  | WIT_AUDIO
  /-- R293 -/
  | WIT_GAP_CNT
  /-- R295 -/
  | WIT_HOLD_MAX
  /-- R291 -/
  | WIT_SEG_LO
  /-- R291 -/
  | WIT_SEG_HI
  /-- R295 -/
  | WIT_HOLD_FIRST_LO
  /-- R295 -/
  | WIT_HOLD_FIRST_HI
  /-- R295 -/
  | WIT_HOLD_LAST_LO
  /-- R295 -/
  | WIT_HOLD_LAST_HI
  /-- R295 -/
  | WIT_HOLD_CTL
  /-- R314 -/
  | CAVE_CTRL
  /-- R314 -/
  | CAVE_STATUS
  /-- R303 -/
  | CAVE_WRATE
  /-- R301 -/
  | CAVE_NS0_GIB
  /-- R301 -/
  | CAVE_JNL_GIB
  /-- R301 -/
  | CAVE_FREE_GIB
  /-- R308 -/
  | CAVE_PATROL
  /-- R307 -/
  | CAVE_WEAR
  /-- R313 -/
  | CAVE_EVT
  /-- R305 -/
  | CAVE_LOSS_CNT
  /-- R308 -/
  | CAVE_RD_LIMIT
  /-- R307 -/
  | CAVE_ERASE_AVG
  /-- R310 -/
  | CAVE_MEMBER_CMD
  /-- R314 -/
  | CAVE_MEMBER_RESULT
  /-- R311 -/
  | CAVE_REBUILD
  /-- R314 -/
  | CAVE_CH_STATUS
  /-- R299 -/
  | CAVE_MEMBER_CFG
  /-- R310 -/
  | CAVE_MEMBER_STATUS
  /-- R331 -/
  | AUD_EVT
  /-- R315 -/
  | AUD_POS
  /-- R332 -/
  | AUD_DOM
  /-- R320 -/
  | AUD_TDM_CFG
  /-- R321 -/
  | AUD_TDM_STATUS
  /-- R320 -/
  | AUD_TDM_TX
  /-- R324 -/
  | AUD_BR_STATUS
  /-- R324 -/
  | AUD_BR_SEL
  /-- R323 -/
  | AUD_RING_CFG
  /-- R323 -/
  | AUD_RING_BASE
  /-- R323 -/
  | AUD_RING_WPTR
  /-- R323 -/
  | AUD_RING_RPTR
  /-- R325 -/
  | AUD_IN_CFG
  /-- R326 -/
  | AUD_OUT_GAIN
  /-- R329 -/
  | AUD_OUT_SIL
  /-- R330 -/
  | AUD_METER
  /-- R329 -/
  | AUD_OUT_STATUS
  /-- R329 -/
  | AUD_AMPEN
  /-- R328 -/
  | AUD_CHIME_CFG
  /-- R328 -/
  | AUD_CHIME_SRC
  /-- R328 -/
  | AUD_CHIME_GO
  /-- R322 -/
  | AUD_NS_CFG
  /-- R322 -/
  | AUD_NS_STATUS
  /-- R322 -/
  | AUD_NS_SSRC
  /-- R322 -/
  | AUD_NS_UDP
  /-- R332 -/
  | AUD_NS_ADDR0
  /-- R332 -/
  | AUD_NS_ADDR1
  /-- R332 -/
  | AUD_NS_ADDR2
  /-- R332 -/
  | AUD_NS_ADDR3
  /-- R326 -/
  | AUD_XP
  /-- R349 -/
  | TCH_STATUS
  /-- R349 -/
  | TCH_CTRL
  /-- R337 -/
  | TCH_CFG
  /-- R334 -/
  | TCH_GEOM
  /-- R349 -/
  | TCH_PULSE
  /-- R340 -/
  | TCH_THR
  /-- R341 -/
  | TCH_TRACK
  /-- R343 -/
  | TCH_HOLD
  /-- R341 -/
  | TCH_XMAP
  /-- R341 -/
  | TCH_YMAP
  /-- R344 -/
  | TCH_RING_BASE
  /-- R344 -/
  | TCH_RING_CFG
  /-- R344 -/
  | TCH_RING_WPTR
  /-- R344 -/
  | TCH_RING_RPTR
  /-- R348 -/
  | TCH_EVT
  /-- R335 -/
  | TCH_ERR_CNT
  /-- R345 -/
  | TCH_ST_LIM
  /-- R345 -/
  | TCH_ST_RES
  /-- R347 -/
  | TCH_WAKE
  /-- R336 -/
  | TCH_TSL_CMD
  /-- R336 -/
  | TCH_TSL_DATA
  /-- R336 -/
  | TCH_TSL_STATUS
  /-- R349 -/
  | TCH_SELF
  /-- R349 -/
  | TCH_RAW
  /-- R349 -/
  | TCH_BASE
  /-- R363 -/
  | HPT_STATUS
  /-- R363 -/
  | HPT_CTRL
  /-- R351 -/
  | HPT_PWM
  /-- R360 -/
  | HPT_LIM
  /-- R361 -/
  | HPT_LIM2
  /-- R351 -/
  | HPT_PZ_GAIN
  /-- R361 -/
  | HPT_RCOIL
  /-- R362 -/
  | HPT_EVT
  /-- R355 -/
  | HPT_GO
  /-- R352 -/
  | HPT_ERR_CNT
  /-- R363 -/
  | HPT_SENSE
  /-- R353 -/
  | HPT_EFF
  /-- R354 -/
  | HPT_REGION
  /-- R188 -/
  | CSI_CTRL
  /-- R188 -/
  | CSI_STATUS
  /-- R182 -/
  | CSI_ERR
  /-- R181 -/
  | CSI_CAPOFS
  /-- R183 -/
  | CSI_TRIG
  /-- R188 -/
  | CSI_CNT
  /-- R188 -/
  | NET_PORT_CTRL
  /-- R188 -/
  | NET_PORT_STATUS
  /-- R184 -/
  | NET_STREAM_LOSS
  /-- R381 -/
  | RGL_PORT_CTRL
  /-- R381 -/
  | RGL_PORT_STATUS
  /-- R379 -/
  | RGL_PORT_CRCERR
  /-- R388 -/
  | RGL_PORT_RES
  /-- R382 -/
  | RGL_ID
  /-- R383 -/
  | RGL_WHEEL_STATUS
  /-- R395 -/
  | RGL_EVT
  /-- R383 -/
  | RGL_TOPO
  /-- R388 -/
  | RGL_EXP_CTRL
  /-- R386 -/
  | RGL_EXP_RECT_POS
  /-- R386 -/
  | RGL_EXP_RECT_SIZE
  /-- R386 -/
  | RGL_EXP_DST
  /-- R388 -/
  | RGL_EXP_RES
  /-- R389 -/
  | RGL_IMP_CFG
  /-- R389 -/
  | RGL_IMP_BASE_LO
  /-- R389 -/
  | RGL_IMP_BASE_HI
  /-- R389 -/
  | RGL_IMP_SLOT
  /-- R390 -/
  | RGL_IMP_MISS
  /-- R377 -/
  | HOST_LINK
  /-- R376 -/
  | HOST_EVT
  /-- R377 -/
  | HOST_FN
  /-- R368 -/
  | HOST_SQ_BASE_LO
  /-- R368 -/
  | HOST_SQ_BASE_HI
  /-- R368 -/
  | HOST_CQ_BASE_LO
  /-- R368 -/
  | HOST_CQ_BASE_HI
  /-- R377 -/
  | HOST_Q_CFG
  /-- R377 -/
  | HOST_Q_STATUS
  /-- R373 -/
  | HOST_MOD
  /-- R444 -/
  | GPIO_OUT
  /-- R444 -/
  | GPIO_OE
  /-- R444 -/
  | GPIO_IN
  /-- R444 -/
  | GPIO_LOCK
  /-- R444 -/
  | GPIO_CFG
  deriving DecidableEq, Repr

/-- What owns a register: the unit, endpoint or record whose owner decides who may write it (R107, R108, R121). -/
inductive OwnKind where
  | device | window | head | le | seq | dma | crc | touch | haptic | dpt | bridge | mixIn | netAudio | mixOut
  | audEvt | csi | dramCh | evPin | evWord | evSrc | exp | fn | hold | imp | layer | net | partState | pwrWin
  | pwrHost | rogar | wheel | ring | slot | slotBits | tdm | vdeCtx | vdeCtxBits | vde | vec | vee | veeStr
  deriving DecidableEq, Repr

/-- Who may write a register. -/
inductive WrKind where
  /-- Nobody: every field is RO. -/
  | none
  /-- Its owner and the secure world. -/
  | owner
  /-- The secure world (partition 0 on the N series, R110). -/
  | secure
  /-- The secure world and partition 0. -/
  | secureOrP0
  /-- Partition 0 and the secure world, an owner record not being asked (HOST_FN). -/
  | p0
  /-- Every requester; the command itself decides. -/
  | any
  /-- The requester's own window (R40, R188, R409). -/
  | window
  /-- POT_EVT: bit 0 the secure world, bit 3 partition 0 (R453). -/
  | potEvt
  /-- HD_RIND_EN: bit 31 and the boot head under R270. -/
  | rind
  deriving DecidableEq, Repr

/-- Who may read a register. -/
inductive RdKind where
  | any | owner | secureOrP0 | window | powerWindow
  deriving DecidableEq, Repr

/-- What a register reads after reset: a constant, or one of the reset rules of the tables that depend on the variant or
the instance. -/
inductive RstKind where
  | const (n : Nat) | fused | kind | dom | hold | layer | part | region | port
  deriving DecidableEq, Repr

/-- The half of a 64-bit register pair a register is (R426). -/
inductive PairHalf where
  | no | lo | hi
  deriving DecidableEq, Repr

/-- A row of a register table: where the family lies, its two strides and counts, its writable bits by type (R11), its
reset value and its rights. -/
structure RegInfo where
  base : Nat
  s1   : Nat := 0
  n1   : Nat := 1
  s2   : Nat := 0
  n2   : Nat := 1
  rw   : Nat := 0
  w1c  : Nat := 0
  w1s  : Nat := 0
  rc   : Nat := 0
  wo   : Nat := 0
  rst  : RstKind := .const 0
  own  : OwnKind
  wr   : WrKind
  rd   : RdKind
  rwp  : Bool := false
  tw   : Bool := false
  pair : PairHalf := .no
  flat : Bool := false
  view : Bool := false
  deriving DecidableEq, Repr

/-- One register: its family, the instance number `i` and, inside an instance, the index `j`. A DMA channel register
has `i` = the device-wide channel 32e + c (R22); an ADM or SYS window has `i` = the partition, 64 the secure window (R40,
R188); a PWR window has `i` = the sequencer, or 64 + p for partition p's host window (R409). -/
structure Reg where
  fam : Fam
  i : Nat := 0
  j : Nat := 0
  deriving DecidableEq, Repr

end Sys2Proof.Machine
end

