-- ==== Sys2Proof/Machine/RegMap.lean ====
section
/-! DEFINITION. The control-space register map (R21, R22 and the register tables of every chapter): for each register
family its address, strides, writable bits, reset rule and rights; the address of a register and the register at an
address. -/

namespace Sys2Proof.Machine

/-- The row of the register tables for each family. EVR_PIN_RAW and EVR_PIN_FILT show the bits of all 32 pins to every requester: R102
speaks of per-source and per-pin registers, and the spec does not say whether these two are such (the model's choice, log entry 217). -/
def Fam.info : Fam → RegInfo
  | .SYS_CAP0 => { base := 0x20000100, rst := .fused, own := .device, wr := .none, rd := .any }
  | .SYS_CAP1 => { base := 0x20000104, rst := .fused, own := .device, wr := .none, rd := .any }
  | .SYS_CAP2 => { base := 0x20000108, rst := .fused, own := .device, wr := .none, rd := .any }
  | .SYS_CAP3 => { base := 0x2000010c, rst := .fused, own := .device, wr := .none, rd := .any }
  | .SYS_BOOT_STATUS => { base := 0x20000200, rst := .fused, own := .device, wr := .none, rd := .any }
  | .SYS_BOOT_CTRL => { base := 0x20000204, wo := 0xf, own := .device, wr := .secure, rd := .secureOrP0 }
  | .SYS_RST => { base := 0x20000210, wo := 0xff0007ff, own := .device, wr := .any, rd := .secureOrP0 }
  | .SYS_RST_RESULT => { base := 0x20000214, own := .device, wr := .none, rd := .any }
  | .SYS_SRC_PW_ADDR_LO => { base := 0x20002000, s1 := 0x40, n1 := 65, rw := 0xffffffff, own := .window, wr := .window, rd := .window }
  | .SYS_SRC_PW_ADDR_HI => { base := 0x20002004, s1 := 0x40, n1 := 65, rw := 0xffffffff, own := .window, wr := .window, rd := .window }
  | .SYS_SRC_PW_CMD => { base := 0x20002008, s1 := 0x40, n1 := 65, wo := 0xffffffff, own := .window, wr := .window, rd := .window }
  | .SYS_SRC_PW_RESULT => { base := 0x2000200c, s1 := 0x40, n1 := 65, own := .window, wr := .none, rd := .window }
  | .SYS_SRC_PW_SEQ => { base := 0x20002010, s1 := 0x40, n1 := 65, rw := 0xffffffff, own := .window, wr := .window, rd := .window }
  | .SYS_SRC_STATE => { base := 0x20004000, s1 := 0x4, n1 := 1024, own := .slot, wr := .none, rd := .owner }
  | .SYS_SRC_LOST => { base := 0x20005000, s1 := 0x4, n1 := 32, w1c := 0xffffffff, own := .slotBits, wr := .owner, rd := .owner }
  | .SYS_SRC_BACK => { base := 0x20005080, s1 := 0x4, n1 := 32, w1c := 0xffffffff, own := .slotBits, wr := .owner, rd := .owner }
  | .SYS_SRC_EVT => { base := 0x20005100, w1c := 0x3, own := .device, wr := .secureOrP0, rd := .secureOrP0 }
  | .SYS_SRC_STAMP => { base := 0x20008000, s1 := 0x20, n1 := 1024, s2 := 0x4, n2 := 8, own := .slot, wr := .none, rd := .owner, view := true }
  | .TKG_CTRL => { base := 0x20010000, rw := 0xe, rst := .const 0xc, own := .device, wr := .secureOrP0, rd := .secureOrP0 }
  | .TKG_STATUS => { base := 0x20010004, own := .device, wr := .none, rd := .secureOrP0 }
  | .TKG_MASTER_NUM => { base := 0x20010008, rst := .const 0x3c, own := .device, wr := .none, rd := .secureOrP0 }
  | .TKG_MASTER_DEN => { base := 0x2001000c, rst := .const 0x1, own := .device, wr := .none, rd := .secureOrP0 }
  | .TKG_TICK_LO => { base := 0x20010010, own := .device, wr := .none, rd := .secureOrP0, pair := .lo }
  | .TKG_TICK_HI => { base := 0x20010014, own := .device, wr := .none, rd := .secureOrP0, pair := .hi }
  | .TKG_OVR_STAT => { base := 0x20010018, s1 := 0x4, n1 := 2, w1c := 0xffffffff, own := .device, wr := .secureOrP0, rd := .secureOrP0 }
  | .TKG_OVR_LIMIT => { base := 0x20010020, rw := 0xff, rst := .const 0x3, own := .device, wr := .secureOrP0, rd := .secureOrP0 }
  | .TKG_OVR_HALT => { base := 0x20010024, own := .device, wr := .none, rd := .secureOrP0 }
  | .TKG_HEAD_CFG => { base := 0x20010100, s1 := 0x4, n1 := 16, rst := .const 0x1, own := .device, wr := .none, rd := .secureOrP0 }
  | .TKG_AUDIO_CFG => { base := 0x20010140, s1 := 0x4, n1 := 3, own := .device, wr := .none, rd := .secureOrP0 }
  | .TKG_OVR_CNT => { base := 0x20010200, s1 := 0x4, n1 := 64, rw := 0xffff, own := .device, wr := .secureOrP0, rd := .secureOrP0 }
  | .ADM_STATUS => { base := 0x20020000, own := .device, wr := .none, rd := .secureOrP0, view := true }
  | .ADM_EPOCH => { base := 0x20020004, own := .device, wr := .none, rd := .any }
  | .ADM_PL_FLOOR => { base := 0x20020008, rw := 0x7, rst := .const 0x7, own := .device, wr := .secure, rd := .secureOrP0, rwp := true }
  | .ADM_LOAD_SEQ => { base := 0x20020800, s1 := 0x4, n1 := 64, own := .device, wr := .none, rd := .secureOrP0, view := true }
  | .ADM_LOAD_LE => { base := 0x20020900, s1 := 0x4, n1 := 16, own := .device, wr := .none, rd := .secureOrP0, view := true }
  | .ADM_LOAD_MEM_LO => { base := 0x20020940, own := .device, wr := .none, rd := .secureOrP0, view := true, pair := .lo }
  | .ADM_LOAD_MEM_HI => { base := 0x20020944, own := .device, wr := .none, rd := .secureOrP0, view := true, pair := .hi }
  | .ADM_LOAD_DEC => { base := 0x20020950, s1 := 0x4, n1 := 8, own := .device, wr := .none, rd := .secureOrP0, view := true }
  | .ADM_LOAD_ENC => { base := 0x20020970, s1 := 0x4, n1 := 4, own := .device, wr := .none, rd := .secureOrP0, view := true }
  | .ADM_PW_DESC_LO => { base := 0x20021000, s1 := 0x40, n1 := 65, rw := 0xffffffff, own := .window, wr := .window, rd := .window }
  | .ADM_PW_DESC_HI => { base := 0x20021004, s1 := 0x40, n1 := 65, rw := 0xffffffff, own := .window, wr := .window, rd := .window }
  | .ADM_PW_CMD => { base := 0x20021008, s1 := 0x40, n1 := 65, wo := 0xf, own := .window, wr := .window, rd := .window }
  | .ADM_PW_RESULT => { base := 0x2002100c, s1 := 0x40, n1 := 65, own := .window, wr := .none, rd := .window }
  | .ADM_PW_EXCESS => { base := 0x20021010, s1 := 0x40, n1 := 65, own := .window, wr := .none, rd := .window }
  | .ADM_PW_ID => { base := 0x20021014, s1 := 0x40, n1 := 65, own := .window, wr := .none, rd := .window }
  | .ADM_PW_DRAFT => { base := 0x20021018, s1 := 0x40, n1 := 65, own := .window, wr := .none, rd := .window, view := true }
  | .EVR_TSTAMP => { base := 0x20030000, own := .device, wr := .none, rd := .any, view := true }
  | .EVR_QCNT => { base := 0x20030004, rw := 0xffff, own := .device, wr := .secureOrP0, rd := .secureOrP0 }
  | .EVR_MASK => { base := 0x20030100, s1 := 0x4, n1 := 32, rw := 0xffffffff, own := .evWord, wr := .owner, rd := .any }
  | .EVR_PEND => { base := 0x20030180, s1 := 0x4, n1 := 32, rw := 0xffffffff, own := .evWord, wr := .owner, rd := .any }
  | .EVR_ACTIVE => { base := 0x20030200, s1 := 0x4, n1 := 32, own := .evWord, wr := .none, rd := .any }
  | .EVR_QUAR => { base := 0x20030280, s1 := 0x4, n1 := 32, own := .evWord, wr := .none, rd := .any }
  | .EVR_REARM => { base := 0x20030300, s1 := 0x4, n1 := 32, wo := 0xffffffff, own := .evWord, wr := .owner, rd := .any }
  | .EVR_DONE => { base := 0x20030380, s1 := 0x4, n1 := 32, wo := 0xffffffff, own := .evWord, wr := .owner, rd := .any }
  | .EVR_PIN_CFG => { base := 0x20030400, s1 := 0x4, n1 := 32, rw := 0xff9f, rst := .const 0x200, own := .evPin, wr := .owner, rd := .owner }
  | .EVR_PIN_CHAT => { base := 0x20030480, s1 := 0x4, n1 := 32, rw := 0xffff, own := .evPin, wr := .owner, rd := .owner }
  | .EVR_PIN_RAW => { base := 0x20030500, own := .device, wr := .none, rd := .any }
  | .EVR_PIN_FILT => { base := 0x20030504, own := .device, wr := .none, rd := .any }
  | .EVR_SEQ_STAT => { base := 0x20030600, s1 := 0x4, n1 := 64, own := .seq, wr := .none, rd := .owner, view := true }
  | .EVR_SRC_CFG => { base := 0x20034000, s1 := 0x10, n1 := 1024, rst := .kind, own := .evSrc, wr := .none, rd := .owner }
  | .EVR_SRC_TARGET => { base := 0x20034004, s1 := 0x10, n1 := 1024, own := .evSrc, wr := .none, rd := .owner }
  | .EVR_SRC_STAT => { base := 0x20034008, s1 := 0x10, n1 := 1024, own := .evSrc, wr := .none, rd := .owner }
  | .EVR_SRC_TIME => { base := 0x2003400c, s1 := 0x10, n1 := 1024, own := .evSrc, wr := .none, rd := .owner }
  | .PWR_CFG => { base := 0x20040000, rw := 0xff000001, own := .device, wr := .secure, rd := .secureOrP0, rwp := true }
  | .PWR_STATUS => { base := 0x20040004, w1c := 0x20000000, rst := .const 0x70, own := .device, wr := .secure, rd := .secureOrP0 }
  | .PWR_PL => { base := 0x20040008, rw := 0x77, own := .device, wr := .secureOrP0, rd := .secureOrP0 }
  | .PWR_RETAIN => { base := 0x2004000c, rw := 0x3fffffff, rst := .const 0xc0000000, own := .device, wr := .secure, rd := .secureOrP0 }
  | .PWR_WAKE_EN => { base := 0x20040010, rw := 0xffffffff, own := .device, wr := .secure, rd := .secureOrP0 }
  | .PWR_WAKE_EN2 => { base := 0x20040014, rw := 0x30f, own := .device, wr := .secure, rd := .secureOrP0 }
  | .PWR_WAKE_TIMER => { base := 0x20040018, rw := 0xffffffff, own := .device, wr := .secure, rd := .secureOrP0 }
  | .PWR_THERM => { base := 0x2004001c, rw := 0xff00ffff, rst := .const 0x200766e, own := .device, wr := .secure, rd := .secureOrP0 }
  | .PWR_TEMP => { base := 0x20040020, own := .device, wr := .none, rd := .secureOrP0 }
  | .PWR_EVT => { base := 0x20040024, w1c := 0xff, own := .device, wr := .secureOrP0, rd := .secureOrP0 }
  | .PWR_DOM_STATE => { base := 0x20040040, s1 := 0x4, n1 := 24, rst := .dom, own := .device, wr := .none, rd := .secureOrP0 }
  | .PWR_MODE => { base := 0x20041000, s1 := 0x20, n1 := 128, rw := 0x3, own := .pwrWin, wr := .window, rd := .powerWindow }
  | .PWR_DOM_SEL => { base := 0x20041004, s1 := 0x20, n1 := 128, rw := 0xffffff, own := .pwrWin, wr := .window, rd := .powerWindow }
  | .PWR_DOM_RET => { base := 0x20041008, s1 := 0x20, n1 := 128, rw := 0xffffff, own := .pwrWin, wr := .window, rd := .powerWindow }
  | .PWR_DOM_OFF => { base := 0x2004100c, s1 := 0x20, n1 := 128, rw := 0xffffff, own := .pwrWin, wr := .window, rd := .powerWindow }
  | .PWR_REQ_RESULT => { base := 0x20041010, s1 := 0x20, n1 := 128, own := .pwrWin, wr := .none, rd := .powerWindow }
  | .PWR_DOM_GO => { base := 0x20041814, s1 := 0x20, n1 := 64, wo := 0x1, own := .pwrHost, wr := .window, rd := .powerWindow }
  | .POT_BASE_LO => { base := 0x20050000, rw := 0xffffffff, own := .device, wr := .secure, rd := .secureOrP0, rwp := true }
  | .POT_BASE_HI => { base := 0x20050004, rw := 0xffffffff, own := .device, wr := .secure, rd := .secureOrP0, rwp := true }
  | .POT_EDIT_ADDR_LO => { base := 0x20050010, rw := 0xffffffff, own := .device, wr := .secureOrP0, rd := .secureOrP0 }
  | .POT_EDIT_ADDR_HI => { base := 0x20050014, rw := 0xffffffff, own := .device, wr := .secureOrP0, rd := .secureOrP0 }
  | .POT_EDIT_COUNT => { base := 0x20050018, rw := 0x1ffff, own := .device, wr := .secureOrP0, rd := .secureOrP0 }
  | .POT_EDIT_ENTRY => { base := 0x2005001c, rw := 0xfff80000, own := .device, wr := .secureOrP0, rd := .secureOrP0, rwp := true }
  | .POT_EDIT_STATUS => { base := 0x20050020, wo := 0x1, rst := .const 0x2, own := .device, wr := .any, rd := .secureOrP0 }
  | .POT_FAULT_ADDR_LO => { base := 0x20050030, own := .device, wr := .none, rd := .secureOrP0, pair := .lo }
  | .POT_FAULT_ADDR_HI => { base := 0x20050034, own := .device, wr := .none, rd := .secureOrP0, pair := .hi }
  | .POT_FAULT_INFO => { base := 0x20050038, w1c := 0x80000000, own := .device, wr := .secure, rd := .secureOrP0 }
  | .POT_FAULT_CNT => { base := 0x2005003c, rw := 0xffff, own := .device, wr := .secure, rd := .secureOrP0 }
  | .POT_PAIR_INFO => { base := 0x20050080, own := .device, wr := .none, rd := .secureOrP0 }
  | .POT_PAIR_CNT => { base := 0x20050084, rw := 0xffff, own := .device, wr := .secure, rd := .secureOrP0 }
  | .POT_EVT => { base := 0x20050088, w1c := 0x9, own := .device, wr := .potEvt, rd := .secureOrP0 }
  | .POT_DBG_EN => { base := 0x200500c0, rw := 0xf, own := .device, wr := .secure, rd := .secureOrP0, rwp := true }
  | .PART_DESC_LO => { base := 0x20050100, rw := 0xffffffff, own := .device, wr := .secureOrP0, rd := .secureOrP0 }
  | .PART_DESC_HI => { base := 0x20050104, rw := 0xffffffff, own := .device, wr := .secureOrP0, rd := .secureOrP0 }
  | .PART_CMD => { base := 0x20050108, wo := 0x3f0f, own := .device, wr := .any, rd := .secureOrP0 }
  | .PART_RESULT => { base := 0x2005010c, own := .device, wr := .none, rd := .secureOrP0 }
  | .PART_STATE => { base := 0x20050200, s1 := 0x4, n1 := 64, rst := .part, own := .partState, wr := .none, rd := .owner }
  | .POT_OWN_SEL => { base := 0x20050400, rw := 0xff0007ff, own := .device, wr := .secure, rd := .secureOrP0 }
  | .POT_OWN => { base := 0x20050404, own := .device, wr := .none, rd := .secureOrP0, view := true }
  | .JNL_CFG => { base := 0x20060000, rw := 0x1ffff, rst := .const 0xc000, own := .device, wr := .secure, rd := .secureOrP0 }
  | .JNL_STATUS => { base := 0x20060004, own := .device, wr := .none, rd := .secureOrP0, view := true }
  | .JNL_WSEQ => { base := 0x20060008, own := .device, wr := .none, rd := .secureOrP0 }
  | .JNL_SSEQ => { base := 0x2006000c, own := .device, wr := .none, rd := .secureOrP0 }
  | .JNL_BLOCK_LO => { base := 0x20060010, own := .device, wr := .none, rd := .secureOrP0, pair := .lo }
  | .JNL_BLOCK_HI => { base := 0x20060014, own := .device, wr := .none, rd := .secureOrP0, pair := .hi }
  | .JNL_LOST => { base := 0x20060018, rw := 0xffff, own := .device, wr := .secure, rd := .secureOrP0 }
  | .JNL_EVT => { base := 0x2006001c, w1c := 0xf, own := .device, wr := .secure, rd := .secureOrP0 }
  | .DMC_CH_STATUS => { base := 0x20100000, s1 := 0x1000, n1 := 16, rst := .fused, own := .dramCh, wr := .none, rd := .secureOrP0 }
  | .DMC_CH_CORR => { base := 0x20100004, s1 := 0x1000, n1 := 16, rw := 0xffff, own := .dramCh, wr := .secureOrP0, rd := .secureOrP0 }
  | .DMC_CH_UNCORR => { base := 0x20100008, s1 := 0x1000, n1 := 16, rw := 0xffff, own := .dramCh, wr := .secureOrP0, rd := .secureOrP0 }
  | .DMC_CH_ODECC => { base := 0x2010000c, s1 := 0x1000, n1 := 16, rw := 0xffff, own := .dramCh, wr := .secureOrP0, rd := .secureOrP0 }
  | .DMC_CH_ERR_ADDR_LO => { base := 0x20100010, s1 := 0x1000, n1 := 16, own := .dramCh, wr := .none, rd := .secureOrP0, pair := .lo }
  | .DMC_CH_ERR_ADDR_HI => { base := 0x20100014, s1 := 0x1000, n1 := 16, own := .dramCh, wr := .none, rd := .secureOrP0, pair := .hi }
  | .DMC_CH_ERR_INFO => { base := 0x20100018, s1 := 0x1000, n1 := 16, w1c := 0x80000000, own := .dramCh, wr := .secureOrP0, rd := .secureOrP0 }
  | .DMC_SCRUB_CFG => { base := 0x20110000, rw := 0xfff, rst := .const 0x118, own := .device, wr := .secure, rd := .secureOrP0 }
  | .DMC_RH_THRESHOLD => { base := 0x20110004, rw := 0xffffff, rst := .const 0xa0800, own := .device, wr := .secure, rd := .secureOrP0, rwp := true }
  | .DMC_PD_CFG => { base := 0x20110008, rw := 0x3ffff, rst := .const 0x31410, own := .device, wr := .secureOrP0, rd := .secureOrP0 }
  | .DMC_TRAIN_CFG => { base := 0x2011000c, rw := 0x1ffff, rst := .const 0x10a01, own := .device, wr := .secure, rd := .secureOrP0 }
  | .DMC_ERR_THRESH => { base := 0x20110010, rw := 0xffffffff, rst := .const 0x1000100, own := .device, wr := .secure, rd := .secureOrP0 }
  | .DMC_BG_STAT => { base := 0x20110014, own := .device, wr := .none, rd := .secureOrP0 }
  | .DMC_PORT_CFG => { base := 0x20110100, s1 := 0x4, n1 := 32, rst := .port, own := .device, wr := .none, rd := .secureOrP0, view := true }
  | .DMC_PORT_LATE => { base := 0x20110180, s1 := 0x4, n1 := 32, rw := 0xffff, own := .device, wr := .secureOrP0, rd := .secureOrP0 }
  | .DMC_PORT_TICK => { base := 0x20110200, s1 := 0x4, n1 := 32, own := .device, wr := .none, rd := .secureOrP0 }
  | .DMC_HEAD_TOL => { base := 0x20110300, s1 := 0x4, n1 := 16, rst := .const 0xffffff, own := .head, wr := .none, rd := .owner }
  | .DMC_SS_CORR => { base := 0x20110800, rw := 0xffff, own := .device, wr := .secureOrP0, rd := .secureOrP0 }
  | .DMC_SS_UNCORR => { base := 0x20110804, rw := 0xffff, own := .device, wr := .secureOrP0, rd := .secureOrP0 }
  | .DMC_SS_ERR_ADDR => { base := 0x20110808, own := .device, wr := .none, rd := .secureOrP0 }
  | .DMC_SS_ERR_INFO => { base := 0x2011080c, w1c := 0x80000000, own := .device, wr := .secureOrP0, rd := .secureOrP0 }
  | .DMA_CH_DESC_LO => { base := 0x20200000, s1 := 0x4000, n1 := 4, s2 := 0x100, n2 := 32, rw := 0xffffffff, own := .dma, wr := .owner, rd := .owner, flat := true }
  | .DMA_CH_DESC_HI => { base := 0x20200004, s1 := 0x4000, n1 := 4, s2 := 0x100, n2 := 32, rw := 0xffffffff, own := .dma, wr := .owner, rd := .owner, flat := true }
  | .DMA_CH_CTRL => { base := 0x20200008, s1 := 0x4000, n1 := 4, s2 := 0x100, n2 := 32, wo := 0x3, own := .dma, wr := .owner, rd := .owner, flat := true }
  | .DMA_CH_STATUS => { base := 0x2020000c, s1 := 0x4000, n1 := 4, s2 := 0x100, n2 := 32, w1c := 0x1f0, own := .dma, wr := .owner, rd := .owner, flat := true }
  | .DMA_CH_DONE => { base := 0x20200010, s1 := 0x4000, n1 := 4, s2 := 0x100, n2 := 32, own := .dma, wr := .none, rd := .owner, flat := true }
  | .DMA_CH_ERR => { base := 0x20200014, s1 := 0x4000, n1 := 4, s2 := 0x100, n2 := 32, rw := 0xffff, own := .dma, wr := .owner, rd := .owner, flat := true }
  | .DMA_CH_CUR_LO => { base := 0x20200018, s1 := 0x4000, n1 := 4, s2 := 0x100, n2 := 32, own := .dma, wr := .none, rd := .owner, flat := true, pair := .lo }
  | .DMA_CH_CUR_HI => { base := 0x2020001c, s1 := 0x4000, n1 := 4, s2 := 0x100, n2 := 32, own := .dma, wr := .none, rd := .owner, flat := true, pair := .hi }
  | .DMA_CH_REMAIN => { base := 0x20200020, s1 := 0x4000, n1 := 4, s2 := 0x100, n2 := 32, own := .dma, wr := .none, rd := .owner, flat := true }
  | .DMA_ENG_RUN => { base := 0x20203000, s1 := 0x4000, n1 := 4, own := .device, wr := .none, rd := .secureOrP0, view := true }
  | .CRC_CFG => { base := 0x20300000, s1 := 0x100, n1 := 128, rw := 0xc0ff037f, rst := .const 0x10020, own := .crc, wr := .owner, rd := .owner }
  | .CRC_CTRL => { base := 0x20300004, s1 := 0x100, n1 := 128, wo := 0x3, own := .crc, wr := .owner, rd := .owner }
  | .CRC_STATUS => { base := 0x20300008, s1 := 0x100, n1 := 128, w1c := 0x3e, own := .crc, wr := .owner, rd := .owner }
  | .CRC_ERR_CNT => { base := 0x2030000c, s1 := 0x100, n1 := 128, rw := 0xffff, own := .crc, wr := .owner, rd := .owner }
  | .CRC_POLY_LO => { base := 0x20300010, s1 := 0x100, n1 := 128, rw := 0xffffffff, own := .crc, wr := .owner, rd := .owner, view := true }
  | .CRC_POLY_HI => { base := 0x20300014, s1 := 0x100, n1 := 128, rw := 0xffffffff, own := .crc, wr := .owner, rd := .owner, view := true }
  | .CRC_INIT_LO => { base := 0x20300018, s1 := 0x100, n1 := 128, rw := 0xffffffff, own := .crc, wr := .owner, rd := .owner, view := true }
  | .CRC_INIT_HI => { base := 0x2030001c, s1 := 0x100, n1 := 128, rw := 0xffffffff, own := .crc, wr := .owner, rd := .owner, view := true }
  | .CRC_XOROUT_LO => { base := 0x20300020, s1 := 0x100, n1 := 128, rw := 0xffffffff, own := .crc, wr := .owner, rd := .owner, view := true }
  | .CRC_XOROUT_HI => { base := 0x20300024, s1 := 0x100, n1 := 128, rw := 0xffffffff, own := .crc, wr := .owner, rd := .owner, view := true }
  | .CRC_DATA8 => { base := 0x20300030, s1 := 0x100, n1 := 128, wo := 0xff, own := .crc, wr := .owner, rd := .owner }
  | .CRC_DATA16 => { base := 0x20300034, s1 := 0x100, n1 := 128, wo := 0xffff, own := .crc, wr := .owner, rd := .owner }
  | .CRC_DATA32 => { base := 0x20300038, s1 := 0x100, n1 := 128, wo := 0xffffffff, own := .crc, wr := .owner, rd := .owner }
  | .CRC_RESULT_LO => { base := 0x20300040, s1 := 0x100, n1 := 128, own := .crc, wr := .none, rd := .owner, view := true, pair := .lo }
  | .CRC_RESULT_HI => { base := 0x20300044, s1 := 0x100, n1 := 128, own := .crc, wr := .none, rd := .owner, view := true, pair := .hi }
  | .CRC_ALIVE_RX => { base := 0x20300048, s1 := 0x100, n1 := 128, wo := 0xffff, own := .crc, wr := .owner, rd := .owner }
  | .CRC_ALIVE => { base := 0x2030004c, s1 := 0x100, n1 := 128, own := .crc, wr := .none, rd := .owner }
  | .CRC_RX_LO => { base := 0x20300050, s1 := 0x100, n1 := 128, wo := 0xffffffff, own := .crc, wr := .owner, rd := .owner }
  | .CRC_RX_HI => { base := 0x20300054, s1 := 0x100, n1 := 128, wo := 0xffffffff, own := .crc, wr := .owner, rd := .owner }
  | .CRC_REGION_POS => { base := 0x20300060, s1 := 0x100, n1 := 128, rw := 0x1fff1fff, own := .crc, wr := .owner, rd := .owner }
  | .CRC_REGION_SIZE => { base := 0x20300064, s1 := 0x100, n1 := 128, rw := 0x1fff1fff, own := .crc, wr := .owner, rd := .owner }
  | .CRC_REGION_HEAD => { base := 0x20300068, s1 := 0x100, n1 := 128, rw := 0x10f, own := .crc, wr := .owner, rd := .owner }
  | .CRC_REF0_LO => { base := 0x20300070, s1 := 0x100, n1 := 128, rw := 0xffffffff, own := .crc, wr := .owner, rd := .owner, rwp := true }
  | .CRC_REF0_HI => { base := 0x20300074, s1 := 0x100, n1 := 128, rw := 0xffffffff, own := .crc, wr := .owner, rd := .owner, rwp := true }
  | .CRC_REF1_LO => { base := 0x20300078, s1 := 0x100, n1 := 128, rw := 0xffffffff, own := .crc, wr := .owner, rd := .owner, rwp := true }
  | .CRC_REF1_HI => { base := 0x2030007c, s1 := 0x100, n1 := 128, rw := 0xffffffff, own := .crc, wr := .owner, rd := .owner, rwp := true }
  | .CRC_FRAME => { base := 0x20300080, s1 := 0x100, n1 := 128, own := .crc, wr := .none, rd := .owner }
  | .SEQ_STATUS => { base := 0x20400000, s1 := 0x400, n1 := 64, own := .seq, wr := .none, rd := .owner, view := true }
  | .SEQ_EXC => { base := 0x20400004, s1 := 0x400, n1 := 64, rw := 0xffff0000, own := .seq, wr := .owner, rd := .owner }
  | .SEQ_EXC_PC => { base := 0x20400008, s1 := 0x400, n1 := 64, own := .seq, wr := .none, rd := .owner, view := true }
  | .SEQ_IMAGE_ID => { base := 0x2040000c, s1 := 0x400, n1 := 64, own := .seq, wr := .none, rd := .owner, view := true }
  | .SEQ_LASTCYC => { base := 0x20400010, s1 := 0x400, n1 := 64, own := .seq, wr := .none, rd := .owner }
  | .SEQ_PEAKCYC => { base := 0x20400014, s1 := 0x400, n1 := 64, rw := 0xffffffff, own := .seq, wr := .owner, rd := .owner }
  | .SEQ_MEMERR => { base := 0x20400018, s1 := 0x400, n1 := 64, rw := 0xffff, own := .seq, wr := .owner, rd := .owner }
  | .SEQ_SVC_CFG => { base := 0x20400020, s1 := 0x400, n1 := 64, rw := 0x3, own := .seq, wr := .secure, rd := .owner, rwp := true }
  | .LE_STATUS => { base := 0x20500000, s1 := 0x400, n1 := 64, rst := .fused, own := .le, wr := .none, rd := .owner }
  | .LE_CTRL => { base := 0x20500004, s1 := 0x400, n1 := 64, rw := 0x1, own := .le, wr := .owner, rd := .owner }
  | .LE_FAULT => { base := 0x20500008, s1 := 0x400, n1 := 64, w1c := 0x3, own := .le, wr := .owner, rd := .owner }
  | .LE_LASTCYC => { base := 0x2050000c, s1 := 0x400, n1 := 64, own := .le, wr := .none, rd := .owner }
  | .LE_PEAKCYC => { base := 0x20500010, s1 := 0x400, n1 := 64, rw := 0xffffffff, own := .le, wr := .owner, rd := .owner }
  | .LE_ERR_CNT => { base := 0x20500014, s1 := 0x400, n1 := 64, rw := 0xffff, own := .le, wr := .owner, rd := .owner }
  | .HD_CTRL => { base := 0x20600000, s1 := 0x1000, n1 := 16, rw := 0x1, own := .head, wr := .owner, rd := .owner }
  | .HD_STATUS => { base := 0x20600004, s1 := 0x1000, n1 := 16, rst := .fused, own := .head, wr := .none, rd := .owner }
  | .HD_FRAME => { base := 0x20600008, s1 := 0x1000, n1 := 16, own := .head, wr := .none, rd := .owner }
  | .HD_TIMING_H => { base := 0x2060000c, s1 := 0x1000, n1 := 16, own := .head, wr := .none, rd := .owner }
  | .HD_TIMING_V => { base := 0x20600010, s1 := 0x1000, n1 := 16, own := .head, wr := .none, rd := .owner }
  | .HD_PIXCLK => { base := 0x20600014, s1 := 0x1000, n1 := 16, own := .head, wr := .none, rd := .owner }
  | .HD_HSYNC => { base := 0x20600018, s1 := 0x1000, n1 := 16, rw := 0xbfff3fff, own := .head, wr := .owner, rd := .owner }
  | .HD_VSYNC => { base := 0x2060001c, s1 := 0x1000, n1 := 16, rw := 0x9fff1fff, own := .head, wr := .owner, rd := .owner }
  | .HD_ADAPT => { base := 0x20600020, s1 := 0x1000, n1 := 16, rw := 0xc00003ff, own := .head, wr := .owner, rd := .owner }
  | .HD_ADAPT_GO => { base := 0x20600024, s1 := 0x1000, n1 := 16, wo := 0x1, own := .head, wr := .owner, rd := .owner, tw := true }
  | .HD_LINE_MATCH => { base := 0x20600028, s1 := 0x1000, n1 := 16, rw := 0x80001fff, own := .head, wr := .owner, rd := .owner, tw := true }
  | .HD_OUT => { base := 0x2060002c, s1 := 0x1000, n1 := 16, rw := 0x7f, rst := .const 0x2c, own := .head, wr := .owner, rd := .owner }
  | .HD_QUIET => { base := 0x20600030, s1 := 0x1000, n1 := 16, rw := 0xffff00ff, rst := .const 0x2020010, own := .head, wr := .owner, rd := .owner }
  | .HD_EVT => { base := 0x20600034, s1 := 0x1000, n1 := 16, w1c := 0xff, own := .head, wr := .owner, rd := .owner }
  | .HD_UNDERRUN => { base := 0x20600038, s1 := 0x1000, n1 := 16, rw := 0xffff, own := .head, wr := .owner, rd := .owner }
  | .HD_UNDERRUN_INFO => { base := 0x2060003c, s1 := 0x1000, n1 := 16, own := .head, wr := .none, rd := .owner }
  | .HD_FRESH_STATE => { base := 0x20600600, s1 := 0x1000, n1 := 16, s2 := 0x4, n2 := 4, own := .head, wr := .none, rd := .owner }
  | .HD_RIND_EN => { base := 0x20600610, s1 := 0x1000, n1 := 16, rw := 0xffffffff, rst := .const 0xffffffff, own := .head, wr := .rind, rd := .owner }
  | .HD_FRESH_LABEL => { base := 0x20600614, s1 := 0x1000, n1 := 16, rw := 0x1ffc001, own := .head, wr := .secure, rd := .owner, rwp := true }
  | .HD_FRESH_STATUS => { base := 0x20600618, s1 := 0x1000, n1 := 16, w1c := 0x7, rst := .const 0x8, own := .head, wr := .owner, rd := .owner }
  | .HD_STALE_CNT => { base := 0x2060061c, s1 := 0x1000, n1 := 16, rw := 0xffff, own := .head, wr := .owner, rd := .owner }
  | .HD_LOST_CNT => { base := 0x20600620, s1 := 0x1000, n1 := 16, rw := 0xffff, own := .head, wr := .owner, rd := .owner }
  | .HD_FUTURE_CNT => { base := 0x20600624, s1 := 0x1000, n1 := 16, rw := 0xffff, own := .head, wr := .owner, rd := .owner }
  | .HD_FRESH_AGE => { base := 0x20600680, s1 := 0x1000, n1 := 16, s2 := 0x4, n2 := 32, own := .head, wr := .none, rd := .owner }
  | .HD_COMP_RING => { base := 0x20600700, s1 := 0x1000, n1 := 16, rw := 0x1ffff80, own := .head, wr := .owner, rd := .owner, tw := true }
  | .HD_BGCOLOR => { base := 0x20600704, s1 := 0x1000, n1 := 16, rw := 0x3fffffff, own := .head, wr := .owner, rd := .owner, tw := true }
  | .HD_COMP_STATUS => { base := 0x20600708, s1 := 0x1000, n1 := 16, rw := 0xff0000, w1c := 0x3, own := .head, wr := .owner, rd := .owner }
  | .HD_WHEY_TOTAL_LO => { base := 0x20600710, s1 := 0x1000, n1 := 16, own := .head, wr := .none, rd := .owner, pair := .lo }
  | .HD_WHEY_TOTAL_HI => { base := 0x20600714, s1 := 0x1000, n1 := 16, own := .head, wr := .none, rd := .owner, pair := .hi }
  | .HD_FETCH_TOTAL_LO => { base := 0x20600718, s1 := 0x1000, n1 := 16, own := .head, wr := .none, rd := .owner, pair := .lo }
  | .HD_FETCH_TOTAL_HI => { base := 0x2060071c, s1 := 0x1000, n1 := 16, own := .head, wr := .none, rd := .owner, pair := .hi }
  | .HD_LE_GROUP_LO => { base := 0x20600720, s1 := 0x1000, n1 := 16, own := .head, wr := .none, rd := .owner, pair := .lo }
  | .HD_LE_GROUP_HI => { base := 0x20600724, s1 := 0x1000, n1 := 16, own := .head, wr := .none, rd := .owner, pair := .hi }
  | .LAYER_CTRL => { base := 0x20600800, s1 := 0x1000, n1 := 16, s2 := 0x40, n2 := 32, rw := 0xc1, rst := .layer, own := .layer, wr := .owner, rd := .owner, tw := true }
  | .LAYER_SRC => { base := 0x20600804, s1 := 0x1000, n1 := 16, s2 := 0x40, n2 := 32, own := .layer, wr := .none, rd := .owner }
  | .LAYER_CROP_POS => { base := 0x20600808, s1 := 0x1000, n1 := 16, s2 := 0x40, n2 := 32, rw := 0x1fff1fff, own := .layer, wr := .owner, rd := .owner, tw := true }
  | .LAYER_CROP_SIZE => { base := 0x2060080c, s1 := 0x1000, n1 := 16, s2 := 0x40, n2 := 32, rw := 0x3fff3fff, own := .layer, wr := .owner, rd := .owner, tw := true }
  | .LAYER_DST_POS => { base := 0x20600810, s1 := 0x1000, n1 := 16, s2 := 0x40, n2 := 32, rw := 0x3fff3fff, own := .layer, wr := .owner, rd := .owner, tw := true }
  | .LAYER_DST_SIZE => { base := 0x20600814, s1 := 0x1000, n1 := 16, s2 := 0x40, n2 := 32, rw := 0x3fff3fff, own := .layer, wr := .owner, rd := .owner, tw := true }
  | .LAYER_PITCH0 => { base := 0x20600818, s1 := 0x1000, n1 := 16, s2 := 0x40, n2 := 32, rw := 0xfffff, own := .layer, wr := .owner, rd := .owner, tw := true }
  | .LAYER_PITCH1 => { base := 0x2060081c, s1 := 0x1000, n1 := 16, s2 := 0x40, n2 := 32, rw := 0xfffff, own := .layer, wr := .owner, rd := .owner, tw := true }
  | .LAYER_PLANE1 => { base := 0x20600820, s1 := 0x1000, n1 := 16, s2 := 0x40, n2 := 32, rw := 0xffffffff, own := .layer, wr := .owner, rd := .owner, tw := true }
  | .LAYER_PLANE2 => { base := 0x20600824, s1 := 0x1000, n1 := 16, s2 := 0x40, n2 := 32, rw := 0xffffffff, own := .layer, wr := .owner, rd := .owner, tw := true }
  | .LAYER_BLEND => { base := 0x20600828, s1 := 0x1000, n1 := 16, s2 := 0x40, n2 := 32, rw := 0x3ff, rst := .const 0xff, own := .layer, wr := .owner, rd := .owner, tw := true }
  | .LAYER_CSC => { base := 0x2060082c, s1 := 0x1000, n1 := 16, s2 := 0x40, n2 := 32, rw := 0x37, rst := .const 0x1, own := .layer, wr := .owner, rd := .owner, tw := true }
  | .LAYER_OPQ_POS => { base := 0x20600830, s1 := 0x1000, n1 := 16, s2 := 0x40, n2 := 32, rw := 0x1fff1fff, own := .layer, wr := .owner, rd := .owner, tw := true }
  | .LAYER_OPQ_SIZE => { base := 0x20600834, s1 := 0x1000, n1 := 16, s2 := 0x40, n2 := 32, rw := 0x3fff3fff, own := .layer, wr := .owner, rd := .owner, tw := true }
  | .LAYER_FETCH => { base := 0x20600838, s1 := 0x1000, n1 := 16, s2 := 0x40, n2 := 32, own := .layer, wr := .none, rd := .owner }
  | .LAYER_WHEY => { base := 0x2060083c, s1 := 0x1000, n1 := 16, s2 := 0x40, n2 := 32, own := .layer, wr := .none, rd := .owner }
  | .DPT_CTRL => { base := 0x20700000, s1 := 0x1000, n1 := 8, rw := 0x79, rst := .const 0x8, own := .dpt, wr := .owner, rd := .owner }
  | .DPT_LINK => { base := 0x20700004, s1 := 0x1000, n1 := 8, rw := 0xffff, rst := .const 0xca, own := .dpt, wr := .owner, rd := .owner }
  | .DPT_STATUS => { base := 0x20700008, s1 := 0x1000, n1 := 8, w1c := 0x1f, rst := .fused, own := .dpt, wr := .owner, rd := .owner }
  | .DPT_STREAM => { base := 0x20700010, s1 := 0x1000, n1 := 8, s2 := 0x4, n2 := 2, rw := 0xf3ff1fff, rst := .const 0xc00008, own := .dpt, wr := .owner, rd := .owner }
  | .DPT_SINKCRC => { base := 0x20700020, s1 := 0x1000, n1 := 8, rw := 0x80ff0fff, rst := .const 0x10403, own := .dpt, wr := .owner, rd := .owner }
  | .DPT_SINKCRC_STAT => { base := 0x20700024, s1 := 0x1000, n1 := 8, rw := 0xffffff00, own := .dpt, wr := .owner, rd := .owner }
  | .DPT_AUX_CMD => { base := 0x20700040, s1 := 0x1000, n1 := 8, wo := 0xffffffff, own := .dpt, wr := .owner, rd := .owner }
  | .DPT_AUX_STATUS => { base := 0x20700044, s1 := 0x1000, n1 := 8, own := .dpt, wr := .none, rd := .owner }
  | .DPT_AUX_DATA => { base := 0x20700050, s1 := 0x1000, n1 := 8, s2 := 0x4, n2 := 4, rw := 0xffffffff, own := .dpt, wr := .owner, rd := .owner }
  | .VDE_STATUS => { base := 0x20800000, s1 := 0x2000, n1 := 8, rst := .fused, own := .vde, wr := .none, rd := .any }
  | .VDE_EVT => { base := 0x20800100, s1 := 0x2000, n1 := 8, s2 := 0x4, n2 := 8, w1c := 0xffffffff, own := .vdeCtxBits, wr := .owner, rd := .any }
  | .VDE_CTX_STATE => { base := 0x20801000, s1 := 0x2000, n1 := 8, s2 := 0x80, n2 := 32, own := .vdeCtx, wr := .none, rd := .owner }
  | .VDE_CTX_CTRL => { base := 0x20801004, s1 := 0x2000, n1 := 8, s2 := 0x80, n2 := 32, wo := 0x1, own := .vdeCtx, wr := .owner, rd := .owner }
  | .VDE_CTX_CFG => { base := 0x20801008, s1 := 0x2000, n1 := 8, s2 := 0x80, n2 := 32, rw := 0x3, rst := .const 0x2, own := .vdeCtx, wr := .owner, rd := .owner }
  | .VDE_CTX_RATE => { base := 0x2080100c, s1 := 0x2000, n1 := 8, s2 := 0x80, n2 := 32, rw := 0xffffff, own := .vdeCtx, wr := .owner, rd := .owner, tw := true }
  | .VDE_CTX_WPTR => { base := 0x20801010, s1 := 0x2000, n1 := 8, s2 := 0x80, n2 := 32, rw := 0xffffffff, own := .vdeCtx, wr := .owner, rd := .owner }
  | .VDE_CTX_RPTR => { base := 0x20801014, s1 := 0x2000, n1 := 8, s2 := 0x80, n2 := 32, own := .vdeCtx, wr := .none, rd := .owner }
  | .VDE_CTX_PICS => { base := 0x20801018, s1 := 0x2000, n1 := 8, s2 := 0x80, n2 := 32, own := .vdeCtx, wr := .none, rd := .owner }
  | .VDE_CTX_CONC => { base := 0x2080101c, s1 := 0x2000, n1 := 8, s2 := 0x80, n2 := 32, rw := 0xffff, own := .vdeCtx, wr := .owner, rd := .owner }
  | .VDE_CTX_LOST => { base := 0x20801020, s1 := 0x2000, n1 := 8, s2 := 0x80, n2 := 32, rw := 0xffff, own := .vdeCtx, wr := .owner, rd := .owner }
  | .VDE_CTX_LATE => { base := 0x20801024, s1 := 0x2000, n1 := 8, s2 := 0x80, n2 := 32, rw := 0xffff, own := .vdeCtx, wr := .owner, rd := .owner }
  | .VEE_STATUS => { base := 0x20900000, s1 := 0x2000, n1 := 4, rst := .fused, own := .vee, wr := .none, rd := .any }
  | .VEE_EVT => { base := 0x20900004, s1 := 0x2000, n1 := 4, w1c := 0xf, own := .vee, wr := .owner, rd := .owner }
  | .VEE_STR_STATE => { base := 0x20901000, s1 := 0x2000, n1 := 4, s2 := 0x80, n2 := 8, own := .veeStr, wr := .none, rd := .owner }
  | .VEE_STR_PICS => { base := 0x20901004, s1 := 0x2000, n1 := 4, s2 := 0x80, n2 := 8, own := .veeStr, wr := .none, rd := .owner }
  | .VEE_STR_FALLBACK => { base := 0x20901008, s1 := 0x2000, n1 := 4, s2 := 0x80, n2 := 8, rw := 0xffff, own := .veeStr, wr := .owner, rd := .owner }
  | .VEE_STR_DROP => { base := 0x2090100c, s1 := 0x2000, n1 := 4, s2 := 0x80, n2 := 8, rw := 0xffff, own := .veeStr, wr := .owner, rd := .owner }
  | .VEE_STR_BYTES => { base := 0x20901010, s1 := 0x2000, n1 := 4, s2 := 0x80, n2 := 8, own := .veeStr, wr := .none, rd := .owner }
  | .WIT_CTRL => { base := 0x20a00000, rw := 0xe000ffff, rst := .const 0x60000fa0, own := .device, wr := .secure, rd := .secureOrP0 }
  | .WIT_STATUS => { base := 0x20a00004, own := .device, wr := .none, rd := .secureOrP0 }
  | .WIT_STAGE_BASE_LO => { base := 0x20a00008, rw := 0xfffff000, own := .device, wr := .secure, rd := .secureOrP0 }
  | .WIT_STAGE_BASE_HI => { base := 0x20a0000c, rw := 0xffffffff, own := .device, wr := .secure, rd := .secureOrP0 }
  | .WIT_STAGE_SIZE => { base := 0x20a00010, rw := 0xfff, own := .device, wr := .secure, rd := .secureOrP0 }
  | .WIT_AUDIO => { base := 0x20a00014, rw := 0x8000073f, own := .device, wr := .secure, rd := .secureOrP0 }
  | .WIT_GAP_CNT => { base := 0x20a00018, rw := 0xffff, own := .device, wr := .secure, rd := .secureOrP0 }
  | .WIT_HOLD_MAX => { base := 0x20a0001c, rw := 0x7f, rst := .const 0x32, own := .device, wr := .secure, rd := .secureOrP0 }
  | .WIT_SEG_LO => { base := 0x20a00040, s1 := 0x8, n1 := 64, own := .device, wr := .none, rd := .secureOrP0, pair := .lo }
  | .WIT_SEG_HI => { base := 0x20a00044, s1 := 0x8, n1 := 64, own := .device, wr := .none, rd := .secureOrP0, pair := .hi }
  | .WIT_HOLD_FIRST_LO => { base := 0x20a00400, s1 := 0x20, n1 := 1024, rw := 0xffffffff, own := .hold, wr := .owner, rd := .owner }
  | .WIT_HOLD_FIRST_HI => { base := 0x20a00404, s1 := 0x20, n1 := 1024, rw := 0xffffffff, own := .hold, wr := .owner, rd := .owner }
  | .WIT_HOLD_LAST_LO => { base := 0x20a00408, s1 := 0x20, n1 := 1024, rw := 0xffffffff, own := .hold, wr := .owner, rd := .owner }
  | .WIT_HOLD_LAST_HI => { base := 0x20a0040c, s1 := 0x20, n1 := 1024, rw := 0xffffffff, own := .hold, wr := .owner, rd := .owner }
  | .WIT_HOLD_CTL => { base := 0x20a00410, s1 := 0x20, n1 := 1024, w1s := 0xc0000000, rst := .hold, own := .hold, wr := .owner, rd := .owner }
  | .CAVE_CTRL => { base := 0x20b00000, rw := 0xff000d, rst := .const 0xa0000, own := .device, wr := .secure, rd := .secureOrP0 }
  | .CAVE_STATUS => { base := 0x20b00004, own := .device, wr := .none, rd := .secureOrP0 }
  | .CAVE_WRATE => { base := 0x20b00008, own := .device, wr := .none, rd := .secureOrP0 }
  | .CAVE_NS0_GIB => { base := 0x20b0000c, rw := 0xffffffff, own := .device, wr := .secure, rd := .secureOrP0 }
  | .CAVE_JNL_GIB => { base := 0x20b00010, rw := 0xffffffff, rst := .const 0x10, own := .device, wr := .secure, rd := .secureOrP0 }
  | .CAVE_FREE_GIB => { base := 0x20b00014, own := .device, wr := .none, rd := .secureOrP0, view := true }
  | .CAVE_PATROL => { base := 0x20b00018, rw := 0xffffffff, rst := .const 0x73c111c, own := .device, wr := .secure, rd := .secureOrP0 }
  | .CAVE_WEAR => { base := 0x20b0001c, rw := 0xffffffff, rst := .const 0xc8, own := .device, wr := .secure, rd := .secureOrP0 }
  | .CAVE_EVT => { base := 0x20b00020, w1c := 0x1fff, own := .device, wr := .secure, rd := .secureOrP0 }
  | .CAVE_LOSS_CNT => { base := 0x20b00024, rw := 0xffff, own := .device, wr := .secure, rd := .secureOrP0 }
  | .CAVE_RD_LIMIT => { base := 0x20b00028, rw := 0xffffffff, rst := .const 0x4e20, own := .device, wr := .secure, rd := .secureOrP0 }
  | .CAVE_ERASE_AVG => { base := 0x20b0002c, own := .device, wr := .none, rd := .secureOrP0 }
  | .CAVE_MEMBER_CMD => { base := 0x20b00030, wo := 0xf000001f, own := .device, wr := .secure, rd := .secureOrP0 }
  | .CAVE_MEMBER_RESULT => { base := 0x20b00034, own := .device, wr := .none, rd := .secureOrP0 }
  | .CAVE_REBUILD => { base := 0x20b00038, own := .device, wr := .none, rd := .secureOrP0 }
  | .CAVE_CH_STATUS => { base := 0x20b00100, s1 := 0x4, n1 := 4, rst := .const 0x80000000, own := .device, wr := .none, rd := .secureOrP0 }
  | .CAVE_MEMBER_CFG => { base := 0x20b00200, s1 := 0x8, n1 := 32, rw := 0x800003ff, own := .device, wr := .secure, rd := .secureOrP0 }
  | .CAVE_MEMBER_STATUS => { base := 0x20b00204, s1 := 0x8, n1 := 32, own := .device, wr := .none, rd := .secureOrP0 }
  | .AUD_EVT => { base := 0x20c00004, w1c := 0x1fffff, own := .audEvt, wr := .owner, rd := .any }
  | .AUD_POS => { base := 0x20c00010, s1 := 0x4, n1 := 3, own := .device, wr := .none, rd := .any }
  | .AUD_DOM => { base := 0x20c00020, s1 := 0x4, n1 := 3, own := .device, wr := .none, rd := .any }
  | .AUD_TDM_CFG => { base := 0x20c00100, s1 := 0x20, n1 := 8, rw := 0xff9f0000, rst := .const 0x44020000, own := .tdm, wr := .owner, rd := .owner }
  | .AUD_TDM_STATUS => { base := 0x20c00104, s1 := 0x20, n1 := 8, rw := 0xffff, own := .tdm, wr := .owner, rd := .owner }
  | .AUD_TDM_TX => { base := 0x20c00110, s1 := 0x20, n1 := 8, s2 := 0x4, n2 := 4, rw := 0xffffffff, rst := .const 0xffffffff, own := .tdm, wr := .owner, rd := .owner }
  | .AUD_BR_STATUS => { base := 0x20c00200, s1 := 0x20, n1 := 4, own := .bridge, wr := .none, rd := .owner }
  | .AUD_BR_SEL => { base := 0x20c00210, s1 := 0x20, n1 := 4, s2 := 0x4, n2 := 4, rw := 0xffffffff, own := .bridge, wr := .owner, rd := .owner }
  | .AUD_RING_CFG => { base := 0x20c00300, s1 := 0x10, n1 := 8, rw := 0xffff00ff, own := .ring, wr := .owner, rd := .owner }
  | .AUD_RING_BASE => { base := 0x20c00304, s1 := 0x10, n1 := 8, rw := 0x1ffff80, own := .ring, wr := .owner, rd := .owner }
  | .AUD_RING_WPTR => { base := 0x20c00308, s1 := 0x10, n1 := 8, rw := 0xff, own := .ring, wr := .owner, rd := .owner }
  | .AUD_RING_RPTR => { base := 0x20c0030c, s1 := 0x10, n1 := 8, rw := 0xff, own := .ring, wr := .owner, rd := .owner }
  | .AUD_IN_CFG => { base := 0x20c00800, s1 := 0x4, n1 := 128, rw := 0xf0003f1f, own := .mixIn, wr := .owner, rd := .owner }
  | .AUD_OUT_GAIN => { base := 0x20c00a00, s1 := 0x4, n1 := 64, rw := 0x3ffff, own := .mixOut, wr := .owner, rd := .owner, tw := true }
  | .AUD_OUT_SIL => { base := 0x20c00b00, s1 := 0x4, n1 := 64, rw := 0xcfffffff, rst := .const 0x3c00c8, own := .mixOut, wr := .owner, rd := .owner }
  | .AUD_METER => { base := 0x20c00c00, s1 := 0x4, n1 := 64, rc := 0xffff0000, own := .mixOut, wr := .none, rd := .owner }
  | .AUD_OUT_STATUS => { base := 0x20c00d00, s1 := 0x4, n1 := 64, rw := 0xffff, own := .mixOut, wr := .owner, rd := .owner }
  | .AUD_AMPEN => { base := 0x20c00e00, s1 := 0x4, n1 := 16, rw := 0x8000ffff, own := .device, wr := .secureOrP0, rd := .secureOrP0 }
  | .AUD_CHIME_CFG => { base := 0x20c00f00, s1 := 0x10, n1 := 4, rw := 0xffffffff, rst := .const 0x80, own := .device, wr := .secure, rd := .secureOrP0, rwp := true }
  | .AUD_CHIME_SRC => { base := 0x20c00f04, s1 := 0x10, n1 := 4, rw := 0x1ffff80, own := .device, wr := .secure, rd := .secureOrP0, rwp := true }
  | .AUD_CHIME_GO => { base := 0x20c00f08, s1 := 0x10, n1 := 4, w1s := 0x3, own := .device, wr := .secure, rd := .secureOrP0 }
  | .AUD_NS_CFG => { base := 0x20c01000, s1 := 0x200, n1 := 4, s2 := 0x20, n2 := 16, rw := 0xf7ffffff, own := .netAudio, wr := .owner, rd := .owner }
  | .AUD_NS_STATUS => { base := 0x20c01004, s1 := 0x200, n1 := 4, s2 := 0x20, n2 := 16, rw := 0xffff, own := .netAudio, wr := .owner, rd := .owner }
  | .AUD_NS_SSRC => { base := 0x20c01008, s1 := 0x200, n1 := 4, s2 := 0x20, n2 := 16, rw := 0xffffffff, own := .netAudio, wr := .owner, rd := .owner }
  | .AUD_NS_UDP => { base := 0x20c0100c, s1 := 0x200, n1 := 4, s2 := 0x20, n2 := 16, rw := 0xffffff, own := .netAudio, wr := .owner, rd := .owner }
  | .AUD_NS_ADDR0 => { base := 0x20c01010, s1 := 0x200, n1 := 4, s2 := 0x20, n2 := 16, rw := 0xffffffff, own := .netAudio, wr := .owner, rd := .owner }
  | .AUD_NS_ADDR1 => { base := 0x20c01014, s1 := 0x200, n1 := 4, s2 := 0x20, n2 := 16, rw := 0xffffffff, own := .netAudio, wr := .owner, rd := .owner }
  | .AUD_NS_ADDR2 => { base := 0x20c01018, s1 := 0x200, n1 := 4, s2 := 0x20, n2 := 16, rw := 0xffffffff, own := .netAudio, wr := .owner, rd := .owner }
  | .AUD_NS_ADDR3 => { base := 0x20c0101c, s1 := 0x200, n1 := 4, s2 := 0x20, n2 := 16, rw := 0xffffffff, own := .netAudio, wr := .owner, rd := .owner }
  | .AUD_XP => { base := 0x20c08000, s1 := 0x200, n1 := 64, s2 := 0x4, n2 := 128, rw := 0x1ffff, own := .mixOut, wr := .owner, rd := .owner, tw := true }
  | .TCH_STATUS => { base := 0x20d00000, s1 := 0x2000, n1 := 8, rw := 0xffffff, w1c := 0xe000000, rst := .fused, own := .touch, wr := .owner, rd := .owner }
  | .TCH_CTRL => { base := 0x20d00004, s1 := 0x2000, n1 := 8, wo := 0x7, own := .touch, wr := .owner, rd := .owner }
  | .TCH_CFG => { base := 0x20d00008, s1 := 0x2000, n1 := 8, rw := 0xfcf80fff, rst := .const 0x80000078, own := .touch, wr := .owner, rd := .owner }
  | .TCH_GEOM => { base := 0x20d0000c, s1 := 0x2000, n1 := 8, rw := 0x3f3f, own := .touch, wr := .owner, rd := .owner }
  | .TCH_PULSE => { base := 0x20d00010, s1 := 0x2000, n1 := 8, rw := 0xff0fff, own := .touch, wr := .owner, rd := .owner }
  | .TCH_THR => { base := 0x20d00014, s1 := 0x2000, n1 := 8, rw := 0xffffffff, own := .touch, wr := .owner, rd := .owner }
  | .TCH_TRACK => { base := 0x20d00018, s1 := 0x2000, n1 := 8, rw := 0xffffffff, own := .touch, wr := .owner, rd := .owner }
  | .TCH_HOLD => { base := 0x20d0001c, s1 := 0x2000, n1 := 8, rw := 0xffff, rst := .const 0x258, own := .touch, wr := .owner, rd := .owner }
  | .TCH_XMAP => { base := 0x20d00020, s1 := 0x2000, n1 := 8, rw := 0xffffffff, own := .touch, wr := .owner, rd := .owner }
  | .TCH_YMAP => { base := 0x20d00024, s1 := 0x2000, n1 := 8, rw := 0xffffffff, own := .touch, wr := .owner, rd := .owner }
  | .TCH_RING_BASE => { base := 0x20d00028, s1 := 0x2000, n1 := 8, rw := 0x1ffff80, own := .touch, wr := .owner, rd := .owner }
  | .TCH_RING_CFG => { base := 0x20d0002c, s1 := 0x2000, n1 := 8, rw := 0xff, own := .touch, wr := .owner, rd := .owner }
  | .TCH_RING_WPTR => { base := 0x20d00030, s1 := 0x2000, n1 := 8, own := .touch, wr := .none, rd := .owner }
  | .TCH_RING_RPTR => { base := 0x20d00034, s1 := 0x2000, n1 := 8, rw := 0xff, own := .touch, wr := .owner, rd := .owner }
  | .TCH_EVT => { base := 0x20d00038, s1 := 0x2000, n1 := 8, w1c := 0xf, own := .touch, wr := .owner, rd := .owner }
  | .TCH_ERR_CNT => { base := 0x20d0003c, s1 := 0x2000, n1 := 8, rw := 0xffff, own := .touch, wr := .owner, rd := .owner }
  | .TCH_ST_LIM => { base := 0x20d00040, s1 := 0x2000, n1 := 8, rw := 0xffffffff, own := .touch, wr := .owner, rd := .owner }
  | .TCH_ST_RES => { base := 0x20d00044, s1 := 0x2000, n1 := 8, s2 := 0x4, n2 := 6, own := .touch, wr := .none, rd := .owner }
  | .TCH_WAKE => { base := 0x20d00060, s1 := 0x2000, n1 := 8, rw := 0xffffffff, rst := .const 0x8644b32, own := .touch, wr := .owner, rd := .owner }
  | .TCH_TSL_CMD => { base := 0x20d00070, s1 := 0x2000, n1 := 8, wo := 0xf300ffff, own := .touch, wr := .owner, rd := .owner }
  | .TCH_TSL_DATA => { base := 0x20d00074, s1 := 0x2000, n1 := 8, rw := 0xffffffff, own := .touch, wr := .owner, rd := .owner }
  | .TCH_TSL_STATUS => { base := 0x20d00078, s1 := 0x2000, n1 := 8, own := .touch, wr := .none, rd := .owner }
  | .TCH_SELF => { base := 0x20d00600, s1 := 0x2000, n1 := 8, s2 := 0x4, n2 := 48, own := .touch, wr := .none, rd := .owner }
  | .TCH_RAW => { base := 0x20d00800, s1 := 0x2000, n1 := 8, s2 := 0x4, n2 := 768, own := .touch, wr := .none, rd := .owner }
  | .TCH_BASE => { base := 0x20d01400, s1 := 0x2000, n1 := 8, s2 := 0x4, n2 := 768, own := .touch, wr := .none, rd := .owner, view := true }
  | .HPT_STATUS => { base := 0x20e00000, s1 := 0x400, n1 := 8, rw := 0xff00, w1c := 0x1c, rst := .fused, own := .haptic, wr := .owner, rd := .owner }
  | .HPT_CTRL => { base := 0x20e00004, s1 := 0x400, n1 := 8, rw := 0x3, own := .haptic, wr := .owner, rd := .owner }
  | .HPT_PWM => { base := 0x20e00008, s1 := 0x400, n1 := 8, rw := 0xffff00ff, rst := .const 0x28640032, own := .haptic, wr := .owner, rd := .owner }
  | .HPT_LIM => { base := 0x20e0000c, s1 := 0x400, n1 := 8, rw := 0xffffffff, rst := .const 0xc0800804, own := .haptic, wr := .owner, rd := .owner }
  | .HPT_LIM2 => { base := 0x20e00010, s1 := 0x400, n1 := 8, rw := 0xffffffff, own := .haptic, wr := .owner, rd := .owner }
  | .HPT_PZ_GAIN => { base := 0x20e00014, s1 := 0x400, n1 := 8, rw := 0x1ff, rst := .const 0x100, own := .haptic, wr := .owner, rd := .owner }
  | .HPT_RCOIL => { base := 0x20e00018, s1 := 0x400, n1 := 8, own := .haptic, wr := .none, rd := .owner }
  | .HPT_EVT => { base := 0x20e0001c, s1 := 0x400, n1 := 8, w1c := 0x3, own := .haptic, wr := .owner, rd := .owner }
  | .HPT_GO => { base := 0x20e00020, s1 := 0x400, n1 := 8, wo := 0x8000000f, own := .haptic, wr := .owner, rd := .owner, tw := true }
  | .HPT_ERR_CNT => { base := 0x20e00024, s1 := 0x400, n1 := 8, rw := 0xffff, own := .haptic, wr := .owner, rd := .owner }
  | .HPT_SENSE => { base := 0x20e00028, s1 := 0x400, n1 := 8, own := .haptic, wr := .none, rd := .owner, view := true }
  | .HPT_EFF => { base := 0x20e00100, s1 := 0x400, n1 := 8, s2 := 0x4, n2 := 64, rw := 0xffffffff, own := .haptic, wr := .owner, rd := .owner }
  | .HPT_REGION => { base := 0x20e00200, s1 := 0x400, n1 := 8, s2 := 0x4, n2 := 32, rw := 0xffffffff, rst := .region, own := .haptic, wr := .owner, rd := .owner }
  | .CSI_CTRL => { base := 0x20f00000, s1 := 0x800, n1 := 8, rw := 0xd, rst := .const 0x8, own := .csi, wr := .owner, rd := .owner }
  | .CSI_STATUS => { base := 0x20f00004, s1 := 0x800, n1 := 8, w1c := 0x2, own := .csi, wr := .owner, rd := .owner }
  | .CSI_ERR => { base := 0x20f00008, s1 := 0x800, n1 := 8, w1c := 0x3f, own := .csi, wr := .owner, rd := .owner }
  | .CSI_CAPOFS => { base := 0x20f0000c, s1 := 0x800, n1 := 8, rw := 0xffff, own := .csi, wr := .owner, rd := .owner }
  | .CSI_TRIG => { base := 0x20f00010, s1 := 0x800, n1 := 8, rw := 0xffffe0ff, rst := .const 0xa, own := .csi, wr := .owner, rd := .owner }
  | .CSI_CNT => { base := 0x20f00020, s1 := 0x800, n1 := 8, s2 := 0x4, n2 := 6, rw := 0xffff, own := .csi, wr := .owner, rd := .owner }
  | .NET_PORT_CTRL => { base := 0x21000000, s1 := 0x4000, n1 := 4, rw := 0x7, rst := .const 0x4, own := .net, wr := .secureOrP0, rd := .secureOrP0 }
  | .NET_PORT_STATUS => { base := 0x21000004, s1 := 0x4000, n1 := 4, w1c := 0x2, own := .net, wr := .secureOrP0, rd := .secureOrP0 }
  | .NET_STREAM_LOSS => { base := 0x21000010, s1 := 0x4000, n1 := 4, rw := 0xffff, own := .net, wr := .secureOrP0, rd := .secureOrP0 }
  | .RGL_PORT_CTRL => { base := 0x21100000, s1 := 0x1000, n1 := 2, rw := 0x1, own := .rogar, wr := .secure, rd := .secureOrP0 }
  | .RGL_PORT_STATUS => { base := 0x21100004, s1 := 0x1000, n1 := 2, rst := .fused, own := .rogar, wr := .none, rd := .secureOrP0 }
  | .RGL_PORT_CRCERR => { base := 0x21100008, s1 := 0x1000, n1 := 2, rw := 0xffff, own := .rogar, wr := .secureOrP0, rd := .secureOrP0 }
  | .RGL_PORT_RES => { base := 0x2110000c, s1 := 0x1000, n1 := 2, own := .rogar, wr := .none, rd := .secureOrP0 }
  | .RGL_ID => { base := 0x21100800, rw := 0x1ffff, own := .wheel, wr := .secure, rd := .secureOrP0, rwp := true }
  | .RGL_WHEEL_STATUS => { base := 0x21100804, own := .wheel, wr := .none, rd := .secureOrP0 }
  | .RGL_EVT => { base := 0x21100808, w1c := 0xffff, own := .wheel, wr := .secureOrP0, rd := .secureOrP0 }
  | .RGL_TOPO => { base := 0x21100900, s1 := 0x4, n1 := 128, own := .wheel, wr := .none, rd := .secureOrP0 }
  | .RGL_EXP_CTRL => { base := 0x21100c00, s1 := 0x20, n1 := 16, rw := 0x8fff03ff, own := .exp, wr := .owner, rd := .owner }
  | .RGL_EXP_RECT_POS => { base := 0x21100c04, s1 := 0x20, n1 := 16, rw := 0x1fff1fff, own := .exp, wr := .owner, rd := .owner }
  | .RGL_EXP_RECT_SIZE => { base := 0x21100c08, s1 := 0x20, n1 := 16, rw := 0x3fff3fff, own := .exp, wr := .owner, rd := .owner }
  | .RGL_EXP_DST => { base := 0x21100c0c, s1 := 0x20, n1 := 16, rw := 0x1fff1fff, own := .exp, wr := .owner, rd := .owner }
  | .RGL_EXP_RES => { base := 0x21100c10, s1 := 0x20, n1 := 16, own := .exp, wr := .none, rd := .owner }
  | .RGL_IMP_CFG => { base := 0x21100e00, s1 := 0x10, n1 := 16, rw := 0x800003ff, own := .imp, wr := .owner, rd := .owner }
  | .RGL_IMP_BASE_LO => { base := 0x21100e04, s1 := 0x10, n1 := 16, rw := 0xfffff000, own := .imp, wr := .owner, rd := .owner }
  | .RGL_IMP_BASE_HI => { base := 0x21100e08, s1 := 0x10, n1 := 16, rw := 0xffffffff, own := .imp, wr := .owner, rd := .owner }
  | .RGL_IMP_SLOT => { base := 0x21100e0c, s1 := 0x10, n1 := 16, rw := 0xfffff000, own := .imp, wr := .owner, rd := .owner }
  | .RGL_IMP_MISS => { base := 0x21100f00, s1 := 0x4, n1 := 16, rw := 0xffff, own := .imp, wr := .owner, rd := .owner }
  | .HOST_LINK => { base := 0x21200000, own := .device, wr := .none, rd := .secureOrP0 }
  | .HOST_EVT => { base := 0x21200004, w1c := 0xffff, own := .device, wr := .secureOrP0, rd := .secureOrP0 }
  | .HOST_FN => { base := 0x21200100, s1 := 0x4, n1 := 64, rw := 0x80000000, own := .fn, wr := .p0, rd := .owner }
  | .HOST_SQ_BASE_LO => { base := 0x21204000, s1 := 0x100, n1 := 64, s2 := 0x40, n2 := 4, rw := 0xffffff80, own := .fn, wr := .owner, rd := .owner }
  | .HOST_SQ_BASE_HI => { base := 0x21204004, s1 := 0x100, n1 := 64, s2 := 0x40, n2 := 4, rw := 0xffffffff, own := .fn, wr := .owner, rd := .owner }
  | .HOST_CQ_BASE_LO => { base := 0x21204008, s1 := 0x100, n1 := 64, s2 := 0x40, n2 := 4, rw := 0xfffffff0, own := .fn, wr := .owner, rd := .owner }
  | .HOST_CQ_BASE_HI => { base := 0x2120400c, s1 := 0x100, n1 := 64, s2 := 0x40, n2 := 4, rw := 0xffffffff, own := .fn, wr := .owner, rd := .owner }
  | .HOST_Q_CFG => { base := 0x21204010, s1 := 0x100, n1 := 64, s2 := 0x40, n2 := 4, rw := 0xffffffff, rst := .const 0x4011, own := .fn, wr := .owner, rd := .owner }
  | .HOST_Q_STATUS => { base := 0x21204014, s1 := 0x100, n1 := 64, s2 := 0x40, n2 := 4, w1c := 0x60000000, own := .fn, wr := .owner, rd := .owner }
  | .HOST_MOD => { base := 0x21208000, s1 := 0x4, n1 := 2048, rw := 0xff00ffff, rst := .const 0x1000000, own := .vec, wr := .owner, rd := .owner }
  | .GPIO_OUT => { base := 0x21300000, rw := 0xffffffff, own := .device, wr := .secureOrP0, rd := .secureOrP0, tw := true }
  | .GPIO_OE => { base := 0x21300004, rw := 0xffffffff, own := .device, wr := .secureOrP0, rd := .secureOrP0 }
  | .GPIO_IN => { base := 0x21300008, own := .device, wr := .none, rd := .secureOrP0 }
  | .GPIO_LOCK => { base := 0x2130000c, rw := 0xffffffff, own := .device, wr := .secure, rd := .secureOrP0, rwp := true }
  | .GPIO_CFG => { base := 0x21300100, s1 := 0x4, n1 := 32, rw := 0x3b, rst := .const 0x11, own := .device, wr := .secureOrP0, rd := .secureOrP0 }

/-- The families of each 64 KiB block of control space (R21); no block's instances leave its 64 KiB. -/
def blockFams : Nat → List Fam
  | 0x2000 => [.SYS_CAP0, .SYS_CAP1, .SYS_CAP2, .SYS_CAP3, .SYS_BOOT_STATUS, .SYS_BOOT_CTRL, .SYS_RST, .SYS_RST_RESULT, .SYS_SRC_PW_ADDR_LO, .SYS_SRC_PW_ADDR_HI, .SYS_SRC_PW_CMD, .SYS_SRC_PW_RESULT, .SYS_SRC_PW_SEQ, .SYS_SRC_STATE, .SYS_SRC_LOST, .SYS_SRC_BACK, .SYS_SRC_EVT, .SYS_SRC_STAMP]
  | 0x2001 => [.TKG_CTRL, .TKG_STATUS, .TKG_MASTER_NUM, .TKG_MASTER_DEN, .TKG_TICK_LO, .TKG_TICK_HI, .TKG_OVR_STAT, .TKG_OVR_LIMIT, .TKG_OVR_HALT, .TKG_HEAD_CFG, .TKG_AUDIO_CFG, .TKG_OVR_CNT]
  | 0x2002 => [.ADM_STATUS, .ADM_EPOCH, .ADM_PL_FLOOR, .ADM_LOAD_SEQ, .ADM_LOAD_LE, .ADM_LOAD_MEM_LO, .ADM_LOAD_MEM_HI, .ADM_LOAD_DEC, .ADM_LOAD_ENC, .ADM_PW_DESC_LO, .ADM_PW_DESC_HI, .ADM_PW_CMD, .ADM_PW_RESULT, .ADM_PW_EXCESS, .ADM_PW_ID, .ADM_PW_DRAFT]
  | 0x2003 => [.EVR_TSTAMP, .EVR_QCNT, .EVR_MASK, .EVR_PEND, .EVR_ACTIVE, .EVR_QUAR, .EVR_REARM, .EVR_DONE, .EVR_PIN_CFG, .EVR_PIN_CHAT, .EVR_PIN_RAW, .EVR_PIN_FILT, .EVR_SEQ_STAT, .EVR_SRC_CFG, .EVR_SRC_TARGET, .EVR_SRC_STAT, .EVR_SRC_TIME]
  | 0x2004 => [.PWR_CFG, .PWR_STATUS, .PWR_PL, .PWR_RETAIN, .PWR_WAKE_EN, .PWR_WAKE_EN2, .PWR_WAKE_TIMER, .PWR_THERM, .PWR_TEMP, .PWR_EVT, .PWR_DOM_STATE, .PWR_MODE, .PWR_DOM_SEL, .PWR_DOM_RET, .PWR_DOM_OFF, .PWR_REQ_RESULT, .PWR_DOM_GO]
  | 0x2005 => [.POT_BASE_LO, .POT_BASE_HI, .POT_EDIT_ADDR_LO, .POT_EDIT_ADDR_HI, .POT_EDIT_COUNT, .POT_EDIT_ENTRY, .POT_EDIT_STATUS, .POT_FAULT_ADDR_LO, .POT_FAULT_ADDR_HI, .POT_FAULT_INFO, .POT_FAULT_CNT, .POT_PAIR_INFO, .POT_PAIR_CNT, .POT_EVT, .POT_DBG_EN, .PART_DESC_LO, .PART_DESC_HI, .PART_CMD, .PART_RESULT, .PART_STATE, .POT_OWN_SEL, .POT_OWN]
  | 0x2006 => [.JNL_CFG, .JNL_STATUS, .JNL_WSEQ, .JNL_SSEQ, .JNL_BLOCK_LO, .JNL_BLOCK_HI, .JNL_LOST, .JNL_EVT]
  | 0x2010 => [.DMC_CH_STATUS, .DMC_CH_CORR, .DMC_CH_UNCORR, .DMC_CH_ODECC, .DMC_CH_ERR_ADDR_LO, .DMC_CH_ERR_ADDR_HI, .DMC_CH_ERR_INFO]
  | 0x2011 => [.DMC_SCRUB_CFG, .DMC_RH_THRESHOLD, .DMC_PD_CFG, .DMC_TRAIN_CFG, .DMC_ERR_THRESH, .DMC_BG_STAT, .DMC_PORT_CFG, .DMC_PORT_LATE, .DMC_PORT_TICK, .DMC_HEAD_TOL, .DMC_SS_CORR, .DMC_SS_UNCORR, .DMC_SS_ERR_ADDR, .DMC_SS_ERR_INFO]
  | 0x2020 => [.DMA_CH_DESC_LO, .DMA_CH_DESC_HI, .DMA_CH_CTRL, .DMA_CH_STATUS, .DMA_CH_DONE, .DMA_CH_ERR, .DMA_CH_CUR_LO, .DMA_CH_CUR_HI, .DMA_CH_REMAIN, .DMA_ENG_RUN]
  | 0x2030 => [.CRC_CFG, .CRC_CTRL, .CRC_STATUS, .CRC_ERR_CNT, .CRC_POLY_LO, .CRC_POLY_HI, .CRC_INIT_LO, .CRC_INIT_HI, .CRC_XOROUT_LO, .CRC_XOROUT_HI, .CRC_DATA8, .CRC_DATA16, .CRC_DATA32, .CRC_RESULT_LO, .CRC_RESULT_HI, .CRC_ALIVE_RX, .CRC_ALIVE, .CRC_RX_LO, .CRC_RX_HI, .CRC_REGION_POS, .CRC_REGION_SIZE, .CRC_REGION_HEAD, .CRC_REF0_LO, .CRC_REF0_HI, .CRC_REF1_LO, .CRC_REF1_HI, .CRC_FRAME]
  | 0x2040 => [.SEQ_STATUS, .SEQ_EXC, .SEQ_EXC_PC, .SEQ_IMAGE_ID, .SEQ_LASTCYC, .SEQ_PEAKCYC, .SEQ_MEMERR, .SEQ_SVC_CFG]
  | 0x2050 => [.LE_STATUS, .LE_CTRL, .LE_FAULT, .LE_LASTCYC, .LE_PEAKCYC, .LE_ERR_CNT]
  | 0x2060 => [.HD_CTRL, .HD_STATUS, .HD_FRAME, .HD_TIMING_H, .HD_TIMING_V, .HD_PIXCLK, .HD_HSYNC, .HD_VSYNC, .HD_ADAPT, .HD_ADAPT_GO, .HD_LINE_MATCH, .HD_OUT, .HD_QUIET, .HD_EVT, .HD_UNDERRUN, .HD_UNDERRUN_INFO, .HD_FRESH_STATE, .HD_RIND_EN, .HD_FRESH_LABEL, .HD_FRESH_STATUS, .HD_STALE_CNT, .HD_LOST_CNT, .HD_FUTURE_CNT, .HD_FRESH_AGE, .HD_COMP_RING, .HD_BGCOLOR, .HD_COMP_STATUS, .HD_WHEY_TOTAL_LO, .HD_WHEY_TOTAL_HI, .HD_FETCH_TOTAL_LO, .HD_FETCH_TOTAL_HI, .HD_LE_GROUP_LO, .HD_LE_GROUP_HI, .LAYER_CTRL, .LAYER_SRC, .LAYER_CROP_POS, .LAYER_CROP_SIZE, .LAYER_DST_POS, .LAYER_DST_SIZE, .LAYER_PITCH0, .LAYER_PITCH1, .LAYER_PLANE1, .LAYER_PLANE2, .LAYER_BLEND, .LAYER_CSC, .LAYER_OPQ_POS, .LAYER_OPQ_SIZE, .LAYER_FETCH, .LAYER_WHEY]
  | 0x2070 => [.DPT_CTRL, .DPT_LINK, .DPT_STATUS, .DPT_STREAM, .DPT_SINKCRC, .DPT_SINKCRC_STAT, .DPT_AUX_CMD, .DPT_AUX_STATUS, .DPT_AUX_DATA]
  | 0x2080 => [.VDE_STATUS, .VDE_EVT, .VDE_CTX_STATE, .VDE_CTX_CTRL, .VDE_CTX_CFG, .VDE_CTX_RATE, .VDE_CTX_WPTR, .VDE_CTX_RPTR, .VDE_CTX_PICS, .VDE_CTX_CONC, .VDE_CTX_LOST, .VDE_CTX_LATE]
  | 0x2090 => [.VEE_STATUS, .VEE_EVT, .VEE_STR_STATE, .VEE_STR_PICS, .VEE_STR_FALLBACK, .VEE_STR_DROP, .VEE_STR_BYTES]
  | 0x20a0 => [.WIT_CTRL, .WIT_STATUS, .WIT_STAGE_BASE_LO, .WIT_STAGE_BASE_HI, .WIT_STAGE_SIZE, .WIT_AUDIO, .WIT_GAP_CNT, .WIT_HOLD_MAX, .WIT_SEG_LO, .WIT_SEG_HI, .WIT_HOLD_FIRST_LO, .WIT_HOLD_FIRST_HI, .WIT_HOLD_LAST_LO, .WIT_HOLD_LAST_HI, .WIT_HOLD_CTL]
  | 0x20b0 => [.CAVE_CTRL, .CAVE_STATUS, .CAVE_WRATE, .CAVE_NS0_GIB, .CAVE_JNL_GIB, .CAVE_FREE_GIB, .CAVE_PATROL, .CAVE_WEAR, .CAVE_EVT, .CAVE_LOSS_CNT, .CAVE_RD_LIMIT, .CAVE_ERASE_AVG, .CAVE_MEMBER_CMD, .CAVE_MEMBER_RESULT, .CAVE_REBUILD, .CAVE_CH_STATUS, .CAVE_MEMBER_CFG, .CAVE_MEMBER_STATUS]
  | 0x20c0 => [.AUD_EVT, .AUD_POS, .AUD_DOM, .AUD_TDM_CFG, .AUD_TDM_STATUS, .AUD_TDM_TX, .AUD_BR_STATUS, .AUD_BR_SEL, .AUD_RING_CFG, .AUD_RING_BASE, .AUD_RING_WPTR, .AUD_RING_RPTR, .AUD_IN_CFG, .AUD_OUT_GAIN, .AUD_OUT_SIL, .AUD_METER, .AUD_OUT_STATUS, .AUD_AMPEN, .AUD_CHIME_CFG, .AUD_CHIME_SRC, .AUD_CHIME_GO, .AUD_NS_CFG, .AUD_NS_STATUS, .AUD_NS_SSRC, .AUD_NS_UDP, .AUD_NS_ADDR0, .AUD_NS_ADDR1, .AUD_NS_ADDR2, .AUD_NS_ADDR3, .AUD_XP]
  | 0x20d0 => [.TCH_STATUS, .TCH_CTRL, .TCH_CFG, .TCH_GEOM, .TCH_PULSE, .TCH_THR, .TCH_TRACK, .TCH_HOLD, .TCH_XMAP, .TCH_YMAP, .TCH_RING_BASE, .TCH_RING_CFG, .TCH_RING_WPTR, .TCH_RING_RPTR, .TCH_EVT, .TCH_ERR_CNT, .TCH_ST_LIM, .TCH_ST_RES, .TCH_WAKE, .TCH_TSL_CMD, .TCH_TSL_DATA, .TCH_TSL_STATUS, .TCH_SELF, .TCH_RAW, .TCH_BASE]
  | 0x20e0 => [.HPT_STATUS, .HPT_CTRL, .HPT_PWM, .HPT_LIM, .HPT_LIM2, .HPT_PZ_GAIN, .HPT_RCOIL, .HPT_EVT, .HPT_GO, .HPT_ERR_CNT, .HPT_SENSE, .HPT_EFF, .HPT_REGION]
  | 0x20f0 => [.CSI_CTRL, .CSI_STATUS, .CSI_ERR, .CSI_CAPOFS, .CSI_TRIG, .CSI_CNT]
  | 0x2100 => [.NET_PORT_CTRL, .NET_PORT_STATUS, .NET_STREAM_LOSS]
  | 0x2110 => [.RGL_PORT_CTRL, .RGL_PORT_STATUS, .RGL_PORT_CRCERR, .RGL_PORT_RES, .RGL_ID, .RGL_WHEEL_STATUS, .RGL_EVT, .RGL_TOPO, .RGL_EXP_CTRL, .RGL_EXP_RECT_POS, .RGL_EXP_RECT_SIZE, .RGL_EXP_DST, .RGL_EXP_RES, .RGL_IMP_CFG, .RGL_IMP_BASE_LO, .RGL_IMP_BASE_HI, .RGL_IMP_SLOT, .RGL_IMP_MISS]
  | 0x2120 => [.HOST_LINK, .HOST_EVT, .HOST_FN, .HOST_SQ_BASE_LO, .HOST_SQ_BASE_HI, .HOST_CQ_BASE_LO, .HOST_CQ_BASE_HI, .HOST_Q_CFG, .HOST_Q_STATUS, .HOST_MOD]
  | 0x2130 => [.GPIO_OUT, .GPIO_OE, .GPIO_IN, .GPIO_LOCK, .GPIO_CFG]
  | _ => []

/-- The address of a register (R21, R22). -/
def Reg.addr (r : Reg) : Nat :=
  let f := r.fam.info
  if f.flat then f.base + (r.i / 32) * f.s1 + (r.i % 32) * f.s2
  else f.base + r.i * f.s1 + r.j * f.s2

/-- The register of family `f` at address `a`, if `a` is one of its instances. -/
def Fam.regAt (f : Fam) (a : Nat) : Option Reg :=
  let t := f.info
  if a < t.base then none else
  let off := a - t.base
  let i := if t.s1 = 0 then 0 else off / t.s1
  let rem := if t.s1 = 0 then off else off % t.s1
  let j := if t.s2 = 0 then 0 else rem / t.s2
  let left := if t.s2 = 0 then rem else rem % t.s2
  if i < t.n1 ∧ j < t.n2 ∧ left = 0 then
    some (if t.flat then { fam := f, i := 32 * i + j } else { fam := f, i := i, j := j })
  else none

/-- The register at a control-space address, if the address names one (R23). -/
def regAt (a : Nat) : Option Reg :=
  (blockFams (a / 65536)).findSome? (fun f => f.regAt a)

end Sys2Proof.Machine
end

