-- ==== Sys2Proof/Machine/State.lean ====
section
/-! DEFINITION. The state of the block as plain data: the register map, the memory, and for every block what it holds
beside its registers; the reasons a step stops; the state after reset. Each field's docstring names the rule of spec/ that
gives it; INVENTORY.md lists them with their reset values. -/

namespace Sys2Proof.Machine

open Sys2Proof

/-- Why a step of the block stops. No command of the opcode table is left without an effect by the spec, so no meaning of
this model raises a fault; the constructor names the one stop a later repair could need. Safe: the machine stops where the
hardware goes on. -/
inductive Fault where
  /-- A command whose effect the spec gives nowhere. Raised by no meaning. Safe. -/
  | noEffectGiven (mnemonic : String)
  deriving DecidableEq, Repr

/-- Why a step is refused. -/
inductive Refusal where
  /-- The command has no meaning in this model yet. Raised only by an arm of `exec` that is still rejected. Safe. -/
  | notModelled (mnemonic : String)
  deriving DecidableEq, Repr

/-- A sparse map as a list of entries in rising key order, an absent key reading as a default that its user names. -/
abbrev KMap (α : Type) := List (Nat × α)

/-! ### What an implementation fixes -/

/-- The parts of the table of R2. -/
inductive Part where
  | T16W | T12W | T08W | T16C | T12C | T08C | T06C | T08D | T04D | T16N | T08N | T16E
  deriving DecidableEq, Repr

/-- What fuses and bonding fix at manufacture (R1): the part, and the die stepping of SYS_CAP0 (R9). -/
structure Variant where
  part    : Part
  dieStep : Nat
  deriving DecidableEq, Repr

/-! ### Ownership (R107, R121) -/

/-- An owner tag or owner record: the world bit, the partition, and whether the thing is granted or claimed at all
(POT_OWN.granted; always true in the tag of a request). -/
structure Owner where
  granted : Bool := false
  world   : Bool := false
  part    : Nat := 0
  /-- The starter's own requests, which read the boot ROM (R20). -/
  boot    : Bool := false
  deriving DecidableEq, Repr

/-! ### The journal (R420 to R423) -/

/-- One journal entry, the fields of R420. -/
structure JEntry where
  time   : W64 := 0
  seq    : W32 := 0
  origin : W32 := 0
  kind   : Nat := 0
  status : Nat := 0
  count  : Nat := 1
  addr   : W32 := 0
  value  : W32 := 0
  aux    : W32 := 0
  deriving DecidableEq, Repr

/-- The journal beside its registers. -/
structure Journal where
  /-- The ring of R421 by slot (entry sequence modulo 65,536). -/
  ring      : KMap JEntry := []
  /-- Normal-world refusals in force (R422: from fill 65,024 until it is below 64,512). -/
  nwBusy    : Bool := false
  /-- Time in ns of the first and last unrecorded fault while the ring is full (R422). -/
  lostFirst : Nat := 0
  lostLast  : Nat := 0
  /-- Faults not recorded since the ring was last full (R422). -/
  lostOpen  : Nat := 0
  /-- Time in ns at which the oldest waiting entry was written (R421: the 100 ms rule). -/
  waitSince : Nat := 0
  /-- Entries of the spill block handed to the cave and not yet committed. -/
  inFlight  : Nat := 0
  /-- SHA-256 of the previous spill block (R421). -/
  prevHash  : BitVec 256 := 0
  /-- SHA-256 of the block in flight (R421). -/
  inHash    : BitVec 256 := 0
  /-- Rate-limited entries of this master tick: merge key to ring slot (R109, R144, R171). -/
  merge     : KMap Nat := []
  deriving DecidableEq, Repr

/-! ### The Event Router beside its registers (R84 to R106) -/

structure Evr where
  /-- Levels as last sampled: source to asserted, for L sources that a live contract names (R85, R88). -/
  level   : KMap Bool := []
  /-- Quarantines whose clearing EVR_REARM has scheduled for the next master boundary (R101). -/
  rearm   : KMap Bool := []
  /-- Sources a partition reset made ineligible until their gate opens again (R128, R130). -/
  gated   : KMap Bool := []
  /-- The edge that a pin's asynchronous latch has captured while the reference was stopped: whether it was a rising one (R91). -/
  latched : KMap (Option Bool) := []
  /-- Levels that blocks hold without a register that shows them: a camera port's link failure, a network port's count past 256, a
  remote stream without rows (R188, R290). -/
  blk     : KMap Bool := []
  deriving DecidableEq, Repr

/-! ### The Tick Generator beside its registers (R28 to R38) -/

structure Tkg where
  /-- Consecutive boundaries with the phase error within, and beyond, ±1 µs (R29). -/
  good       : Nat := 0
  bad        : Nat := 0
  /-- A period in LOCKED since the last entry to FREE (R29). -/
  everLocked : Bool := false
  /-- The selected source has delivered valid time since it was selected or lost (R29). -/
  srcValid   : Bool := false
  /-- Time in ps of the last valid time information from the selected source (R29). -/
  infoAt     : Nat := 0
  /-- One more than the time in ps of the last valid time information from each source, selected or not; 0 for none yet (R29). -/
  seen       : KMap Nat := []
  /-- The boundary from which the others are placed: its index, and its PTP time in ns. Boundary 0 at PTP time 0, at reset
  release while the tick runs free, the last boundary after a change of a local rate or under a slew (R28, R29). -/
  idx0       : Nat := 0
  origin     : Nat := 0
  /-- The boundary strobe has been given and its commit switch is still to come (R34). -/
  inApply    : Bool := false
  /-- Boundary indices of the head and audio domains (R30, R31, TICK of R56): domain code to index. -/
  ticks      : KMap Nat := []
  /-- PTP ns of the last boundary of each domain (TSTART of R56). -/
  starts     : KMap Nat := []
  deriving DecidableEq, Repr

/-! ### Sequencers (R55 to R82) -/

/-- One register set: g1 to g31 (g0 reads zero) and p1 to p7 (p0 reads true, bit 0 unused) (R55). -/
structure RegSet where
  g : KMap W64 := []
  p : BitVec 8 := 0
  deriving DecidableEq, Repr

/-- The world-call save set (R74). -/
structure SaveSet where
  g29 : W64 := 0
  g30 : W64 := 0
  g31 : W64 := 0
  pc  : Nat := 0
  p   : BitVec 8 := 0
  deriving DecidableEq, Repr

/-- A running loop (R66): local addresses of its first word and of the word after its body, passes left, and the call depth it
runs at. -/
structure LoopFrame where
  first : Nat
  after : Nat
  left  : Nat
  depth : Nat
  deriving DecidableEq, Repr

/-- One tick-window write in a sequencer's buffer (R70). -/
structure TickWrite where
  addr  : Nat
  value : W32
  deriving DecidableEq, Repr

/-- What the loader keeps of a program image that passed (R79, R80). -/
structure Image where
  id       : W32 := 0
  domain   : Nat := 0
  wcet     : Nat := 0
  stack    : Nat := 0
  hstack   : Nat := 0
  twmax    : Nat := 0
  entry    : Nat := 0
  codeSize : Nat := 0
  secure   : Bool := false
  /-- Handler table: word offset and declared cost. -/
  handlers : List (Nat × Nat) := []
  /-- Control-space bases of the tick-window targets (R38). -/
  targets  : List Nat := []
  /-- Service entries the code calls (R76). -/
  services : List Nat := []
  deriving DecidableEq, Repr

/-- What a sequencer does (SEQ_STATUS.state). -/
inductive SeqMode where
  | idle | running | waiting | sleeping | halted
  deriving DecidableEq, Repr

/-- One event level's saved context (R72): EVPC, EVPS, the source and priority it handles. -/
structure LevelCtx where
  evpc   : Nat := 0
  evps   : Nat := 0
  source : Nat := 0
  prio   : Nat := 0
  deriving DecidableEq, Repr

/-- A sequencer's program and position. -/
structure Seq where
  mode      : SeqMode := .idle
  /-- Halted by debug (R127), over whatever `mode` says; let run for one instruction. -/
  dbg       : Bool := false
  /-- Halted by debug, let run for one instruction (R127). -/
  step      : Bool := false
  /-- Local address of the word to execute next (R57). -/
  pc        : Nat := 0
  /-- Event level, 0 the tick program; the register sets of levels 0 to 3 and of the world call, 4 (R55, R72, R74). -/
  level     : Nat := 0
  sets      : KMap RegSet := []
  /-- The world-call save set (R74). -/
  save      : SaveSet := {}
  /-- In a world call, with the result mask of its gate entry (R74, R75). -/
  inCall    : Bool := false
  results   : Nat := 0
  /-- Contexts saved by event level (R72). -/
  ctx       : KMap LevelCtx := []
  /-- Loop frames and return records: keys 0 to 3 the levels, 4 the world call (R65, R67). -/
  loops     : KMap (List LoopFrame) := []
  rets      : KMap (List Nat) := []
  /-- The tick program sleeps in WAITT under the handlers that run (R73). -/
  asleep    : Bool := false
  /-- The tick-window buffer (R70). -/
  tw        : List TickWrite := []
  /-- The running instruction bank, and the image in it (R82). -/
  bank      : Bool := false
  live      : Option Image := none
  /-- The image waiting in the inactive bank, and the domain at whose boundary it becomes active (R82). -/
  next      : Option Image := none
  /-- A committed change waits for the first boundary of the domain code given: the next image, or a stop (R82). -/
  change    : Option Nat := none
  stopping  : Bool := false
  /-- The boundary of the change has passed: it waits for the EVRET of the handler that runs (R97). -/
  deferred  : Bool := false
  /-- The sequencer may start at the next boundary of its domain (R37, R78, R130). -/
  restart   : Bool := false
  deriving DecidableEq, Repr

/-- A sequencer's tick and accounting. -/
structure SeqTick where
  /-- Cycles charged in this tick (R56), the commit epoch at its start, whether it is the first after a start, whether the last one overran (R56). -/
  tickCyc   : Nat := 0
  epoch     : W32 := 0
  first     : Bool := false
  prevBad   : Bool := false
  /-- The close found the program short of WAITT, or it took an exception: this tick is an overrun (R36, R78). -/
  late      : Bool := false
  /-- The tick of R33 has closed for this boundary. -/
  closed    : Bool := false
  /-- Overruns in a row (R37). -/
  overs     : Nat := 0
  /-- The program has been woken since its bank switch; and since the last boundary of its domain, or has run on over it. -/
  woken     : Bool := false
  ran       : Bool := false
  /-- A DRAIN waits for what was issued before it (R71). -/
  drain     : Bool := false
  /-- Time in ps at which the program last reached WAITT or WAITS (R33). -/
  doneAt    : Nat := 0
  /-- Tick-window writes issued in this tick (TWCNT of R56). -/
  twCount   : Nat := 0
  /-- The program and its events wait for the wake at its domain's next boundary: an exception stopped it, or a bank switch put it in
  (R78, R97). -/
  excWait   : Bool := false
  deriving DecidableEq, Repr

/-! ### Admission (R39 to R54) -/

/-- A contract: its identifier, submitter (0 to 63, 64 the secure world) and its 64-byte descriptor as 16 words. -/
structure Contract where
  id    : W32
  sub   : Nat
  words : List W32
  image : Option Image := none
  deriving DecidableEq, Repr

/-- One drafted operation (R47). -/
inductive DraftOp where
  | add     (c : Contract)
  | release (id : W32)
  | replace (old : W32) (c : Contract)
  deriving DecidableEq, Repr

/-- A submitter's draft: its operations, and when sealed the boundary it takes effect at (R48). -/
structure Draft where
  ops    : List DraftOp := []
  sealed : Option Nat := none
  epoch  : W32 := 0
  deriving DecidableEq, Repr

structure Adm where
  /-- Live contracts, oldest first; drafts by submitter; the serial number given last (R39, R47, R48). -/
  live   : List Contract := []
  drafts : KMap Draft := []
  serial : Nat := 0

  deriving DecidableEq, Repr

/-! ### Partitions and paired storage (R107 to R132) -/

/-- What a partition's grant descriptor leaves beside owner records and PART_STATE (R111), and where its reset stands. -/
structure PartRec where
  /-- Debug enables, invasive and non-invasive (R127). -/
  dbgInv    : Bool := false
  dbgNinv   : Bool := false
  /-- MSI-X vectors granted (R111, R373). -/
  msixFirst : Nat := 0
  msixCount : Nat := 0
  /-- Decoder contexts and encoder shares by unit (R111). -/
  decCtx    : KMap Nat := []
  encShare  : KMap Nat := []
  /-- Mixer inputs and outputs, bridge channels, TDM slots (R111). -/
  mixIn     : Nat := 0
  mixOut    : Nat := 0
  bridgeCh  : Nat := 0
  tdmSlots  : Nat := 0
  /-- Cave namespace size in GiB; memory shares by load (R44, R111). -/
  caveGib   : Nat := 0
  memShare  : KMap Nat := []
  deriving DecidableEq, Repr

structure PartRun where
  /-- Master boundary index at whose commit switch the reset completes (R129), and T0 in ns. -/
  resetAt   : Option Nat := none
  t0        : Nat := 0
  /-- DESTROY queued behind a reset, or waiting for its commit switch (R131, R132). -/
  destroy   : Bool := false
  releaseAt : Option Nat := none
  /-- RUN follows the reset (HOST_FN.auto_run, R375). -/
  autoRun   : Bool := false
  deriving DecidableEq, Repr

/-- A running POT edit (R119, R120) or the rewrite of a destroyed partition (R132). -/
structure PotEdit where
  /-- Next page to rewrite, and the pages left (R120). -/
  next  : Nat
  left  : Nat
  /-- Pages of the whole edit. -/
  count : Nat
  /-- The new entry (R119). -/
  entry : W32
  deriving DecidableEq, Repr

/-- The two stored copies of a paired store that no longer stand as the accepted write left them (R125). -/
structure PairCopy where
  primary    : W32
  complement : W32
  deriving DecidableEq, Repr

/-- The held first word of a pair (R124). -/
structure HeldWord where
  value : W32
  agent : Nat
  at_ps : Nat
  deriving DecidableEq, Repr

structure Pot where
  edit     : Option PotEdit := none
  /-- Partitions whose entries the background rewrite still has to return to partition 0 (R132). -/
  rewrites : KMap Bool := []
  /-- First words of complement pairs in flight: register address to held word (R124). -/
  held     : KMap (Option HeldWord) := []
  /-- Paired stores whose copies differ from what the last accepted write left: by register address, or `pairOwner` and
  `pairPage` of an owner record and a cached POT entry; an absent key is a store whose copies agree (R125). -/
  copies   : KMap (Option PairCopy) := []
  /-- Lines of 16 entries in the POT cache (R118). -/
  cache    : List Nat := []
  deriving DecidableEq, Repr

/-- The last completion a requester saw (R25, R366): 0 success, 1 Unsupported Request, 2 refused with no data moved, 3 data error or poisoned data; read data. -/
structure Resp where
  status : Nat := 0
  data   : W64 := 0
  /-- The bytes of a longer read after the first 8 (R133, R142). -/
  rest   : List Byte := []
  deriving DecidableEq, Repr

/-! ### The DRAM controller beside its registers (R141 to R150) -/

/-- A DRAM request between its port and its completion (R142, R143). -/
structure DramReq where
  id       : Nat
  port     : Nat
  tag      : Owner
  write    : Bool
  addr     : Nat
  len      : Nat
  data     : List Byte
  arrive   : Nat
  /-- The port's latency target in ns when it arrived: the deadline is fixed then (R143). -/
  target   : Nat
  /-- In contract, excess, or waiting at a paced port for credit. -/
  inContract : Bool
  waiting  : Bool
  /-- Urgency class raised last, 0 none (R143). -/
  urgency  : Nat
  deriving DecidableEq, Repr

/-- A row's metadata block (R137): activation count, refresh-window number, the 25 reserved bytes as a number, and the stored
CRC-32. -/
structure RowMeta where
  count    : Nat
  window   : Nat
  reserved : Nat
  crc      : W32
  deriving DecidableEq, Repr

structure Dmc where
  /-- Requests outstanding in arrival order, and the identifier of the next (R145). -/
  reqs     : List DramReq := []
  nextId   : Nat := 0
  /-- Bytes each port issued this master tick, the layer pool as port 16; bursts in contract and excess (R142). -/
  tickBytes : KMap Nat := []
  tickIn   : KMap Nat := []
  tickEx   : KMap Nat := []
  /-- Credit accounts of paced ports by port and owner: amount (none: full) and time of its last update (R142). -/
  credit   : KMap (Option Nat) := []
  creditAt : KMap Nat := []
  /-- Bursts waiting for a correction write-back, oldest first (R140). -/
  corrQ    : List Nat := []
  /-- Next burst of the DRAM scrub and next word of the Shared Store scrub (R134, R140). -/
  scrubPos : Nat := 0
  ssPos    : Nat := 0
  /-- Background work granted by channel: the 10 µs window and the bursts granted in it (R146). -/
  bg       : KMap (Nat × Nat) := []
  /-- Retraining: the channel in training, steps taken, the last channel of the rotation, the start in ps of the last training
  by rotation and of the last step (R147). -/
  training : Option Nat := none
  steps    : Nat := 0
  lastTrain : Nat := 15
  trainAt  : Nat := 0
  stepAt   : Nat := 0
  /-- Metadata of the rows activated since the DRAM was last powered; refresh-window numbers by channel and the start in ps of
  each; activations by channel, bank and port in the window, and the time of the last one (R148, R149). -/
  rows     : KMap (Option RowMeta) := []
  window   : KMap Nat := []
  winAt    : KMap Nat := []
  acts     : KMap Nat := []
  lastAct  : KMap Nat := []
  /-- By channel and bank: the open row plus 1, the throttled port plus 1 of this window, refresh management commands issued
  (R143, R149). -/
  openRow  : KMap Nat := []
  throttles : KMap Nat := []
  rfm      : KMap Nat := []
  /-- Time in ps at which a channel last had a request (R150). -/
  lastUse  : KMap Nat := []
  deriving DecidableEq, Repr

/-! ### DMA channels beside their registers (R154 to R163) -/

/-- A descriptor as fetched (R154). -/
structure DmaDesc where
  src    : Nat := 0
  dst    : Nat := 0
  lineLen : Nat := 0
  lines  : Nat := 0
  halfEv : Bool := false
  fullEv : Bool := false
  chain  : Bool := false
  srcStride : Nat := 0
  dstStride : Nat := 0
  next   : Nat := 0
  deriving DecidableEq, Repr

structure Dma where
  desc    : DmaDesc := {}
  /-- Bytes of the descriptor that have left the engine. -/
  done    : Nat := 0
  halfHit : Bool := false
  /-- An error met and not yet recorded (R163). -/
  err     : Nat := 0
  /-- Stopped by a partition reset: no completion event (R128). -/
  mute    : Bool := false
  deriving DecidableEq, Repr

/-! ### CRC units beside their registers (R164 to R174) -/

structure Crc where
  /-- The CRC register (R165). -/
  reg     : Nat := 0
  /-- Input queue of 16 entries: bytes and word of each feed not yet absorbed (R166). -/
  queue   : List (Nat × W32) := []
  /-- Alive history: a counter has been received since it was cleared, and since the last restart (R167). -/
  aliveSeen : Bool := false
  /-- Region mode in force since the head's last vertical-blanking start, with its rectangle and head (R169). -/
  rOn     : Bool := false
  rPos    : W32 := 0
  rSize   : W32 := 0
  rHead   : W32 := 0
  /-- A region write waits for the head's next vertical-blanking start. -/
  rNew    : Bool := false
  /-- Lines of the rectangle that have passed the tap in this frame, and whether all of them have. -/
  rLines  : Nat := 0
  rDone   : Bool := false
  deriving DecidableEq, Repr

/-! ### Source intake (R175 to R188) -/

/-- A record of the source table: surface address, buffer index, and the 8 words of its stamp; no words when there is no
record (R175, R178). -/
structure SrcRec where
  addr  : Nat := 0
  buf   : Nat := 0
  stamp : List W32 := []
  deriving DecidableEq, Repr

/-- An ST 2110-20 frame in receipt (R185): its timestamp, its buffer when one is free, its capture, the first sequence number that is
its own, whether the packet at its start is missing, and the bytes received, ranges by offset. -/
structure NetFrame where
  ts    : Nat
  buf   : Option Nat
  cap   : Nat
  first : Nat
  lead  : Bool
  cover : KMap Nat := []
  deriving DecidableEq, Repr

/-- What intake holds of a network stream (R184, R185, R192). -/
structure NetStream where
  /-- A packet has been received (R184). -/
  started : Bool := false
  /-- The highest extended sequence number. -/
  ext     : Nat := 0
  /-- The first packet's number, and when it came (ns). -/
  start   : Nat := 0
  startAt : Nat := 0
  /-- The number up to which frames have been published and units passed on. -/
  done    : Nat := 0
  /-- Sequence numbers still missing, with the time each gap opened. -/
  gaps    : List (Nat × Nat) := []
  /-- Sequence numbers given up as lost, kept while they matter to a frame or unit or lie within 64 places. -/
  lost    : List Nat := []
  /-- The last sender report: RTP timestamp and PTP time. -/
  report  : Option (Nat × Nat) := none
  /-- Compressed payloads: pieces by extended number, and the unit ends with capture and degraded flag. -/
  pieces  : KMap (List Byte) := []
  ends    : List (Nat × Nat × Bool) := []
  /-- A unit was dropped for want of room: the next one carries gap. -/
  gapNext : Bool := false
  /-- ST 2110-20: the frame being received. -/
  frame   : Option NetFrame := none
  deriving DecidableEq, Repr

/-- A slot beside its registers (R177, R178, R180). -/
structure Slot where
  /-- The current and the held record, the sequence number and the time in ns of the last publish (R175, R178, R180). -/
  cur     : SrcRec := {}
  held    : SrcRec := {}
  seq     : W32 := 0
  lastPub : Nat := 0
  /-- Times in ns of the accepted publishes of one period (R186). -/
  pubs    : List Nat := []
  /-- Camera frame: in receipt, published, received lines, bytes of its first line, buffer, ring too small (R179, R181, R182). -/
  inFrame : Bool := false
  shown   : Bool := false
  rows    : Nat := 0
  lineLen : Nat := 0
  buf     : Nat := 0
  tooSmall : Bool := false
  /-- Network intake of the slot (R184). -/
  net     : NetStream := {}
  /-- The latest valid stamp of a Rogar-bound slot, which is no record of the source table (R187). -/
  far     : List W32 := []
  deriving DecidableEq, Repr

/-! ### Video decoders (R189 to R199) -/

/-- An access unit in a context's ring: where it starts, its padded size, the flags and capture of its header, its completion
and release times in ns (R192, R194). -/
structure VUnit where
  at_      : Nat
  size     : Nat
  /-- Treated as lost data (R192). -/
  bad      : Bool
  gap      : Bool
  part     : Bool
  degraded : Bool
  replayed : Bool
  capture  : Nat
  released : Option Nat := none
  deriving DecidableEq, Repr

/-- A decoded picture that is a reference or waits for output. -/
structure VPic where
  pic      : Nat
  buf      : Nat
  conc     : Bool
  degraded : Bool
  replayed : Bool
  capture  : Nat
  deriving DecidableEq, Repr

structure VCtx where
  /-- The picture token, and when the next one comes (ns) (R194). -/
  token    : Bool := false
  tokenAt  : Nat := 0
  /-- Ring offset up to which units have been taken in. -/
  taken    : Nat := 0
  /-- Units taken in and not released, oldest first; pictures held (R192, R194). -/
  units    : List VUnit := []
  pics     : List VPic := []
  /-- Numbers of the pictures that are valid references. -/
  refs     : List Nat := []
  /-- Hidden key frames decoded clean (R196). -/
  keys     : List Nat := []
  /-- RASL pictures of the last CRA are discarded (R196). -/
  dropRasl : Bool := false
  /-- A picture has been published since ARMED was entered. -/
  shown    : Bool := false
  /-- The last unit taken in was treated as lost data: the next one follows a gap (R192). -/
  gapNext  : Bool := false
  deriving DecidableEq, Repr

/-! ### Display heads (R200 to R276) -/

/-- A layer as one strip shows it: its contract's and active set's values and the state decided at the strip's start (R218,
R254, R255, R263). -/
structure LayView where
  slot   : Nat
  x      : Int
  y      : Int
  w      : Nat
  h      : Nat
  mode   : Nat
  galpha : Nat
  ox     : Nat
  oy     : Nat
  ow     : Nat
  oh     : Nat
  /-- Freshness state: 0 NONE, 1 LIVE, 2 DEGRADED, 3 STALE, 4 LOST. -/
  state  : Nat
  /-- Label text as character codes, empty for none, and whether the strip draws labels. -/
  label  : List Nat := []
  /-- Source slot, surface address, pitches and plane offsets, format, crop, mirroring, full range. -/
  src    : Nat := 0
  addr   : Nat := 0
  p0     : Nat := 0
  p1     : Nat := 0
  o1     : Nat := 0
  o2     : Nat := 0
  fmt    : Nat := 0
  cx     : Nat := 0
  cy     : Nat := 0
  cw     : Nat := 0
  ch     : Nat := 0
  mh     : Bool := false
  mv     : Bool := false
  full   : Bool := false
  /-- A line ring: its lines (0 none), its line pitch, and the lines received at the strip's start (R225). -/
  lockR  : Nat := 0
  lockRows : Nat := 0
  deriving DecidableEq, Repr

/-- A strip composed or in scan-out. -/
structure StripRec where
  k     : Nat
  lines : Nat
  views : List LayView := []
  /-- Start in ps of its composition (R244). -/
  begun : Nat := 0
  /-- The frame has labels (R264). -/
  labels : Bool := false
  /-- An engine's band is missing (R227). -/
  broken : Bool := false
  deriving DecidableEq, Repr

/-- What a frame's latch keeps of a layer (R205, R254). -/
structure LatchRec where
  /-- The layer was part of the frame's latch. -/
  part  : Bool := false
  addr  : Nat := 0
  stamp : List W32 := []
  ok    : Bool := false
  deriving DecidableEq, Repr

/-- What a head keeps of a layer from strip to strip (R254, R259, R263, R275). -/
structure FreshRec where
  seqLast : W32 := 0
  tChange : Nat := 0
  state   : Nat := 0
  future  : Bool := false
  black   : Bool := false
  label   : List Nat := []
  deriving DecidableEq, Repr

structure Head where
  /-- The HEAD contract whose timing is in force (R235). -/
  con     : Option Contract := none
  /-- Time in ps at which the conditions of a start came to hold (R235). -/
  bothAt  : Option Nat := none
  /-- Start in ps of the current line, of the last vertical blanking, and of line 0 of the frame last latched. -/
  lineAt  : Nat := 0
  blankAt : Nat := 0
  /-- The time in ps of the head tick that is due. -/
  tickPs    : Nat := 0
  /-- Start in ps of line 0 of the frame last latched (R203). -/
  line0   : Nat := 0
  /-- Start in ps of the raster's first blanking and its tick index, from which locked heads count (R232). -/
  base    : Nat := 0
  baseIdx : Nat := 0
  /-- Frame done has still to come for the frame that ended (R241). -/
  doneDue : Bool := false
  /-- Index of the head tick that began the blanking, counted from PTP time 0 (R267), and the beat phase of the frame. -/
  tickIdx : Nat := 0
  phase   : Bool := false
  /-- The head tick of the last vertical-blanking start has still to come (R30). -/
  tickDue : Bool := false
  /-- Lines by which the front porch has been extended, and whether a trigger has come (R234). -/
  ext     : Nat := 0
  trig    : Bool := false
  /-- HD_HSYNC, HD_VSYNC, HD_OUT, HD_QUIET and HD_LINE_MATCH in force since the last vertical-blanking start. -/
  sync    : List W32 := []
  /-- The active set of the frame latched last: layer and composition registers that do not hold their reset value (R204). -/
  act     : List (Reg × W32) := []
  /-- Protected blocks: the pending set as it stood at the arming write, and the active one (R223). -/
  armed   : List (Reg × W32) := []
  arming  : List Nat := []
  protAct : List (Reg × W32) := []
  /-- What the frame's latch keeps of each layer, by slot (R205). -/
  latched : KMap LatchRec := []
  /-- The latched surfaces are in use: the frame's last strip is not yet composed (R205). -/
  inUse   : Bool := false
  /-- The LAYER contracts in force at the head since its last head tick, by slot (R51). -/
  lays    : KMap (Option Contract) := []
  /-- What is kept of each layer from strip to strip, by slot (R254, R263). -/
  fresh   : KMap FreshRec := []
  /-- No frame latched since the raster began (R235). -/
  unlatched : Bool := true
  /-- The strip ring of the frame's latch lies outside the owner's banks (R201); whether the frame has labels (R264). -/
  ringBad : Bool := false
  labels  : Bool := false
  /-- The strip whose composition is due, the last one composed, and the one in scan-out (R203). -/
  due     : Option Nat := none
  next    : Option StripRec := none
  scan    : Option StripRec := none
  /-- The frame has underrun, and at which line (R243); a rind mismatch has been found in it: 1 drawn
  from one copy, 2 in LOST colours (R272). -/
  under   : Option Nat := none
  rindBad : Nat := 0
  /-- Fetched and whey bytes of the frame by slot (R220). -/
  fetched : KMap Nat := []
  whey    : KMap Nat := []
  /-- Engines of the group and spares in use (R200, R227). -/
  group   : List Nat := []
  /-- The last active line sent, before the rind and after it, 10-bit RGB words, and its number (R236). -/
  tap     : List W32 := []
  out     : List W32 := []
  /-- The same line after the output conversion: a first component, and the two others where the format carries them (R237). -/
  conv    : List (Nat × Option (Nat × Nat)) := []
  /-- Lengths in ns of the line and frame windows exported last (R245). -/
  winLine  : Nat := 0
  winFrame : Nat := 0
  /-- Sink readback: frames sent, recent TEST_CRC values, consecutive mismatches and failures (R251). -/
  crcs    : List (List Nat) := []
  frames  : Nat := 0
  misses  : Nat := 0
  auxBad  : Nat := 0
  /-- Frames sent when the sink was read last (R251). -/
  crcAt   : Nat := 0
  deriving DecidableEq, Repr

/-! ### Transmitters (R246 to R251) -/

structure Dpt where
  /-- Sink: reports TEST_CRC, MSA_TIMING_PAR_IGNORED; its capability rate and lanes as last read. -/
  sinkCrc : Bool := false
  sinkMsa : Bool := false
  /-- Link training runs (R246). -/
  training : Bool := false
  /-- Streams enabled by the check of R247. -/
  on      : KMap Bool := []
  /-- The AUX command in progress and its retries (R250). -/
  aux     : Option W32 := none
  retries : Nat := 0
  deriving DecidableEq, Repr

/-! ### Video encoders and the witness recorder (R277 to R296) -/

/-- A CTU row of a picture in coding. -/
structure CtuRow where
  row      : Nat
  deadline : Nat
  deriving DecidableEq, Repr

/-- A picture being coded (R279, R283, R287, R292). -/
structure EncPic where
  /-- Head frame number and the time in ns of its line 0 (R292); an IDR picture. -/
  frame   : Nat
  t0      : Nat
  idr     : Bool
  /-- Head frame flags: bit 3 interrupted, bit 4 sink_bad, bit 5 a layer not LIVE. -/
  flags   : Nat := 0
  /-- Rows ready and not yet coded, in row order; rows coded; B of R287. -/
  ready   : List CtuRow := []
  made    : Nat := 0
  bytes   : Nat := 0
  /-- The cap is spent: fallback for every later CTU. -/
  spent   : Bool := false
  /-- Degraded CTU rows, bit j row j (R292); a row was dropped (R289). -/
  bitmap  : Nat := 0
  dropped : Bool := false
  /-- The contract it was taken under, and whether the stream of that contract ends with it (R294). -/
  con     : Contract := { id := 0, sub := 0, words := [] }
  last    : Bool := false
  /-- Its quantiser (R283), and the scaled lines of it that the tap has put into the input ring (R278). -/
  qp      : Nat := 0
  lines   : Nat := 0
  /-- The vectors of its coded CTUs in coding order, in quarter pixels (R284). -/
  mvs     : List (Int × Int) := []
  deriving DecidableEq, Repr

structure EncStream where
  /-- The picture token, when the next one comes (ns), and whether the next picture taken is an IDR. -/
  token   : Bool := false
  tokenAt : Nat := 0
  idrNext : Bool := true
  /-- Pictures in coding, oldest first (R279). -/
  pics    : List EncPic := []
  /-- Which of the two reference buffers the picture in coding is written to; the other holds its reference (R280). -/
  buf     : Bool := false
  /-- The vectors of the last picture coded (R284). -/
  refMvs  : List (Int × Int) := []
  /-- No row came for a whole picture period (R290). -/
  idle    : Bool := false
  deriving DecidableEq, Repr

/-- A block of 64 reference columns in an encoder's window: its luma and chroma, and its luma at levels 1 and 2 (R285). -/
structure RefBlock where
  col    : Nat
  bytes  : List Byte
  level1 : List Byte
  level2 : List Byte
  deriving DecidableEq, Repr

/-- The window cache of an encoder: the stream it belongs to, the owner of the last picture's head, the CTU it is placed for and the
column blocks it holds (R285). -/
structure EncCache where
  stream : Option Nat := none
  owner  : Option Owner := none
  row    : Nat := 0
  col    : Nat := 0
  blocks : List RefBlock := []
  deriving DecidableEq, Repr

/-- A witness record (R292). -/
structure WRec where
  kind    : Nat
  stream  : Nat
  flags   : Nat
  time    : Nat
  payload : List Byte
  deriving DecidableEq, Repr

/-- A segment being filled or closed (R291): records as bytes. -/
structure WSeg where
  ns      : Nat
  number  : Nat := 0
  tStart  : Nat := 0
  tEnd    : Nat := 0
  bySize  : Bool := false
  held    : Bool := false
  first   : Bool := false
  key     : Nat := 0
  records : Nat := 0
  body    : List Byte := []
  deriving DecidableEq, Repr

/-- A sealed segment: every byte of it, and where the staging ring holds it, as pieces of address and length (R293). -/
structure SegBytes where
  ns     : Nat
  number : Nat
  bytes  : List Byte
  stage  : List (Nat × Nat) := []
  deriving DecidableEq, Repr

/-- A span of dropped records not yet written as a gap record (R293). -/
structure WGap where
  open_ : Bool := false
  t0    : Nat := 0
  t1    : Nat := 0
  kinds : Nat := 0
  deriving DecidableEq, Repr

structure Wit where
  /-- Records waiting for the staging ring, with their namespaces. -/
  queue   : List (Nat × WRec) := []
  /-- The open segment of each namespace; the segments closed, oldest first; those sealed and offered to the cave. -/
  segs    : KMap WSeg := []
  closed  : List WSeg := []
  offered : List SegBytes := []
  /-- SHA-384 of the newest sealed segment of each namespace (R291). -/
  prevs   : KMap (BitVec 384) := []
  /-- Spans of dropped records by namespace (R293). -/
  gaps    : KMap WGap := []
  /-- Namespaces with a segment since boot. -/
  begun   : KMap Bool := []
  /-- The key slots and the signing key, 0 empty. -/
  keys    : KMap Nat := []
  signKey : Nat := 0
  /-- Offset in the staging ring at which the next sealed segment is laid down. -/
  stageAt : Nat := 0
  /-- Next journal entry to record; output samples of the audio record being filled, and its periods. -/
  jnext   : W32 := 0
  audio   : List Byte := []
  periods : Nat := 0
  deriving DecidableEq, Repr

/-! ### The cave (R297 to R314) -/

/-- What a member's identification found (R298). -/
structure CMember where
  /-- Dies and blocks per die (R298). -/
  dies      : Nat := 0
  blocks    : Nat := 0
  /-- TLC data bytes of a block, rated endurance. -/
  blkBytes  : Nat := 0
  endurance : Nat := 0
  /-- Spares used by die (R301, R306). -/
  used      : KMap Nat := []
  /-- Erasures that every block has had, and each die's retention units since the member was admitted, in 10^-9 (R307, R308). -/
  base      : Nat := 0
  ret       : KMap Nat := []
  deriving DecidableEq, Repr

/-- A block: erasures beyond the member's, reads since the last, its die's retention units at the last, and the superblock that
holds it (R306 to R308). -/
structure CBlk where
  erases : Nat := 0
  reads  : Nat := 0
  ret    : Nat := 0
  /-- In the factory table, in the grown table. -/
  factory : Bool := false
  bad    : Bool := false
  /-- A read of it needed parity: a refresh makes it grown bad (R306). -/
  weak   : Bool := false
  /-- The superblock that holds it, none when free (R302). -/
  sb     : Option Nat := none
  deriving DecidableEq, Repr

/-- A superblock (R299, R302): namespace (64 the journal area), its units by member and block, data bytes it holds at most, and its
content, stripe by stripe: page k of data is unit k mod (n - 1) of stripe k div (n - 1), the last unit the parity page. -/
structure CSuper where
  ns    : Nat
  units : List (Nat × Nat)
  cap   : Nat
  data  : List Byte := []
  full  : Bool := false
  /-- A refresh is due (R307, R308). -/
  due   : Bool := false
  deriving DecidableEq, Repr

/-- A stored segment, or a journal block under namespace 64: its length and the places of its content, in order: superblock, offset,
length; where the staging ring holds it until it is committed. -/
structure CSeg where
  ns     : Nat
  number : Nat
  len    : Nat
  spans  : List (Nat × Nat × Nat)
  stage  : List (Nat × Nat) := []
  done   : Bool := false
  lost   : Bool := false
  deriving DecidableEq, Repr

structure Cave where
  members : KMap CMember := []
  blks    : KMap CBlk := []
  supers  : KMap CSuper := []
  nextSb  : Nat := 0
  /-- Segments accepted, oldest first; the newest intent entry of each namespace: number and hash (R303, R304). -/
  segs    : List CSeg := []
  intents : KMap (Nat × BitVec 384) := []
  /-- The member command that runs: op and member (R312). -/
  cmd     : Option (Nat × Nat) := none
  rebuild : Bool := false
  /-- Pages of each block that the pass of affinage has read. -/
  patrol  : KMap Nat := []
  /-- A format has made the namespaces; time of the last update of the retention counts, ps (R308, R312). -/
  formatted : Bool := false
  retAt   : Nat := 0
  warned  : Bool := false
  deriving DecidableEq, Repr

/-! ### Audio (R315 to R332) -/

/-- A chime voice (R328). -/
structure Voice where
  on      : Bool := false
  /-- Domain it plays in, next sample of the sound, repetitions done, domain sample at which it may begin. -/
  dom     : Nat := 0
  pos     : Nat := 0
  loop    : Nat := 0
  fromPos : Nat := 0
  deriving DecidableEq, Repr

/-- A mixer output beside its registers (R329, R330). -/
structure AudOut where
  /-- Samples of y below the threshold in a row, and whether silence detection has it down. -/
  quiet   : Nat := 0
  down    : Bool := false
  /-- Resuming: samples stay zero until its pin's wake time ends. -/
  waking  : Bool := false
  /-- Largest absolute value of the period so far. -/
  peak    : Nat := 0
  /-- The last 96 samples put out, newest first. -/
  hist    : List W32 := []
  deriving DecidableEq, Repr

structure AudPin where
  /-- An output-enable pin: asserted, and when its wake time ends (R330). -/
  asserted : Bool := false
  wakeAt   : Nat := 0
  deriving DecidableEq, Repr

structure AudDom where
  /-- Index of the next sample to mix; for domain B the time in ps at which its synthesiser locked. -/
  pos     : Nat := 0
  origin  : Nat := 0
  /-- The tick of the period whose first sample is mixed has still to be given (R31). -/
  tickDue : Bool := false
  deriving DecidableEq, Repr

structure Aud where
  /-- Sample domains, mixer outputs, output pins and chime voices (R315, R328, R330). -/
  doms    : KMap AudDom := []
  outs    : KMap AudOut := []
  pins    : KMap AudPin := []
  voices  : KMap Voice := []
  /-- Received frames of a TDM port by sample position, newest first, and the position of its next frame; the samples leaving
  on it now (R317, R321). -/
  rx      : KMap (List (Nat × List W32)) := []
  rxNext  : KMap Nat := []
  tx      : KMap (List W32) := []
  /-- Received network samples by stream 16n + k: play position to channels (R322). -/
  net     : KMap (List (Nat × List W32)) := []
  /-- Transmit streams: position of the next packet's first sample, and the last packet sent. -/
  txPos   : KMap Nat := []
  sent    : KMap (List Byte) := []
  /-- The play ring's period now in the mixer (R323). -/
  play    : KMap (List W32) := []
  /-- The capture period being filled (R323). -/
  capture : KMap (List W32) := []
  deriving DecidableEq, Repr

/-! ### Touch engines (R333 to R349) -/

/-- A tracked contact (R341): identifier, position in 1/256 node, mapped position, peak, since when it is down. -/
structure Contact where
  id    : Nat
  px    : Int
  py    : Int
  x16   : Nat
  y16   : Nat
  peak  : Nat
  since : Nat
  long  : Bool := false
  deriving DecidableEq, Repr

/-- What an integrated engine follows in WATCH (R347): thresholds and tracking words, self baselines in 1/256 count by electrode (sense 0 to
47, drive 48 to 79), scans still to average and their sums, touched electrodes, the contact that is down and the tap before it. -/
structure TchWatch where
  thr     : W32 := 0
  track   : W32 := 0
  learn   : Nat := 4
  sums    : KMap Nat := []
  base    : KMap Int := []
  touched : KMap Bool := []
  /-- Down since when in ns; position there and now in 1/256 node; it begins a second tap; it has moved far enough in time. -/
  down    : Option Nat := none
  p0      : Int × Int := (0, 0)
  second  : Bool := false
  moved   : Bool := false
  /-- Lift of a tap, ns, and where it went down. -/
  tap     : Option (Nat × Int × Int) := none
  /-- The gesture is recognised and its wake is due. -/
  hit     : Bool := false
  deriving DecidableEq, Repr

structure Touch where
  /-- Time in ps of the rate timer's last tick; a scan waits for its window; a scan runs since when; it is a test scan. -/
  tickAt   : Nat := 0
  armed    : Bool := false
  scanning : Bool := false
  startAt  : Nat := 0
  testScan : Bool := false
  /-- TCH_CFG, TCH_GEOM and TCH_PULSE in force since the last scan start (R338). -/
  cfg      : W32 := 0
  geom     : W32 := 0
  pulse    : W32 := 0
  /-- Requests for the next scan start; the running scan rebases (R343, R345). -/
  rebase   : Bool := false
  selftest : Bool := false
  rebasing : Bool := false
  /-- Scans still to average into the baseline, and their sums (R342). -/
  learn    : Nat := 0
  sums     : KMap Nat := []
  /-- Baselines in 1/256 count, touched nodes, consecutive anti-touch scans. -/
  base     : KMap Int := []
  touched  : KMap Bool := []
  anti     : KMap Nat := []
  contacts : List Contact := []
  seq      : W32 := 0
  /-- Counts received over the link in this scan, and whether it is discarded (R335). -/
  steps    : KMap (List Nat) := []
  spoiled  : Bool := false
  /-- When the engine started, ps; windows of the running scan: pulses in each and ps from one to the next, 0 in FREE mode; pulses sent before
  `startAt` (R337, R338). -/
  since    : Nat := 0
  perWin   : Nat := 0
  winPs    : Nat := 0
  sent     : Nat := 0
  /-- The link transaction in progress, the time in ps of its command frame, and the command frames sent last: op and length, payload,
  CRC-8 (R336). -/
  tsl      : Option W32 := none
  tslAt    : Nat := 0
  tslOut   : List (List Byte) := []
  /-- Scanning for a gesture in WATCH (R347). -/
  watch    : Option TchWatch := none
  deriving DecidableEq, Repr

/-! ### Haptic channels (R350 to R363) -/

/-- An effect as copied when it starts or becomes pending: its index and four words. -/
structure HEff where
  e  : Nat
  w0 : W32
  w1 : W32
  w2 : W32
  w3 : W32
  deriving DecidableEq, Repr

structure Hpt where
  /-- The running effect, its segment's start and end in ps, the pending effect. -/
  eff     : Option HEff := none
  from_   : Nat := 0
  till    : Nat := 0
  pend    : Option HEff := none
  /-- At the next carrier period: leave for the brake, or start an urgent effect. -/
  leave   : Bool := false
  cut     : Option HEff := none
  /-- Enable: 0 low, 1 asserted and waiting, 2 ready; on the piezo stage or the bridge; when the wait or the hold ends. -/
  en      : Nat := 0
  pz      : Bool := true
  readyAt : Nat := 0
  holdAt  : Nat := 0
  /-- When the enable went low last (R350). -/
  offAt   : Nat := 0
  /-- Enables go low when the effect ends (R359). -/
  closing : Bool := false
  /-- The self-test's end. -/
  test    : Option Nat := none
  /-- Drive value, 65,535 for 1.0. -/
  drive   : Int := 0
  deriving DecidableEq, Repr

/-! ### Host interface (R364 to R377) -/

/-- A command of a queue in execution (R369). -/
structure HCmd where
  op   : Nat
  wait : Bool
  irq  : Bool
  cid  : Nat
  pay  : List Byte
  /-- It completes at the commit switch that reaches this epoch (COMMIT with wait, WAIT_EPOCH). -/
  till : Option W32 := none
  deriving DecidableEq, Repr

/-- A queue pair beside HOST_Q_STATUS (R368, R370, R371): doorbells, completion phase, commands started in this master tick. -/
structure HQueue where
  /-- Stopped on a full completion queue until CQ_HEAD moves (R371). -/
  stuck   : Bool := false
  tail    : Nat := 0
  cqHead  : Nat := 0
  phase   : Bool := true
  started : Nat := 0
  cur     : Option HCmd := none
  deriving DecidableEq, Repr

structure HostIf where
  /-- Queue pairs by 4p + q. -/
  queues  : KMap HQueue := []
  /-- MSI-X tables: word j of entry e of function p at (2048p + e)4 + j; the control word (j = 3) with bit 0 inverted, an entry
  being masked at reset. -/
  table   : KMap W32 := []
  /-- MSI-X pending bits by 2048p + e. -/
  pba     : KMap Bool := []
  /-- Time in ns at which a vector's count left 0 (R373). -/
  since   : KMap Nat := []
  /-- Vectors whose message waits on the link or function state (R374). -/
  held    : KMap Bool := []
  /-- PME_Status of a function (R374), and functions whose D3hot entry waits for a command in execution. -/
  pme     : KMap Bool := []
  toD3    : KMap Bool := []
  deriving DecidableEq, Repr

/-! ### Rogar (R378 to R396) -/

/-- A strip complete at the receiver: its header, its slot's address, when it was complete (ns). -/
structure RStrip where
  hdr  : StripHdr
  base : Nat
  at_  : Nat
  deriving DecidableEq, Repr

/-- An import beside its registers (R389, R390): the strip in reception with its origin, stream and first sequence number, the
bytes that have arrived, whether it is spoilt; the strips complete, by number; the last header; the strip last missed. -/
structure RglImp where
  src    : Nat := 0
  stream : Nat := 0
  seq0   : Nat := 0
  cur    : Option StripHdr := none
  got    : Nat := 0
  bad    : Bool := false
  strips : KMap (Option RStrip) := []
  last   : StripHdr := {}
  missed : Option (Nat × Nat) := none
  /-- Missing strips counted. -/
  count  : Nat := 0
  deriving DecidableEq, Repr

/-- An export beside its registers (R386 to R388): the record taken at the last snapshot and when, in ns, the frame and its
latch instant; seq_last and t_change of R254; the next strip to send; its path (port and hops) and whether it is suspended. -/
structure RglExp where
  snap    : SrcRec := {}
  snapAt  : Nat := 0
  frame   : Nat := 0
  latchAt : Nat := 0
  seqLast : W32 := 0
  tChange : Nat := 0
  nextK   : Nat := 0
  seq     : Nat := 0
  port    : Nat := 0
  suspended : Bool := false
  deriving DecidableEq, Repr

/-- A frame that waits to leave a port: when it came (ps), whether it is forwarded, and the time (ps) by which a strip frame is due
(R380, R387). -/
structure TxFrame where
  f   : RFrame
  at_ : Nat
  due : Nat
  deriving DecidableEq, Repr

structure Rgl where
  /-- The members met along each port, nearest first (R383). -/
  along  : KMap (List WheelNode) := []
  /-- Time and control frames sent and not acknowledged, with their resends and port (R379). -/
  unacked : List (Nat × Nat × RFrame) := []
  /-- Frames that wait to leave each port, in the order they came (R380), and when its direction is free again (ps). -/
  txq    : KMap (List TxFrame) := []
  txAt   : KMap Nat := []
  /-- The frames that left each port last, in the order they left. -/
  sent   : KMap (List RFrame) := []
  imps   : KMap RglImp := []
  exps   : KMap RglExp := []
  ctlSeq : Nat := 0
  /-- When the next time frames are due (ps), one per link per 125 µs (R385). -/
  timeAt : Nat := 0
  deriving DecidableEq, Repr

/-! ### Power (R397 to R409) -/

structure Pwr where
  /-- The sleep state the device is in: 0 ACTIVE, 1 WATCH, 2 REST, 3 OFF (R402). -/
  asleep   : Nat := 0
  /-- A thermal trip since the last chip reset: THERM_TRIP# is low (R401, R436). -/
  tripped  : Bool := false
  /-- A wake held until the entry has finished, or that ends the sleep: cause and unit (R403). -/
  wake     : Option (Nat × Nat) := none
  /-- Level requests not yet in force: PTP ns at which each came, and the level L of R400 it makes. -/
  asks     : List (Nat × Nat) := []
  /-- The level whose voltage the regulator has acknowledged, and when (ns). -/
  volt     : Nat := 0
  voltAt   : Nat := 0
  /-- Thermal protection: time in ps of the last sample, of the last lowering or raising of the cap (ns), since when the device is
  cool (ns), and whether the warning condition holds. -/
  sampleAt : Nat := 0
  capAt    : Option Nat := none
  coolAt   : Option Nat := none
  crossed  : Bool := false
  /-- PTP ns at which the transitions of the last domain request end (R407). -/
  busyTill : Nat := 0
  /-- Time in ps of the WAITS of the last committed sleep entry: the timer counts from it, the entry ends 20 µs later at most (R404). -/
  sleptAt  : Nat := 0
  deriving DecidableEq, Repr

/-! ### Boot (R410 to R419) -/

structure Boot where
  /-- The manifest copies in boot flash, A and B (R410). -/
  copyA    : List Byte := []
  copyB    : List Byte := []
  /-- The booted copy: its bytes, and where it came from: 0 copy A, 1 copy B, 2 Shared Store bank 0. -/
  copy     : List Byte := []
  source   : Nat := 0
  /-- SHA-384 of the booted copy, held in domain 0 (R416). -/
  hash     : BitVec 384 := 0
  /-- The starter runs, and publishes the telltale's surface at this address (R413, R414). -/
  starter  : Bool := false
  telltale : Nat := 0
  /-- The PCIe link has been released (R413); boot ended in recovery (R415). -/
  released : Bool := false
  recovery : Bool := false
  /-- A wake from WATCH or REST has restored the domains: the warm path is to follow (R405, R416). -/
  warmDue  : Bool := false
  deriving DecidableEq, Repr

/-- Everything the commands act on: registers, memory and what the blocks hold. -/
structure Core where
  /-- The variant (R1); no command changes it. -/
  var : Variant := { part := .T16W, dieStep := 0 }
  /-- The time base, in ps: EVR_TSTAMP counts 625 ps (R27); it never runs back. -/
  now : Nat := 0
  /-- PTP time less the time base, in ns: moved only by phase steps (R29). -/
  ptpOff : Int := 0
  /-- Every software-visible register that does not hold its reset value. -/
  regs : List (Reg × W32) := []
  /-- Owner records by kind and index (R121); absent: partition 0, not granted. -/
  owners : KMap Owner := []
  /-- Bytes of the 48-bit space and, from 2^63, of host memory that are not zero. -/
  mem : List Host.Cell := []
  /-- Bytes the running command stores, newest first; empty between commands. -/
  posted : List Host.Cell := []
  /-- Flipped bits of an on-chip 8-byte word, 1 or 2 (R57, R134), by word address. -/
  flips : KMap Nat := []
  /-- 64-byte bursts and 8-byte words marked poisoned (R134, R139). -/
  poison : KMap Bool := []
  /-- The last completion returned to a requester: status and read data. -/
  resp : Resp := {}
  /-- The MODEL's own counter of free values drawn; no statement rests on it. -/
  free : Nat := 0
  /-- HI halves latched by reads of LO halves, by requester and register (R426). -/
  loLatch : KMap (Option W32) := []
  /-- Event Router. -/
  evr : Evr := {}
  /-- Configuration journal. -/
  jnl : Journal := {}
  /-- Tick Generator. -/
  tkg : Tkg := {}
  /-- Admission Checker. -/
  adm : Adm := {}
  /-- Sequencers by number. -/
  seqs : KMap Seq := []
  /-- Their tick accounting. -/
  seqTicks : KMap SeqTick := []
  /-- What the partitions' grants leave, 64 the secure world's claims. -/
  parts : KMap PartRec := []
  /-- Resets and destructions in progress. -/
  partRuns : KMap PartRun := []
  /-- Page Owner Table block and paired storage. -/
  pot : Pot := {}
  /-- Sequencer cycles since chip reset up to `cycAt` (CYC of R56), times 10^6 (ps times MHz). -/
  cycNum : Nat := 0
  /-- The time in ps up to which `cycNum` counts. -/
  cycAt : Nat := 0
  /-- The image-signing key of the boot manifest (R79, R411), set when the starter reads it. -/
  bootKeys : List Byte := []
  /-- DRAM controller. -/
  dmc : Dmc := {}
  /-- DMA channels by device-wide number. -/
  dmas : KMap Dma := []
  /-- CRC units. -/
  crcs : KMap Crc := []
  /-- Source slots beside their registers. -/
  slots : KMap Slot := []
  /-- Late (2n) and unbound (2n + 1) packets of NET port n (R188). -/
  netCnt : KMap Nat := []
  /-- Decoder contexts 32v + x beside their registers. -/
  vctxs : KMap VCtx := []
  /-- Display heads beside their registers. -/
  heads : KMap Head := []
  /-- Transmitters beside their registers. -/
  dpts : KMap Dpt := []
  /-- CSI_TRIG in force by port since its head's last vertical-blanking start (R183). -/
  trig : KMap W32 := []
  /-- Start and end in ps of the last CSI_TRIG pulse of each port (R183). -/
  pulses : KMap (Nat × Nat) := []
  /-- Encoder streams 8e + x beside their registers. -/
  encs : KMap EncStream := []
  /-- Window caches of the encoders. -/
  encCaches : KMap EncCache := []
  /-- Witness recorder. -/
  wit : Wit := {}
  /-- The flash store. -/
  cave : Cave := {}
  /-- Audio block. -/
  aud : Aud := {}
  /-- Touch engines beside their registers. -/
  tchs : KMap Touch := []
  /-- Haptic channels beside their registers. -/
  hpts : KMap Hpt := []
  /-- Host interface beside its registers. -/
  hostIf : HostIf := {}
  /-- Rogar links and the wheel beside their registers. -/
  rgl : Rgl := {}
  /-- Power controller beside its registers. -/
  pwr : Pwr := {}
  /-- Boot flash, and what the starter keeps. -/
  boot : Boot := {}
  /-- Layer engines whose unit reset waits for their head's next latch (R417). -/
  leResets : KMap Bool := []
  deriving DecidableEq, Repr

/-- The state: the block, and the commands that wait, first in first out. -/
structure State where
  core    : Core := {}
  pending : List Instr := []
  deriving DecidableEq, Repr

/-- The block right after reset: every register at the value the spec gives (none differs from it, so none is listed), no
command waiting. The variant is a T16W (log entry 2). -/
def State.reset : State := {}

end Sys2Proof.Machine
end

