-- ==== Sys2Proof/Machine/Ops.lean ====
section
/-! DEFINITION. The shared operations over State: sparse maps, bit fields, the table of variants, registers at their reset
or written values, owner records, memory, the levels of event sources, the journal. Every meaning is built from these. -/

namespace Sys2Proof.Machine

open Sys2Proof

/-! ### Sparse maps -/

/-- The value at key `k`, `d` when absent. -/
def kget {κ α : Type} [DecidableEq κ] (d : α) : List (κ × α) → κ → α
  | [], _ => d
  | (k, v) :: m, q => if k = q then v else kget d m q

/-- Without any entry at key `k`. -/
def kdel {κ α : Type} [DecidableEq κ] : List (κ × α) → κ → List (κ × α)
  | [], _ => []
  | (k, v) :: m, q => if k = q then kdel m q else (k, v) :: kdel m q

/-- With `(q, w)` put before the first entry of a larger key. -/
def kins {κ α : Type} (lt : κ → κ → Bool) : List (κ × α) → κ → α → List (κ × α)
  | [], q, w => [(q, w)]
  | (k, v) :: m, q, w => if lt q k then (q, w) :: (k, v) :: m else (k, v) :: kins lt m q w

/-- Key `q` set to `w`, a default value taking its entry away. -/
def ksetBy {κ α : Type} [DecidableEq κ] [DecidableEq α] (lt : κ → κ → Bool) (d : α) (m : List (κ × α)) (q : κ) (w : α) :
    List (κ × α) :=
  if w = d then kdel m q else kins lt (kdel m q) q w

/-- `ksetBy` for natural-number keys. -/
def kset {α : Type} [DecidableEq α] (d : α) (m : KMap α) (q : Nat) (w : α) : KMap α :=
  ksetBy (fun a b => decide (a < b)) d m q w

/-- The order of registers in the register map. -/
def Reg.lt (a b : Reg) : Bool :=
  let x := a.fam.ctorIdx
  let y := b.fam.ctorIdx
  if x ≠ y then decide (x < y) else if a.i ≠ b.i then decide (a.i < b.i) else decide (a.j < b.j)

/-! ### Numbers and bit fields -/

/-- Field `hi:lo` of a word. -/
def fld (v : W32) (hi lo : Nat) : Nat := (v.toNat >>> lo) % 2 ^ (hi - lo + 1)

/-- Bit `i` of a word. -/
def bit (v : W32) (i : Nat) : Bool := (v.toNat >>> i) % 2 = 1

/-- The word with field `hi:lo` replaced by `n`. -/
def setFld (v : W32) (hi lo n : Nat) : W32 :=
  let w := 2 ^ (hi - lo + 1)
  BitVec.ofNat 32 (v.toNat - fld v hi lo * 2 ^ lo + (n % w) * 2 ^ lo)

/-- The word with bit `i` set to `b`. -/
def setBit (v : W32) (i : Nat) (b : Bool) : W32 := setFld v i i (if b then 1 else 0)

/-- A number as a word. -/
def w32 (n : Nat) : W32 := BitVec.ofNat 32 n

/-- A number as a 64-bit word. -/
def w64 (n : Nat) : W64 := BitVec.ofNat 64 n

/-- `n` held at `top`. -/
def sat (top n : Nat) : Nat := if n < top then n else top

/-- Quotient rounded up; 0 for a divisor of 0. -/
def ceilDiv (a b : Nat) : Nat := if b = 0 then 0 else (a + b - 1) / b

/-- The two halves of a 64-bit value. -/
def lo32 (n : Nat) : W32 := w32 (n % 4294967296)
def hi32 (n : Nat) : W32 := w32 (n / 4294967296)

/-- The positions of the bits set in a word, in rising order. -/
def bitsOf (v : W32) : List Nat := (List.range 32).filter (fun i => bit v i)

/-- A byte list as a little-endian number. -/
def leNat : List Byte → Nat
  | [] => 0
  | b :: bs => b.toNat + 256 * leNat bs

/-- A number as `n` little-endian bytes. -/
def leBytes : Nat → Nat → List Byte
  | 0, _ => []
  | k + 1, n => BitVec.ofNat 8 n :: leBytes k (n / 256)

/-! ### The variants (R2, R3) -/

/-- Unit counts of a part (the table of R2). -/
structure Counts where
  heads : Nat
  le : Nat
  dram : Nat
  vde : Nat
  vee : Nat
  rogar : Nat
  net : Nat
  csi : Nat
  tchInt : Nat
  tchExt : Nat
  hpt : Nat
  secure : Bool
  pkgB : Bool
  series : Nat
  deriving DecidableEq, Repr

/-- The table of R2; series codes as in SYS_CAP0 (R9). -/
def Part.counts : Part → Counts
  | .T16W => ⟨16, 64, 16, 8, 4, 2, 4, 4, 0, 4, 4, true, true, 1⟩
  | .T12W => ⟨12, 56, 16, 8, 4, 2, 4, 4, 0, 4, 4, true, true, 1⟩
  | .T08W => ⟨8, 48, 12, 6, 3, 2, 4, 4, 0, 4, 4, true, true, 1⟩
  | .T16C => ⟨16, 64, 16, 8, 4, 1, 2, 8, 4, 4, 8, true, true, 2⟩
  | .T12C => ⟨12, 56, 12, 6, 3, 1, 2, 8, 4, 4, 8, true, true, 2⟩
  | .T08C => ⟨8, 48, 8, 4, 2, 0, 2, 8, 4, 2, 8, true, false, 2⟩
  | .T06C => ⟨6, 44, 8, 4, 2, 0, 2, 6, 4, 0, 6, true, false, 2⟩
  | .T08D => ⟨8, 48, 8, 4, 2, 0, 2, 2, 4, 4, 8, true, false, 3⟩
  | .T04D => ⟨4, 40, 8, 2, 1, 0, 2, 2, 4, 0, 4, true, false, 3⟩
  | .T16N => ⟨16, 64, 16, 8, 4, 2, 4, 4, 0, 4, 4, false, true, 4⟩
  | .T08N => ⟨8, 48, 8, 4, 2, 0, 2, 2, 0, 4, 4, false, false, 4⟩
  | .T16E => ⟨16, 64, 16, 8, 0, 2, 4, 0, 0, 0, 0, true, true, 5⟩

def Core.counts (c : Core) : Counts := c.var.part.counts

/-- The part has a secure world (R7). -/
def Core.secure (c : Core) : Bool := c.counts.secure

/-- Touch engine `t` is present: integrated front ends are engines 0 to 3, Touch Sample Link engines 4 to 7 (R2, R333). -/
def touchPresent (k : Counts) (t : Nat) : Bool := if t < 4 then t < k.tchInt else t - 4 < k.tchExt && t < 8

/-- Power domain `d` holds a unit that the variant has (R397). -/
def domainPresent (k : Counts) (d : Nat) : Bool :=
  if d = 13 then decide (k.heads > 8)
  else if d = 15 then decide (k.vde > 4)
  else if d = 18 then decide (k.dram > 8)
  else if d = 20 then decide (k.rogar > 0)
  else decide (d < 24)

/-- The instance that owns an event source is absent (R5, R84). -/
def srcAbsent (k : Counts) (s : Nat) : Bool :=
  if s < 96 then decide (69 + k.heads ≤ s ∧ s < 85)
  else if s < 224 then decide (k.heads ≤ (s - 96) / 8)
  else if s < 288 then decide (k.le ≤ s - 224)
  else if s < 352 then decide (k.vde ≤ (s - 288) / 8)
  else if s < 368 then decide (k.vee ≤ (s - 352) / 4)
  else if 768 ≤ s ∧ s < 784 then decide (k.dram ≤ s - 768)
  else if 864 ≤ s ∧ s < 896 then !touchPresent k ((s - 864) / 4)
  else if 896 ≤ s ∧ s < 912 then decide (k.hpt ≤ (s - 896) / 2)
  else if 912 ≤ s ∧ s < 920 then decide (k.csi ≤ s - 912)
  else if 920 ≤ s ∧ s < 924 then decide (k.net ≤ s - 920)
  else if 924 ≤ s ∧ s < 928 then decide (k.net ≤ s - 924)
  else if 932 ≤ s ∧ s < 940 then decide (k.csi ≤ s - 932)
  else if 944 ≤ s ∧ s < 960 then decide (k.rogar = 0)
  else false

/-- Sources that the event tables reserve: they never fire (R32, R152, and the event tables of the witness, cave, audio, CSI and NET,
Rogar and host chapters). -/
def srcReserved (s : Nat) : Bool :=
  (88 ≤ s && s < 96) || (374 ≤ s && s < 384) || (791 ≤ s && s < 800) || (813 ≤ s && s < 832) || (853 ≤ s && s < 864)
    || (940 ≤ s && s < 944) || (951 ≤ s && s < 960) || (966 ≤ s && s < 976)

/-- Sources whose Event Router registers read zero and ignore writes: those of absent instances (R5), and 88 to 95 and 791 to 799
(R32, R152). -/
def srcZero (k : Counts) (s : Nat) : Bool := srcAbsent k s || (88 ≤ s && s < 96) || (791 ≤ s && s < 800)

/-- The instance that owns register `r` is present in the variant (R4, R5). -/
def regPresent (k : Counts) (r : Reg) : Bool :=
  match r.fam.info.own with
  | .head => decide (r.i < k.heads)
  | .layer => decide (r.i < k.heads) && (k.secure || decide (r.j < 30))
  | .le => decide (r.i < k.le)
  | .touch => touchPresent k r.i
  | .haptic => decide (r.i < k.hpt)
  | .dpt => decide (2 * r.i < k.heads)
  | .dramCh => decide (r.i < k.dram)
  | .csi => decide (r.i < k.csi)
  | .net => decide (r.i < k.net)
  | .rogar => decide (r.i < k.rogar)
  | .wheel | .exp | .imp => decide (0 < k.rogar)
  | .vde | .vdeCtx | .vdeCtxBits => decide (r.i < k.vde)
  | .vee | .veeStr => decide (r.i < k.vee)
  | .evSrc => !srcZero k r.i
  | _ => k.secure || !(r.fam = .AUD_CHIME_CFG || r.fam = .AUD_CHIME_SRC || r.fam = .AUD_CHIME_GO)

/-- SYS_CAP0 to SYS_CAP3 (R9). -/
def capWord (v : Variant) : Nat → Nat
  | 0 => let k := v.part.counts
         (if k.pkgB then 0xB else 0xC) * 2 ^ 28 + k.series * 2 ^ 24 + v.dieStep % 256 * 2 ^ 16 + k.dram * 2 ^ 8 + k.heads
  | 1 => let k := v.part.counts
         k.vde * 2 ^ 28 + k.vee * 2 ^ 24 + k.net * 2 ^ 20 + k.rogar * 2 ^ 18 + k.csi * 2 ^ 14 + k.tchInt * 2 ^ 10
           + k.tchExt * 2 ^ 6 + k.hpt * 4
  | 2 => 0x80800040 + v.part.counts.le * 256
  | _ => let k := v.part.counts
         (if k.secure then 0xD0000000 else 0) + (if k.vee > 0 then 0x20000000 else 0) + 0x04400000

/-- The kind of an event source (R84): 0 L, 1 E, 2 P. -/
def srcKind (s : Nat) : Nat := if s < 96 then 1 else if s ≥ 992 then 2 else 0

/-- The default latency target of a QoS port (R141). -/
def portDefault (q : Nat) : Nat :=
  if q < 16 then 2000 else if q < 20 then 4000 else if q < 26 then 8000 else if q < 29 then 4000
  else if q = 29 then 2000 else if q = 30 then 16000 else 2000

/-- What a register reads after reset (the Reset column of its table; log entries 3 and 4 where the table gives none). -/
def regReset (v : Variant) (r : Reg) : W32 :=
  match r.fam.info.rst with
  | .const n => w32 n
  | .fused =>
    match r.fam with
    | .SYS_CAP0 => w32 (capWord v 0)
    | .SYS_CAP1 => w32 (capWord v 1)
    | .SYS_CAP2 => w32 (capWord v 2)
    | .SYS_CAP3 => w32 (capWord v 3)
    | .SYS_BOOT_STATUS => 0
    | .TCH_STATUS => if touchPresent v.part.counts r.i then (if r.i < 4 then 0x80000000 else 0xC0000000) else 0
    | _ => if regPresent v.part.counts r then 0x80000000 else 0
  | .kind => w32 (srcKind r.i * 2 ^ 22)
  | .dom => if domainPresent v.part.counts r.i then 0 else 0xA0000000
  | .hold => w32 (r.i / 16 * 256)
  | .layer => if v.part.counts.secure && decide (r.j = 30 ∨ r.j = 31) then 0x80000000 else 0
  | .part => if r.i = 0 then 0x20000000 else 0
  | .region => if r.j % 2 = 0 then 0x0F0F else 0
  | .port => w32 (portDefault r.i)

/-! ### Registers -/

/-- A register of a family with one instance. -/
def rg0 (f : Fam) : Reg := { fam := f }
/-- Register of instance `i`. -/
def rg (f : Fam) (i : Nat) : Reg := { fam := f, i := i }
/-- Register `j` of instance `i`. -/
def rg2 (f : Fam) (i j : Nat) : Reg := { fam := f, i := i, j := j }

/-- The stored value of a register. -/
def Core.rd (c : Core) (r : Reg) : W32 := kget (regReset c.var r) c.regs r

/-- A register set to a value, no event source following it. -/
def Core.wr (c : Core) (r : Reg) (v : W32) : Core :=
  { c with regs := ksetBy Reg.lt (regReset c.var r) c.regs r v }

def Core.rdF (c : Core) (r : Reg) (hi lo : Nat) : Nat := fld (c.rd r) hi lo
def Core.rdB (c : Core) (r : Reg) (i : Nat) : Bool := bit (c.rd r) i
def Core.rdN (c : Core) (r : Reg) : Nat := (c.rd r).toNat

/-- A 64-bit register pair as a number, and setting one. -/
def Core.rdPair (c : Core) (l h : Reg) : Nat := c.rdN l + c.rdN h * 4294967296
def Core.wrPair (c : Core) (l h : Reg) (n : Nat) : Core := (c.wr l (lo32 n)).wr h (hi32 n)

/-! ### Time -/

/-- The time base in ns: what durations are counted on. -/
def Core.mono (c : Core) : Nat := c.now / 1000
/-- PTP time in ns (R28). -/
def Core.ns (c : Core) : Nat := ((c.now / 1000 : Nat) + c.ptpOff).toNat
/-- The time base in ps at a PTP time in ns, and PTP time in ns at a time base in ps. -/
def Core.psOf (c : Core) (t : Nat) : Nat := ((t : Int) - c.ptpOff).toNat * 1000
def Core.ptpOf (c : Core) (ps : Nat) : Nat := ((ps / 1000 : Nat) + c.ptpOff).toNat
/-- EVR_TSTAMP: 1.6 GHz, 32 bits (R27). -/
def Core.tstamp (c : Core) : W32 := w32 (c.now / 625)
/-- Time advanced to `t` ps, never back. -/
def Core.upTo (c : Core) (t : Nat) : Core := if c.now < t then { c with now := t } else c

/-- A free value: a value the spec leaves open, opaque, drawn once. -/
def Core.tick (c : Core) : Core := { c with free := c.free + 1 }
/-- `n` free bytes. -/
def Core.drawBytes (c : Core) (n : Nat) : Core × List Byte :=
  ({ c with free := c.free + n }, (List.range n).map (fun i => (Config.freeWord (c.free + i)).setWidth 8))

/-! ### Owner records (R121) -/

/-- Owner kinds of POT_OWN_SEL, and 0xC to 0xE for the endpoints of R111 (CSI port, TDM port, sample ring). -/
def ownKey (kind idx : Nat) : Nat := kind * 65536 + idx

/-- The owner of an item; banks 30 and 31 belong to the secure world where there is one (R17). -/
def Core.owner (c : Core) (kind idx : Nat) : Owner :=
  if kind = 8 ∧ idx ≥ 30 then { granted := c.secure, world := c.secure, part := 0 }
  else kget {} c.owners (ownKey kind idx)

/-- The paired store of an owner record and of a cached POT entry among `Pot.copies`; registers stand at their addresses (R125). -/
def pairOwner (kind idx : Nat) : Nat := 1099511627776 + ownKey kind idx
def pairPage (page : Nat) : Nat := 2199023255552 + page

/-- An accepted write sets every copy of a paired store (R125). -/
def Core.repair (c : Core) (key : Nat) : Core := { c with pot := { c.pot with copies := kset none c.pot.copies key none } }

/-- The primary copy no longer matches the complement (R125). -/
def pairBroken (p : Option PairCopy) : Bool :=
  match p with
  | some x => x.primary != ~~~x.complement
  | none => false

/-- An owner record, a complement-paired value, written (R121, R125). -/
def Core.setOwner (c : Core) (kind idx : Nat) (o : Owner) : Core :=
  ({ c with owners := kset {} c.owners (ownKey kind idx) o } : Core).repair (pairOwner kind idx)

/-! ### Sequencers -/

def Core.seq (c : Core) (n : Nat) : Seq := kget {} c.seqs n
def Core.setSeq (c : Core) (n : Nat) (q : Seq) : Core := { c with seqs := kset {} c.seqs n q }
def Core.st (c : Core) (n : Nat) : SeqTick := kget {} c.seqTicks n
def Core.setSt (c : Core) (n : Nat) (q : SeqTick) : Core := { c with seqTicks := kset {} c.seqTicks n q }

/-- The owner tag a requester's requests carry (R107). A service call carries the secure tag (R74). The starter and, for the
secure enables, debug act for the secure world (partition 0 on the N series, R110). -/
def Core.tag (c : Core) : Agent → Owner
  | .host f => { granted := true, part := f }
  | .seq n => if (c.seq n).inCall && c.secure then { granted := true, world := true }
              else { c.owner 3 n with granted := true }
  | .dma n => { c.owner 4 n with granted := true }
  | .starter => { granted := true, world := c.secure, boot := true }
  | .debug => { granted := true }

/-- Class and unit of POT_FAULT_INFO and of a journal origin (R109, R420). -/
def agCls : Agent → Nat × Nat
  | .seq n => (0, n)
  | .dma n => (1, n)
  | .host f => (4, f)
  | .starter => (5, 0)
  | .debug => (5, 1)

/-- A number for each requester, for maps keyed by requester. -/
def agKey : Agent → Nat
  | .seq n => n * 8
  | .dma n => n * 8 + 1
  | .host f => f * 8 + 4
  | .starter => 5
  | .debug => 13

/-- The tag has the secure world's rights: the secure world, or partition 0 on the N series (R110). -/
def Core.isSecure (c : Core) (t : Owner) : Bool := t.world || (!c.secure && t.part = 0)
/-- The submitter's window: the partition's, 64 the secure world's (R40). -/
def winOf (t : Owner) : Nat := if t.world then 64 else t.part
/-- The tag is partition 0's. -/
def isP0 (t : Owner) : Bool := !t.world && t.part = 0

/-! ### Memory -/

/-- Where host memory begins in the model's address space: bit 63 set (log entry 6). -/
def hostBase : Nat := 9223372036854775808

/-- The byte at an address, 0 where nothing is listed (R135 for the Shared Store; log entry 5 elsewhere). -/
def memByte : List Host.Cell → Nat → Byte
  | [], _ => 0
  | (a, b) :: m, q => if a = q then b else memByte m q

/-- The byte written: canonical form kept, a zero byte listed nowhere. -/
def memSet (m : List Host.Cell) (a : Nat) (b : Byte) : List Host.Cell := kset 0 m a b

/-- Posted bytes, newest first, laid into memory. -/
def flush : List Host.Cell → List Host.Cell → List Host.Cell
  | m, [] => m
  | m, (a, b) :: ps => memSet (flush m ps) a b

/-- The 32 bytes of a journal entry (R420). -/
def JEntry.bytes (e : JEntry) : List Byte :=
  leBytes 8 e.time.toNat ++ leBytes 4 e.seq.toNat ++ leBytes 4 e.origin.toNat ++ leBytes 1 e.kind ++ leBytes 1 e.status
    ++ leBytes 2 e.count ++ leBytes 4 e.addr.toNat ++ leBytes 4 e.value.toNat ++ leBytes 4 e.aux.toNat

/-- A byte of banks 30 and 31 where the ring has an entry (R421). -/
def Core.ringByte (c : Core) (a : Nat) : Option Byte :=
  if 0x1E00000 ≤ a ∧ a < 0x2000000 then
    let e := kget {} c.jnl.ring ((a - 0x1E00000) / 32)
    if e.kind = 0 then none else some (e.bytes.getD (a % 32) 0)
  else none

/-- A byte as the running command sees it: the ring's entries in their banks, what the command stored, memory. -/
def Core.byte (c : Core) (a : Nat) : Byte :=
  match c.ringByte a with
  | some b => b
  | none =>
  match c.posted.find? (fun x => x.1 = a) with
  | some x => x.2
  | none => memByte c.mem a

def Core.bytes (c : Core) (a : Nat) : Nat → List Byte
  | 0 => []
  | n + 1 => c.byte a :: c.bytes (a + 1) n

/-- `n` bytes as a little-endian number. -/
def Core.load (c : Core) (a n : Nat) : Nat := leNat (c.bytes a n)

def Core.store (c : Core) (a : Nat) : List Byte → Core
  | [] => c
  | b :: bs => Core.store { c with posted := (a, b) :: c.posted } (a + 1) bs

/-- `n` zero bytes. -/
def Core.zero (c : Core) (a n : Nat) : Core := c.store a (List.replicate n 0)

/-- Every listed byte in the range cleared, without naming the unlisted ones, with valid check bits (R128, R135). -/
def Core.clearRange (c : Core) (a n : Nat) : Core :=
  let inside (x : Nat) : Bool := decide (a ≤ x ∧ x < a + n)
  let hit := (c.mem ++ c.posted).filter (fun x => inside x.1)
  let c := hit.foldl (fun (d : Core) x => { d with posted := (x.1, 0) :: d.posted }) c
  { c with flips := c.flips.filter (fun e => !inside e.1), poison := c.poison.filter (fun e => !inside e.1) }

/-! ### The address map (R14, R15) -/

/-- What lies at a device address. -/
inductive Place where
  | shared (bank : Nat)
  | localMem (seq off : Nat)
  | control
  | rom
  | dram
  | host
  | unmapped
  deriving DecidableEq, Repr

/-- The first address above the DRAM window (R15). -/
def dramEnd (k : Counts) : Nat := 0x1000000000 + k.dram * 3758096384

def Core.place (c : Core) (a : Nat) : Place :=
  if a < 0x2000000 then .shared (a / 0x100000)
  else if 0x10000000 ≤ a ∧ a < 0x11000000 then .localMem ((a - 0x10000000) / 0x40000) ((a - 0x10000000) % 0x40000)
  else if 0x20000000 ≤ a ∧ a < 0x22000000 then .control
  else if 0x30000000 ≤ a ∧ a < 0x30040000 then .rom
  else if 0x1000000000 ≤ a ∧ a < dramEnd c.counts then .dram
  else if hostBase ≤ a then .host
  else .unmapped

/-- The 8-byte words a range touches. -/
def wordsIn (a n : Nat) : List Nat := if n = 0 then [] else (List.range ((a + n - 1) / 8 - a / 8 + 1)).map (fun i => a / 8 * 8 + 8 * i)

/-! ### DRAM mapping (R136) -/

/-- The DRAM channel of a device address. -/
def dramChannel (nch a : Nat) : Nat := (a - 0x1000000000) / 256 % nch
/-- The burst address, 64-byte aligned. -/
def burstOf (a : Nat) : Nat := a / 64 * 64
/-- The bursts a range touches. -/
def burstsIn (a n : Nat) : List Nat :=
  if n = 0 then [] else (List.range ((a + n - 1) / 64 - a / 64 + 1)).map (fun i => burstOf a + 64 * i)

/-- Where a burst lies in its device. -/
structure DramPos where
  channel : Nat
  group   : Nat
  bank    : Nat
  row     : Nat
  col     : Nat
  deriving DecidableEq, Repr

/-- The place of a device address. -/
def dramMap (nch a : Nat) : DramPos :=
  let b := (a - 0x1000000000) / 64
  let q := b / (4 * nch) * 4 + b % 4
  let r := q / 64 * 4 + q % 4
  { channel := b / 4 % nch, group := q / 4 % 16 / 4, bank := q / 4 % 16, row := r / 28, col := r % 28 }

/-- Burst `q` of a channel as a device address: the mapping backwards. -/
def dramAt (nch ch q : Nat) : Nat := 0x1000000000 + ((q / 4 * nch + ch) * 4 + q % 4) * 64

/-! ### Power domains -/

/-- Power domain `d` is on (R397, PWR_DOM_STATE). -/
def Core.domOn (c : Core) (d : Nat) : Bool := c.rdF (rg .PWR_DOM_STATE d) 31 29 = 0

/-- The power domain of a memory (R397). -/
def Core.memDomain (c : Core) (a : Nat) : Nat :=
  match c.place a with
  | .shared b => 6 + b / 8
  | .localMem n _ => 2 + n / 16
  | .dram => 17 + dramChannel c.counts.dram a / 8
  | _ => 1

/-- The memory at an address has power: isolation clamps the data of one that has not (R398; log entry 194). -/
def Core.memOn (c : Core) (a : Nat) : Bool := c.domOn (c.memDomain a)

end Sys2Proof.Machine
end

