-- ==== Sys2Proof/Machine/Levels.lean ====
section
/-! DEFINITION. Event sources and the registers that hold them: which level each L source follows (R85 and the event tables
of the chapters), which sources follow a register, and what a new level or event does in the Event Router. -/

namespace Sys2Proof.Machine

open Sys2Proof

/-- Some register of the family, over the instances given, satisfies the test. -/
def anyReg (c : Core) (f : Fam) (n : Nat) (p : W32 → Bool) : Bool := (List.range n).any (fun i => p (c.rd (rg f i)))

/-- The pin's filtered level after its polarity (R89). -/
def pinActive (c : Core) (p : Nat) : Bool := c.rdB (rg0 .EVR_PIN_FILT) p != c.rdB (rg .EVR_PIN_CFG p) 1

/-- Every sync loss or back bit of the source table. -/
def anySlotBit (c : Core) (f : Fam) : Bool := anyReg c f 32 (fun v => v != 0)

/-- The level an L source's block holds (R85): the register bit or bits that the chapter's event table names. Sources whose
block has no cause register (786, 787, 788, 368 to 371, 373 and link changes on 920 to 923) hold no level of their own (log entry 7); a
link failure on 912 to 919, 924 to 927 and 372 hold one that no register shows. -/
def levelOf (c : Core) (s : Nat) : Bool :=
  if s < 96 then false
  else if s < 224 then c.rdB (rg .HD_EVT ((s - 96) / 8)) ((s - 96) % 8)
  else if s < 288 then c.rd (rg .LE_FAULT (s - 224)) != 0
  else if s < 352 then c.rd (rg2 .VDE_EVT ((s - 288) / 8) ((s - 288) % 8)) != 0
  else if s < 368 then c.rdB (rg .VEE_EVT ((s - 352) / 4)) ((s - 352) % 4)
  else if s < 384 then s = 372 && kget false c.evr.blk s
  else if s < 640 then c.rdB (rg .DMA_CH_STATUS ((s - 384) / 2)) (4 + (s - 384) % 2)
  else if s < 768 then c.rdF (rg .CRC_STATUS (s - 640)) 5 1 != 0
  else if s < 784 then
    let h := s - 768
    c.rdB (rg .DMC_CH_ERR_INFO h) 31 || c.rdF (rg .DMC_CH_STATUS h) 2 0 == 5 ||
      (c.rdF (rg0 .DMC_ERR_THRESH) 15 0 != 0 && decide (c.rdF (rg0 .DMC_ERR_THRESH) 15 0 ≤ c.rdN (rg .DMC_CH_CORR h)))
  else if s = 784 then anyReg c .DMC_CH_STATUS 16 (fun v => bit v 16)
  else if s = 785 then anyReg c .DMC_PORT_LATE 32 (fun v => v != 0)
  else if s = 789 then c.rdB (rg0 .DMC_SS_ERR_INFO) 31
  else if s = 790 then
    c.rdF (rg0 .DMC_ERR_THRESH) 31 16 != 0 && decide (c.rdF (rg0 .DMC_ERR_THRESH) 31 16 ≤ c.rdN (rg0 .DMC_SS_CORR))
  else if s < 800 then false
  else if s < 832 then c.rdB (rg0 .CAVE_EVT) (s - 800)
  else if s < 864 then c.rdB (rg0 .AUD_EVT) (s - 832)
  else if s < 896 then c.rdB (rg .TCH_EVT ((s - 864) / 4)) ((s - 864) % 4)
  else if s < 912 then c.rdB (rg .HPT_EVT ((s - 896) / 2)) ((s - 896) % 2)
  else if s < 920 then c.rd (rg .CSI_ERR (s - 912)) != 0 || kget false c.evr.blk s
  else if s < 924 then c.rdB (rg .NET_PORT_STATUS (s - 920)) 1
  else if s < 928 then kget false c.evr.blk s
  else if s = 928 then anySlotBit c .SYS_SRC_LOST
  else if s = 929 then anySlotBit c .SYS_SRC_BACK
  else if s < 932 then c.rdB (rg0 .SYS_SRC_EVT) (s - 930)
  else if s < 940 then c.rdB (rg .CSI_STATUS (s - 932)) 1
  else if s < 944 then false
  else if s < 960 then c.rdB (rg0 .RGL_EVT) (s - 944)
  else if s < 976 then c.rdB (rg0 .HOST_EVT) (s - 960)
  else if s < 984 then c.rdB (rg0 .PWR_EVT) (s - 976)
  else if s = 984 then c.rdB (rg0 .POT_EVT) 0
  else if s = 985 then c.rdB (rg0 .POT_FAULT_INFO) 31
  else if s = 986 then c.rd (rg0 .POT_PAIR_CNT) != 0
  else if s = 987 then c.rdB (rg0 .POT_EVT) 3
  else if s < 992 then c.rdB (rg0 .JNL_EVT) (s - 988)
  else if s < 1024 then
    c.rdB (rg .EVR_PIN_CFG (s - 992)) 0 && c.rdF (rg .EVR_PIN_CFG (s - 992)) 3 2 == 3 && pinActive c (s - 992)
  else false

/-- The L sources whose level a register carries. -/
def srcsOf (r : Reg) : List Nat :=
  let run (b n : Nat) : List Nat := (List.range n).map (fun i => b + i)
  match r.fam with
  | .HD_EVT => run (96 + 8 * r.i) 8
  | .LE_FAULT => [224 + r.i]
  | .VDE_EVT => [288 + 8 * r.i + r.j]
  | .VEE_EVT => run (352 + 4 * r.i) 4
  | .DMA_CH_STATUS => run (384 + 2 * r.i) 2
  | .CRC_STATUS => [640 + r.i]
  | .DMC_CH_ERR_INFO | .DMC_CH_CORR => [768 + r.i]
  | .DMC_CH_STATUS => [768 + r.i, 784]
  | .DMC_ERR_THRESH => run 768 16 ++ [790]
  | .DMC_PORT_LATE => [785]
  | .DMC_SS_ERR_INFO => [789]
  | .DMC_SS_CORR => [790]
  | .CAVE_EVT => run 800 13
  | .AUD_EVT => run 832 21
  | .TCH_EVT => run (864 + 4 * r.i) 4
  | .HPT_EVT => run (896 + 2 * r.i) 2
  | .CSI_ERR => [912 + r.i]
  | .CSI_STATUS => [932 + r.i]
  | .NET_PORT_STATUS => [920 + r.i]
  | .SYS_SRC_LOST => [928]
  | .SYS_SRC_BACK => [929]
  | .SYS_SRC_EVT => [930, 931]
  | .RGL_EVT => run 944 7
  | .HOST_EVT => run 960 6
  | .PWR_EVT => run 976 8
  | .POT_EVT => [984, 987]
  | .POT_FAULT_INFO => [985]
  | .POT_PAIR_CNT => [986]
  | .JNL_EVT => run 988 4
  | .EVR_PIN_CFG => [992 + r.i]
  | _ => []

/-! ### Source bits of the Event Router -/

def Core.srcBit (c : Core) (f : Fam) (s : Nat) : Bool := c.rdB (rg f (s / 32)) (s % 32)
def Core.setSrcBit (c : Core) (f : Fam) (s : Nat) (b : Bool) : Core :=
  c.wr (rg f (s / 32)) (setBit (c.rd (rg f (s / 32))) (s % 32) b)

/-- A live EVENT contract names the source (R86). -/
def Core.srcLive (c : Core) (s : Nat) : Bool := c.rdB (rg .EVR_SRC_CFG s) 24

/-- The source becomes pending; if it was not, its stamp is taken (R85, R105). -/
def Core.setPend (c : Core) (s : Nat) : Core :=
  if c.srcBit .EVR_PEND s then c
  else (c.setSrcBit .EVR_PEND s true).wr (rg .EVR_SRC_TIME s) c.tstamp

/-- The source is captured as a level: an L source, or a pin in level mode (R84, R89). -/
def Core.isLevel (c : Core) (s : Nat) : Bool :=
  srcKind s = 0 || (srcKind s = 2 && c.rdF (rg .EVR_PIN_CFG (s - 992)) 3 2 = 3)

/-- The last sample of a source's level replaced. -/
def Core.setSample (c : Core) (s : Nat) (l : Bool) : Core := { c with evr := { c.evr with level := kset false c.evr.level s l } }

/-- The level of an L source sampled (R85, R88): asserted, it is pending while the source is not active, and on a rise also while it
is; released, it withdraws the pending bit. A source that no live contract names, or that is captured as an edge, is not sampled
(R84, R86). -/
def Core.relevel (c : Core) (s : Nat) : Core :=
  if !(c.srcLive s) || !(c.isLevel s) then c.setSample s false else
  let l := levelOf c s
  let was := kget false c.evr.level s
  let c := c.setSample s l
  if l && (!was || !c.srcBit .EVR_ACTIVE s) then c.setPend s
  else if !l then c.setSrcBit .EVR_PEND s false
  else c

/-- A level that no register shows taken or released. -/
def Core.setLvl (c : Core) (s : Nat) (b : Bool) : Core := ({ c with evr := { c.evr with blk := kset false c.evr.blk s b } } : Core).relevel s

/-- A register set to a value, the event sources that follow it with it. -/
def Core.set (c : Core) (r : Reg) (v : W32) : Core := (srcsOf r).foldl Core.relevel (c.wr r v)

/-- A field, a bit, a counter of a register set. -/
def Core.setF (c : Core) (r : Reg) (hi lo n : Nat) : Core := c.set r (setFld (c.rd r) hi lo n)
def Core.setB (c : Core) (r : Reg) (i : Nat) (b : Bool) : Core := c.set r (setBit (c.rd r) i b)
/-- Field `hi:lo` counted up by `n`, saturating. -/
def Core.addSat (c : Core) (r : Reg) (hi lo n : Nat) : Core :=
  c.setF r hi lo (sat (2 ^ (hi - lo + 1) - 1) (c.rdF r hi lo + n))
/-- A 32-bit counter counted up, wrapping. -/
def Core.addWrap (c : Core) (r : Reg) (n : Nat) : Core := c.set r (c.rd r + w32 n)

/-- An event of an E source, or of a source whose block holds no level (R85): pending while a contract names it, else
ignored (R86). -/
def Core.raise (c : Core) (s : Nat) : Core := if c.srcLive s then c.setPend s else c

end Sys2Proof.Machine
end

