-- ==== Sys2Proof/Machine/Record.lean ====
section
/-! DEFINITION. The configuration journal (R420 to R422), ownership refusals (R109), pair faults (R124, R125), unmapped
accesses (R16), and the ownership check of an access to memory (R107, R108, R115 to R117, R121). -/

namespace Sys2Proof.Machine

open Sys2Proof

/-! ### The journal -/

/-- Entries in the ring: JNL_WSEQ less JNL_SSEQ (R421). -/
def Core.jfill (c : Core) : Nat := (c.rd (rg0 .JNL_WSEQ) - c.rd (rg0 .JNL_SSEQ)).toNat

/-- JNL_CFG.hiwat as it acts: 0 as 1, above 65,536 as 65,536 (R423). -/
def Core.jhiwat (c : Core) : Nat :=
  let h := c.rdF (rg0 .JNL_CFG) 16 0
  if h = 0 then 1 else if h > 65536 then 65536 else h

/-- The origin word of an entry (R420). -/
def originWord (t : Owner) (cls unit : Nat) : W32 :=
  w32 ((if t.world then 2147483648 else 0) + t.part % 64 * 33554432 + cls % 8 * 4194304 + unit % 256 * 16384)

/-- The origin of an entry that a requester causes. -/
def Core.origin (c : Core) (ag : Agent) : W32 := originWord (c.tag ag) (agCls ag).1 (agCls ag).2
/-- The origin of an entry that a block writes of itself: class 5, other. -/
def blockOrigin : W32 := 0x01400000

/-- Entry kinds of R420. -/
def jWrite : Nat := 1
def jLoad : Nat := 2
def jCommit : Nat := 3
def jPart : Nat := 4
def jPower : Nat := 5
def jFault : Nat := 6
def jBoot : Nat := 7
def jReset : Nat := 8
def jSummary : Nat := 9

/-- An entry appended to a ring with room: sequence, time, the hiwat event, and the fill at which normal-world refusals
begin (R420 to R423). -/
def Core.jpush (c : Core) (e : JEntry) : Core :=
  let s := c.rd (rg0 .JNL_WSEQ)
  let e := { e with seq := s, time := w64 c.ns }
  let j := { c.jnl with ring := kset {} c.jnl.ring (s.toNat % 65536) e
                        waitSince := if c.jfill = 0 then c.mono else c.jnl.waitSince }
  let c : Core := ({ c with jnl := j } : Core).wr (rg0 .JNL_WSEQ) (s + 1)
  let c : Core := if c.jfill = c.jhiwat then c.setB (rg0 .JNL_EVT) 0 true else c
  if c.jfill ≥ 65024 && !c.jnl.nwBusy then
    (({ c with jnl := { c.jnl with nwBusy := true } } : Core)).setB (rg0 .JNL_EVT) 1 true
  else c

/-- An entry written, or, in a full ring, counted lost if it is a fault, boot, reset or power transition (R422). -/
def Core.jput (c : Core) (e : JEntry) : Core :=
  if c.jfill < 65536 then c.jpush e
  else if e.kind = jFault || e.kind = jBoot || e.kind = jReset || e.kind = jPower then
    let j := c.jnl
    let j := { j with lostFirst := if j.lostOpen = 0 then c.ns else j.lostFirst, lostLast := c.ns, lostOpen := j.lostOpen + 1 }
    ({ c with jnl := j } : Core).addSat (rg0 .JNL_LOST) 15 0 1
  else c

/-- An entry of a kind, with status, origin, address, value and aux. -/
def Core.log (c : Core) (kind status : Nat) (org addr value aux : W32) : Core :=
  c.jput { origin := org, kind := kind, status := status, addr := addr, value := value, aux := aux }

/-- A fault entry: kind 0x06 with an address or source, and the words R420 leaves to the block for a cause and a detail. -/
def Core.faultFrom (c : Core) (org addr : W32) (cause detail : Nat) : Core :=
  c.log jFault 0 org addr (Config.faultValue addr cause) (Config.faultAux addr detail)
/-- A fault of a block. -/
def Core.fault (c : Core) (addr cause detail : Nat) : Core := c.faultFrom blockOrigin (w32 addr) cause detail

/-- A rate-limited fault entry: one per key and master tick, its count saturating while the entry is in the ring (R109, R144, R171). -/
def Core.faultOnce (c : Core) (key : Nat) (org addr value aux : W32) : Core :=
  let slot := kget 65536 c.jnl.merge key
  let e := kget {} c.jnl.ring slot
  if slot < 65536 then
    if c.jfill ≤ (e.seq - c.rd (rg0 .JNL_SSEQ)).toNat then c else { c with jnl := { c.jnl with ring := kset {} c.jnl.ring slot { e with count := sat 65535 (e.count + 1) } } }
  else
    let at_ := (c.rd (rg0 .JNL_WSEQ)).toNat % 65536
    let full := c.jfill ≥ 65536
    let c := c.faultFrom org addr value.toNat aux.toNat
    if full then c else { c with jnl := { c.jnl with merge := kset 65536 c.jnl.merge key at_ } }

/-- The journal can log a change of the tag: secure-world changes below a full ring, normal-world changes while they are not
refused (R422). On the N series every change is a normal-world one. -/
def Core.canLog (c : Core) (t : Owner) : Bool :=
  if t.world then decide (c.jfill < 65536) else !c.jnl.nwBusy && decide (c.jfill < 65536)

/-! ### Refusals and faults -/

/-- An access to an unmapped address: journalled as a fault with the requester and the address (R16). -/
def Core.unmapped (c : Core) (ag : Agent) (a : Nat) : Core :=
  c.faultFrom (c.origin ag) (lo32 a) 0x10 (hi32 a).toNat

/-- An ownership refusal (R109): counted, latched when no fault is latched, source 985 with the latch, one journal entry per
requester and page in a master tick. -/
def Core.ownRefuse (c : Core) (t : Owner) (cls unit : Nat) (write : Bool) (a kind : Nat) : Core :=
  let c := c.addSat (rg0 .POT_FAULT_CNT) 15 0 1
  let info := 2147483648 + (if write then 1073741824 else 0) + (if t.world then 536870912 else 0)
    + t.part % 64 * 8388608 + cls % 8 * 1048576 + unit % 256 * 4096 + kind % 16
  let c := if c.rdB (rg0 .POT_FAULT_INFO) 31 then c
    else (c.wrPair (rg0 .POT_FAULT_ADDR_LO) (rg0 .POT_FAULT_ADDR_HI) (a % 2 ^ 64)).set (rg0 .POT_FAULT_INFO) (w32 info)
  c.faultOnce ((a / 16384 * 8 + cls) * 256 + unit % 256) (originWord t cls unit) (lo32 a) (w32 (kind + 0x100)) (hi32 a)

/-- The refusal of a requester. -/
def Core.refuse (c : Core) (ag : Agent) (write : Bool) (a kind : Nat) : Core :=
  c.ownRefuse (c.tag ag) (agCls ag).1 (agCls ag).2 write a kind

/-- A pair fault (R124, R125, R117): kinds 1 MISMATCH, 2 TIMEOUT, 3 INTRUDER, 4 TICKWIN, 5 STORE, 6 PAIR; `detail` goes into its entry. -/
def Core.pairFaultBy (c : Core) (kind addr detail : Nat) : Core :=
  let c := c.wr (rg0 .POT_PAIR_INFO) (w32 (kind * 268435456 + addr / 4 % 268435456))
  (c.addSat (rg0 .POT_PAIR_CNT) 15 0 1).fault addr (0x200 + kind) detail
def Core.pairFault (c : Core) (kind addr : Nat) : Core := c.pairFaultBy kind addr 0

/-- The control-space address that a fault of a paired store names: the register's; POT_OWN for an owner record (log entry 206); 0 for a
POT entry. -/
def pairAddr (key : Nat) : Nat := if key < pairOwner 0 0 then key else if key < pairPage 0 then 0x20050404 else 0

/-- At a master boundary strobe every paired store compares its copies (R125). -/
def Core.pairCompare (c : Core) : Core :=
  (c.pot.copies.filter (fun e => pairBroken e.2)).foldl (fun (d : Core) e => d.pairFault 5 (pairAddr e.1)) c

/-! ### The Page Owner Table and access checks -/

/-- POT_BASE, 0 while no table is in force (R115). -/
def Core.potBase (c : Core) : Nat := c.rdPair (rg0 .POT_BASE_LO) (rg0 .POT_BASE_HI)
/-- Pages of the DRAM window. -/
def Core.potPages (c : Core) : Nat := (dramEnd c.counts - 0x1000000000) / 16384
/-- The entry of page `i` as it stands in DRAM. -/
def Core.potEntry (c : Core) (i : Nat) : W32 := w32 (c.load (c.potBase + 4 * i) 4)
/-- The check field is the complement of the upper half (R116). -/
def potSound (e : W32) : Bool := fld e 31 16 + fld e 15 0 = 65535
/-- An entry's word from its upper half (R119). -/
def potWord (hi : Nat) : W32 := w32 (hi % 65536 * 65536 + (65535 - hi % 65536))

/-- The outcome of an ownership check: granted; refused with a fault kind of POT_FAULT_INFO; an address where nothing lies; a write
to an active program bank (R19); the boot ROM, which reads zero to every requester but those of R20 and ignores writes. -/
inductive Check where
  | ok
  | refused (kind : Nat)
  | unmapped
  | bankShut
  | silent
  deriving DecidableEq, Repr

def sameOwner (t o : Owner) : Bool := t.world == o.world && t.part == o.part

/-- The rights bits of an owned page: host bits for the host's BAR accesses, device bits for device units (R116, R452). -/
def pageRight (e : W32) (host write : Bool) : Bool :=
  bit e (if host then (if write then 23 else 22) else (if write then 21 else 20))

/-- One page's entry against a request (R108, R115 to R117). -/
def Core.pageCheck (c : Core) (t : Owner) (host write : Bool) (a : Nat) : Check :=
  let base := c.potBase
  let i := (a - 0x1000000000) / 16384
  if base = 0 then .refused 3
  else if write && decide (base / 16384 ≤ a / 16384 ∧ a < base + 4 * c.potPages) then .refused 4
  else
    let e := c.potEntry i
    if !potSound e then .refused 5
    else if !bit e 31 then .refused 3
    else if c.isSecure t then .ok
    else if bit e 30 then .refused 1
    else if fld e 29 24 = t.part then (if pageRight e host write then .ok
      else if !write && !host && bit e 19 then .ok else .refused 2)
    else if !write && !host && bit e 19 then .ok
    else .refused 1

/-- Service-region size of a sequencer in bytes (R57). -/
def Core.svcSize (c : Core) (n : Nat) : Nat :=
  match c.rdF (rg .SEQ_SVC_CFG n) 1 0 with
  | 1 => 16384
  | 2 => 32768
  | _ => 0

/-- The active bank of a sequencer is protected from writes through the window while a program holds it (R19). -/
def Core.bankShut (c : Core) (n off : Nat) : Bool :=
  let q := c.seq n
  q.live.isSome && decide (off < 0x10000) && (decide (0x8000 ≤ off) == q.bank)

/-- Whether a device unit or the host may make an access that stays in one place of the map. -/
def Core.check1 (c : Core) (t : Owner) (host write : Bool) (a : Nat) : Check :=
  match c.place a with
  | .shared b => if c.isSecure t || sameOwner t (c.owner 8 b) then .ok else .refused 1
  | .localMem n off =>
    if c.isSecure t || (sameOwner t (c.owner 3 n) && decide (off + c.svcSize n < 0x40000)) then
      (if write && c.bankShut n off then .bankShut else .ok)
    else .refused 1
  | .rom => if !write && (t.world || t.boot) then .ok else .silent
  | .dram => c.pageCheck t host write a
  | .control => .refused 2
  | .host => .unmapped
  | .unmapped => .unmapped

/-- The first failing check over the pages a range touches. Only DMA and the queue engine reach host memory, by their own path:
to every other requester a host address is unmapped (R367). -/
def Core.checkFrom (c : Core) (t : Owner) (host write : Bool) (a last : Nat) : Nat → Check × Nat
  | 0 => (.ok, a)
  | k + 1 =>
    match c.check1 t host write a with
    | .ok =>
      let nxt := (a / 16384 + 1) * 16384
      if last < nxt then (.ok, a) else c.checkFrom t host write nxt last k
    | r => (r, a)

/-- The check of a whole range of `n` bytes. -/
def Core.check (c : Core) (t : Owner) (host write : Bool) (a n : Nat) : Check × Nat :=
  if n = 0 then (.ok, a) else c.checkFrom t host write a (a + n - 1) (n / 16384 + 2)

/-- The record a failed check leaves: an ownership refusal, with a pair fault for kind PAIR, or an unmapped access. -/
def Core.noteCheck (c : Core) (t : Owner) (cls unit : Nat) (write : Bool) (r : Check × Nat) : Core :=
  match r.1 with
  | .refused k =>
    let c := c.ownRefuse t cls unit write r.2 k
    if k = 5 then c.pairFault 6 0 else c
  | .unmapped => c.faultFrom (originWord t cls unit) (lo32 r.2) 0x10 (hi32 r.2).toNat
  | _ => c

/-- A source to quarantine: pending, not masked, not quarantined, its count at the admitted rate (R100). -/
def Core.overRate (c : Core) (s : Nat) : Bool :=
  c.srcLive s && !c.srcBit .EVR_QUAR s && decide (c.rdF (rg .EVR_SRC_STAT s) 15 0 = c.rdF (rg .EVR_SRC_CFG s) 15 0)

end Sys2Proof.Machine
end

