-- ==== Sys2Proof/Machine/Run.lean ====
section
/-! DEFINITION. How a command's effect becomes a step: the quarantine that follows in the next fabric cycle (R100), the
bytes it stored laid into memory, time never running back, the variant as it was fused (R1). -/

namespace Sys2Proof.Machine

open Sys2Proof

/-- Quarantine of a source (R100): its bit, the two counters, a journal entry with source, partition and TKG_TICK. R420 gives no places for
them: the model puts the source into address, the partition into value and the low 32 bits of TKG_TICK into aux (its choice, log entry
216). -/
def Core.quarantine (c : Core) (s : Nat) : Core :=
  let c := c.setSrcBit .EVR_QUAR s true
  let c := c.addSat (rg .EVR_SRC_STAT s) 31 16 1
  let c := c.addSat (rg0 .EVR_QCNT) 15 0 1
  c.log jFault 0 blockOrigin (w32 s) (w32 (c.owner 6 s).part) (c.rd (rg0 .TKG_TICK_LO))

/-- The quarantines due among the sources of word `w` of EVR_PEND. -/
def Core.settleWord (c : Core) (w : Nat) : Core :=
  let p := c.rd (rg .EVR_PEND w) &&& ~~~(c.rd (rg .EVR_MASK w))
  if p = 0 then c
  else (bitsOf p).foldl (fun d j => if d.overRate (32 * w + j) then d.quarantine (32 * w + j) else d) c

/-- Every quarantine due. -/
def Core.settle (c : Core) : Core := (List.range 32).foldl Core.settleWord c

/-- The state after a command whose effect on the block is `f`. -/
def State.after (s : State) (f : Core → Core) : State :=
  let c := (f s.core).settle
  { s with core := { c with var := s.core.var
                            now := if c.now < s.core.now then s.core.now else c.now
                            mem := flush s.core.mem c.posted
                            posted := [] } }

/-- A command whose effect on the block is `f`: it always answers a next state, the queue untouched. -/
def run (s : State) (f : Core → Core) : Host.Outcome State Fault Refusal := .next (s.after f)

end Sys2Proof.Machine
end

