-- ==== Sys2Proof/Machine/Seqs.lean ====
section
/-! DEFINITION. A Usfer sequencer: register sets, special registers, stack limits, exceptions and the advance of the program
counter (R55 to R59, R65, R66, R72, R78). -/

namespace Sys2Proof.Machine

open Sys2Proof

/-! ### Clocks (R399) -/

/-- Frequencies of a performance level in MHz: sequencer, fabric, layer engine, video (R399). -/
def plFreq : Nat → Nat × Nat × Nat × Nat
  | 7 => (1200, 1600, 1000, 900)
  | 6 => (1050, 1400, 875, 800)
  | 5 => (900, 1200, 750, 700)
  | 4 => (800, 1050, 650, 600)
  | 3 => (675, 900, 550, 500)
  | 2 => (550, 750, 450, 400)
  | 1 => (425, 550, 350, 300)
  | _ => (300, 300, 250, 225)

/-- The level in force: PWR_STATUS.level (R400, R409). -/
def Core.level (c : Core) : Nat := c.rdF (rg0 .PWR_STATUS) 2 0
/-- The sequencer clock in MHz. -/
def Core.seqMHz (c : Core) : Nat := (plFreq c.level).1
/-- A fabric cycle in ps, rounded up. -/
def Core.fabricPs (c : Core) : Nat := ceilDiv 1000000 (plFreq c.level).2.1
/-- Sequencer cycles counted up to the present, times 10^6 (ps times MHz). -/
def Core.cycNow (c : Core) : Nat := c.cycNum + (c.now - c.cycAt) * c.seqMHz
/-- CYC (R56). -/
def Core.cyc (c : Core) : Nat := c.cycNow / 1000000
/-- The cycle count brought up to the present, before the sequencer clock changes or stops. -/
def Core.cycSync (c : Core) : Core := { c with cycNum := c.cycNow, cycAt := c.now }

/-! ### Program state -/

/-- The partition runs: ACTIVE; the secure world always does (R130). -/
def Core.partActive (c : Core) (win : Nat) : Bool := win = 64 || c.rdF (rg .PART_STATE win) 31 28 = 2

/-- The register set in use: the current level's (R55). -/
def Core.rset (c : Core) (n : Nat) : RegSet := kget {} (c.seq n).sets (c.seq n).level
def Core.setRset (c : Core) (n : Nat) (r : RegSet) : Core :=
  let q := c.seq n
  c.setSeq n { q with sets := kset {} q.sets q.level r }

/-- Register g`k` of the current set; g0 reads zero (R55). -/
def Core.g (c : Core) (n k : Nat) : W64 := if k = 0 then 0 else kget 0 (c.rset n).g k
/-- Register g`k` written, writes to g0 discarded (R55). -/
def Core.setG (c : Core) (n k : Nat) (v : W64) : Core :=
  if k = 0 then c else let r := c.rset n; c.setRset n { r with g := kset 0 r.g k v }

/-- Predicate `k`; p0 reads true (R55). -/
def Core.pr (c : Core) (n k : Nat) : Bool := k = 0 || ((c.rset n).p.toNat >>> k) % 2 = 1
/-- A predicate register word with bit `k` set to `b`. -/
def setP8 (p : BitVec 8) (k : Nat) (b : Bool) : BitVec 8 :=
  let x := BitVec.ofNat 8 (2 ^ k)
  if b then p ||| x else p &&& ~~~x
/-- Predicate `k` written; p0 cannot be written (R55). -/
def Core.setPr (c : Core) (n k : Nat) (b : Bool) : Core :=
  if k = 0 ∨ k > 7 then c else let r := c.rset n; c.setRset n { r with p := setP8 r.p k b }

/-- Stack depths of the live image. -/
def Core.stackOf (c : Core) (n : Nat) : Nat := match (c.seq n).live with | some i => i.stack | none => 0
def Core.hstackOf (c : Core) (n : Nat) : Nat := match (c.seq n).live with | some i => i.hstack | none => 0

/-- The top of the stack of set `k` (R59). -/
def Core.stackTop (c : Core) (n k : Nat) : Nat :=
  let t := 0x40000 - c.svcSize n
  if k = 0 then t else t - c.stackOf n - (k - 1) * c.hstackOf n
/-- STKLIM of the current set: the lowest value its g29 may take (R56, R80). -/
def Core.stkLim (c : Core) (n : Nat) : Nat :=
  let k := (c.seq n).level
  c.stackTop n k - (if k = 0 then c.stackOf n else c.hstackOf n)

/-- The register sets as a bank switch or restart leaves them: cleared, g29 of each set at the top of its stack (R59). -/
def Core.freshSets (c : Core) (n : Nat) : KMap RegSet :=
  (List.range 4).foldl (fun m k => kset {} m k { g := kset 0 [] 29 (w64 (c.stackTop n k)) }) []

/-- The world-call record is the fifth return record; a world call executes in it, else the level's (R65). -/
def Seq.recNo (q : Seq) : Nat := if q.inCall then 4 else q.level

/-- The instruction can execute: a program runs, not halted by debug, not waiting in DRAIN, not stopped by an exception. -/
def Core.canRun (c : Core) (n : Nat) : Bool :=
  decide (n < 64) && (c.seq n).mode == .running && !(c.seq n).dbg && (c.seq n).live.isSome
    && !(c.st n).drain && !(c.st n).excWait

/-- SEQ_STATUS as it reads (R82). -/
def Core.seqStatus (c : Core) (n : Nat) : W32 :=
  let q := c.seq n
  let o := c.owner 3 n
  let state := if q.dbg then 6 else match q.mode with
    | .idle => 0
    | .running => if q.inCall then 5 else 1
    | .waiting => 2
    | .sleeping => 3
    | .halted => 4
  w32 (o.part % 64 * 67108864 + (if o.world then 33554432 else 0) + q.level % 4 * 4194304
    + (if q.bank then 2097152 else 0) + (if q.next.isSome then 1048576 else 0) + state)

/-! ### Advance and exceptions -/

/-- `k` sequencer cycles charged to the tick (R64, SEQ_LASTCYC). -/
def Core.charge (c : Core) (n k : Nat) : Core := let t := c.st n; c.setSt n { t with tickCyc := t.tickCyc + k }

def Core.setPc (c : Core) (n a : Nat) : Core := let q := c.seq n; c.setSeq n { q with pc := a }

/-- Loop frames of the record in use. -/
def Seq.frames (q : Seq) : List LoopFrame := kget [] q.loops q.recNo
def Seq.setFrames (q : Seq) (l : List LoopFrame) : Seq := { q with loops := kset [] q.loops q.recNo l }
/-- Return addresses of the record in use, top first. -/
def Seq.retRec (q : Seq) : List Nat := kget [] q.rets q.recNo

/-- Where the next word after `a` is, with the loops that end there: another pass of the innermost one that has passes left,
else past them (R66). -/
def loopNext (depth a : Nat) : List LoopFrame → Nat × List LoopFrame
  | [] => (a, [])
  | f :: fs =>
    if f.after = a ∧ f.depth = depth then
      if 1 < f.left then (f.first, { f with left := f.left - 1 } :: fs) else loopNext depth a fs
    else (a, f :: fs)

/-- The program counter moved past one word (R66). -/
def Core.advance (c : Core) (n : Nat) : Core :=
  let q := c.seq n
  let r := loopNext q.retRec.length (q.pc + 4) q.frames
  c.setSeq n { q.setFrames r.2 with pc := r.1 }

/-- A forward transfer inside a function: loops whose body ends at or before the target are left (R67). -/
def Core.jump (c : Core) (n a : Nat) : Core :=
  let q := c.seq n
  let fs := q.frames.filter (fun f => !(decide (f.depth = q.retRec.length) && decide (f.after ≤ a)))
  c.setSeq n { q.setFrames fs with pc := a }

/-- The scrub of R75 with result mask `m`: g1 to g30 cleared but the results, p1 to p7 cleared, then g29, g30, g31, p and the
PC from the save set, WORLD 0. -/
def Core.scrub (c : Core) (n m : Nat) : Core :=
  let q := c.seq n
  let r := kget {} q.sets q.level
  let kept := (List.range 4).foldl (fun (a : KMap W64) j =>
    if (m >>> j) % 2 = 1 then kset 0 a (2 + j) (kget 0 r.g (2 + j)) else a) []
  let gs := kset 0 (kset 0 (kset 0 kept 29 q.save.g29) 30 q.save.g30) 31 q.save.g31
  c.setSeq n { q with sets := kset {} q.sets q.level { g := gs, p := q.save.p }, pc := q.save.pc, inCall := false,
                      results := 0, save := {}, rets := kset [] q.rets 4 [], loops := kset [] q.loops 4 [] }

/-- A sequencer exception (R78): cause, level and service bit recorded, the tick's tick-window writes discarded and the tick
an overrun, every return record cleared; the program restarts at its domain's next boundary. -/
def Core.exception (c : Core) (n cause : Nat) : Core :=
  let q := c.seq n
  let v := c.rd (rg .SEQ_EXC n)
  let c := c.set (rg .SEQ_EXC n) (w32 (sat 65535 (fld v 31 16 + 1) * 65536 + q.level % 4 * 1024
    + (if q.inCall then 512 else 0) + cause))
  let c := c.wr (rg .SEQ_EXC_PC n) (w32 (q.pc % 262144))
  let c := if q.inCall then c.scrub n 0 else c
  let q := c.seq n
  let c := c.setSeq n { q with tw := [], rets := [], loops := [], mode := .waiting, restart := true }
  let t := c.st n
  (c.setSt n { t with late := true, excWait := true, drain := false }).fault n cause q.level

/-- A result written to g`d`, with the stack check of R78; then the next word. -/
def Core.result (c : Core) (n d : Nat) (v : W64) : Core :=
  if d = 29 ∧ v.toNat < c.stkLim n then c.exception n 3 else (c.setG n d v).advance n

/-- A sequencer that debug lets run one instruction halts again after it (R127). -/
def Core.stepDone (c : Core) (n : Nat) : Core :=
  let q := c.seq n
  if q.step then c.setSeq n { q with step := false, dbg := true } else c

/-- An instruction under predicate `p` at a cost: nothing on a sequencer that does not run; one cycle and the next word when
the predicate is false; else the cost and the effect (R61, R64). -/
def Core.instr (c : Core) (n p cost : Nat) (eff : Core → Core) : Core :=
  if !c.canRun n then c
  else if !c.pr n p then ((c.charge n 1).advance n).stepDone n
  else (eff (c.charge n cost)).stepDone n

/-- The tick domain of the live program (R40); 0 when idle. -/
def Core.domOf (c : Core) (n : Nat) : Nat := match (c.seq n).live with | some i => i.domain | none => 0

/-- The index of the current tick of a domain (TICK of R56). -/
def Core.tickOf (c : Core) (dom : Nat) : Nat :=
  if dom = 0 then c.rdPair (rg0 .TKG_TICK_LO) (rg0 .TKG_TICK_HI) else kget 0 c.tkg.ticks dom

/-- The base address of a bank in local memory (R18). -/
def bankBase (b : Bool) : Nat := if b then 0x8000 else 0

/-- The special registers of R56. -/
def Core.special (c : Core) (n k : Nat) : W64 :=
  let q := c.seq n
  let t := c.st n
  let o := c.owner 3 n
  let lc := kget {} q.ctx q.level
  match k with
  | 0 => w64 c.cyc
  | 1 => w64 (c.tickOf (c.domOf n))
  | 2 => w64 t.epoch.toNat
  | 3 => if o.world || q.inCall then 1 else 0
  | 4 => if o.world || q.inCall then 0 else w64 o.part
  | 5 => if q.level = 0 then 0 else w64 (32768 + lc.source % 1024)
  | 6 => w64 lc.evpc
  | 7 => w64 lc.evps
  | 8 => w64 n
  | 9 => w64 ((if t.first then 1 else 0) + (if t.prevBad then 2 else 0) + (if q.level = 0 then 0 else 4)
          + q.level % 4 * 16 + (if q.bank then 256 else 0))
  | 10 => w64 t.twCount
  | 11 => w64 (c.domOf n)
  | 12 => w64 (kget 0 c.tkg.starts (c.domOf n))
  | 13 => w64 c.ns
  | 14 => w64 (bankBase q.bank + (match q.live with | some i => i.codeSize | none => 0))
  | 15 => w64 (c.stkLim n)
  | _ => 0

end Sys2Proof.Machine
end

