-- ==== Sys2Proof/Machine/Contracts.lean ====
section
/-! DEFINITION. Contracts as the Admission Checker reads them (R39 to R43): descriptor fields, the sets a submitter's
evaluation sees, and the load and capacity of every resource. Exact arithmetic on naturals; each rational is a numerator and
a denominator. -/

namespace Sys2Proof.Machine

open Sys2Proof

/-! ### Descriptor fields -/

/-- Word `i` of a descriptor, offset 4i. -/
def Contract.w (x : Contract) (i : Nat) : W32 := x.words.getD i 0
def Contract.n (x : Contract) (i : Nat) : Nat := (x.w i).toNat
def Contract.f (x : Contract) (i hi lo : Nat) : Nat := fld (x.w i) hi lo
/-- Kind, operation, target and unit of the header (R39). -/
def Contract.kind (x : Contract) : Nat := x.f 0 31 24
def Contract.op (x : Contract) : Nat := x.f 0 15 8
def Contract.target (x : Contract) : W32 := x.w 1
def Contract.unit (x : Contract) : Nat := x.f 2 15 0

/-- Kind codes (R40). -/
def kPROGRAM : Nat := 1
def kEVENT : Nat := 2
def kSOURCE : Nat := 3
def kLAYER : Nat := 4
def kMEMORY : Nat := 5
def kDECODE : Nat := 6
def kENCODE : Nat := 7
def kAUDIO : Nat := 8
def kHEAD : Nat := 9
def kRATE : Nat := 10

/-- A 64-bit field at words i, i + 1. -/
def Contract.n64 (x : Contract) (i : Nat) : Nat := x.n i + x.n (i + 1) * 4294967296

/-- The mask of the bits a kind defines in word `i` from offset 0x10 (R40, R179, R191, R200, R231, R280, R318); the others
are reserved (R450). -/
def kindMask (k i : Nat) : Nat :=
  let full := 0xFFFFFFFF
  match k, i with
  | 1, 4 => full | 1, 5 => full | 1, 6 => 0xFF
  | 2, 4 => full | 2, 5 => 0xFFFF
  | 3, 4 => full | 3, 5 => full | 3, 6 => full | 3, 7 => 0xFFFF | 3, 8 => 0xFF | 3, 9 => full | 3, 10 => full | 3, 11 => 0xFF
  | 3, 12 => full | 3, 13 => full | 3, 14 => full | 3, 15 => 0xFF
  | 4, 4 => 0xFFFF | 4, 5 => full | 4, 6 => full | 4, 7 => full | 4, 8 => full | 4, 9 => full
  | 5, 4 => full | 5, 5 => full | 5, 6 => full
  | 6, 4 => 0xFFFF | 6, 5 => full | 6, 6 => full | 6, 7 => full | 6, 8 => 0x1FF3FF | 6, 9 => full | 6, 10 => full
  | 6, 11 => full | 6, 12 => full | 6, 13 => full | 6, 14 => full
  | 7, 4 => 0xFF | 7, 5 => full | 7, 6 => full | 7, 7 => 0xFFFF3F3F | 7, 8 => full | 7, 9 => 0xFFFF0007
  | 7, 10 => 0x01FFFF8F | 7, 12 => full | 7, 13 => full
  | 8, 4 => full | 8, 5 => full | 8, 6 => 0xFFFF | 8, 7 => full | 8, 8 => 0xFF000000
  | 9, 4 => full | 9, 5 => full | 9, 6 => full | 9, 7 => 0x3FFF | 9, 8 => full | 9, 9 => full | 9, 10 => 0x80FF03FF
  | 10, 4 => full | 10, 5 => full
  | _, _ => 0

/-- The SOURCE binding's bits that its intake defines in word 9: a binding with others set does not match its intake (R179; log
entry 12). -/
def bindMask : Nat → Nat
  | 0 => 0x3FF7
  | 1 => 0xFFFF000F
  | 2 => 0x800003FF
  | _ => 0xFFFFFFFF

/-- Every reserved field of an ADD or REPLACE descriptor is zero (R450). -/
def Contract.reservedOk (x : Contract) : Bool :=
  x.f 0 7 0 = 0 && x.f 2 31 16 = 0 && x.n 3 = 0 &&
  (List.range 12).all (fun j => x.n (j + 4) &&& kindMask x.kind (j + 4) = x.n (j + 4))

/-! ### Sets of contracts -/

/-- What a draft's operations make of a list of contracts. -/
def applyOps (l : List Contract) : List DraftOp → List Contract
  | [] => l
  | .add x :: os => applyOps (l ++ [x]) os
  | .release i :: os => applyOps (l.filter (fun y => y.id != i)) os
  | .replace i x :: os => applyOps (l.filter (fun y => y.id != i) ++ [x]) os

def Core.draft (c : Core) (w : Nat) : Draft := kget {} c.adm.drafts w
def Core.setDraft (c : Core) (w : Nat) (d : Draft) : Core :=
  { c with adm := { c.adm with drafts := kset {} c.adm.drafts w d } }

/-- A contract that holds capacity, or a live one and the drafted one that is to replace it: the larger load counts (R45). -/
abbrev Item := Contract × Option Contract

/-- The contract `i` leaves a list of held ones: a live one stays until the commit, without what was to replace it (R45). -/
def dropItem (live : List Contract) (i : W32) (l : List Item) : List Item :=
  (l.filter (fun y => y.1.id != i || live.any (fun z => z.id == i))).map (fun y =>
    if y.2.any (fun z => z.id == i) then (y.1, none) else y)

/-- The contract `x` in the place of `i` in a list of held ones: beside a live one, the larger of the two held until the commit; in place of
a drafted one (R45). -/
def swapItem (live : List Contract) (i : W32) (x : Contract) (l : List Item) : List Item :=
  l.map (fun y =>
    if y.1.id = i then (if live.any (fun z => z.id == i) then (y.1, some x) else (x, none))
    else if y.2.any (fun z => z.id == i) then (y.1, some x) else y)

/-- Another submitter's draft seen from outside: its additions are held, its releases of live contracts are not yet (R45,
R47). -/
def othersOps (live : List Contract) : List Item → List DraftOp → List Item
  | l, [] => l
  | l, .add x :: os => othersOps live (l ++ [(x, none)]) os
  | l, .release i :: os => othersOps live (dropItem live i l) os
  | l, .replace i x :: os => othersOps live (swapItem live i x l) os

/-- The contracts that a submission of window `w` is summed with: its own draft applied, the other drafts held. -/
def Core.itemsFor (c : Core) (w : Nat) : List Item :=
  let own := applyOps c.adm.live (c.draft w).ops
  let others := c.adm.drafts.filter (fun d => d.1 != w)
  others.foldl (fun l d => othersOps c.adm.live l d.2.ops) (own.map (fun x => (x, none)))

/-- All contracts live or drafted in any draft, as names count: what another contract may refer to. -/
def Core.known (c : Core) (w : Nat) : List Contract := (c.itemsFor w).flatMap (fun i => i.1 :: i.2.toList)

/-- The live-contracts row of R43 as a submission of window `w` finds it: a replacement and what it replaces are one, and the window's own
releases have freed theirs (R45). -/
def Core.contractCount (c : Core) (w : Nat) : Nat := (c.itemsFor w).length

/-- The sum of a load over items. -/
def sumItems (l : List Item) (f : Contract → Nat) : Nat :=
  (l.map (fun i => match i.2 with | none => f i.1 | some y => max (f i.1) (f y))).sum

/-! ### Rates -/

/-- A rational as numerator and denominator. -/
abbrev Ratio := Nat × Nat

/-- The master tick rate in Hz (R28). -/
def Core.fM (c : Core) : Ratio := (c.rdN (rg0 .TKG_MASTER_NUM), c.rdN (rg0 .TKG_MASTER_DEN))

/-- The HEAD contract of a head in a list: the last one, a drafted one coming after a live one. -/
def headOf (l : List Contract) (h : Nat) : Option Contract :=
  (l.filter (fun x => x.kind = kHEAD && x.unit = h)).getLast?

/-- Fields of a HEAD contract (R231). -/
def Contract.hTotal (x : Contract) : Nat := x.f 5 31 16
def Contract.vTotal (x : Contract) : Nat := x.f 5 15 0
def Contract.hActive (x : Contract) : Nat := x.f 6 31 16
def Contract.vActive (x : Contract) : Nat := x.f 6 15 0
def Contract.hMode (x : Contract) : Nat := x.f 7 13 12
def n16 (n : Nat) : Nat := if n = 0 then 16 else n
def Contract.hN (x : Contract) : Nat := n16 (x.f 7 11 7)
def Contract.hD (x : Contract) : Nat := n16 (x.f 7 6 2)
/-- Strip height S in lines (R40). -/
def stripLines (code : Nat) : Nat := if code = 0 then 16 else if code = 1 then 32 else 64
def Contract.hStrip (x : Contract) : Nat := stripLines (x.f 7 1 0)

/-- A head's greatest frame rate f_h,max in Hz (R30, R41). -/
def headRate (fM : Ratio) (x : Contract) : Ratio :=
  match x.hMode with
  | 1 => (fM.1 * x.hN, fM.2 * x.hD)
  | 3 => (x.n 9, 1000)
  | _ => (x.n 4 * 1000, x.hTotal * x.vTotal)

/-- A head's least frame rate (R43: adaptive heads have f_min). -/
def headRateMin (fM : Ratio) (x : Contract) : Ratio := if x.hMode = 3 then (x.n 8, 1000) else headRate fM x

/-- The pixel clock in Hz: exact in locked mode, else the contract's (R232). -/
def headPix (fM : Ratio) (x : Contract) : Ratio :=
  if x.hMode = 1 then (fM.1 * x.hN * x.hTotal * x.vTotal, fM.2 * x.hD) else (x.n 4 * 1000, 1)

/-- Rate and least rate in Hz of a tick domain (R28, R30, R31); none when no contract gives it. -/
def domRate (l : List Contract) (fM : Ratio) (dom : Nat) : Option (Ratio × Ratio) :=
  if dom = 0 then some (fM, fM)
  else if dom < 0x20 then (headOf l (dom - 0x10)).map (fun x => (headRate fM x, headRateMin fM x))
  else ((l.filter (fun x => x.kind = kAUDIO && x.unit = dom - 0x20)).getLast?).map (fun x => ((x.n 4, 16), (x.n 4, 16)))

/-! ### Implied memory bytes (R41) -/

/-- Bytes per pixel of a format code, times 4; 0 for a code not in the table of R212. -/
def bpp4 : Nat → Nat
  | 0 => 6 | 1 => 12 | 2 => 6 | 3 => 12 | 4 => 16 | 5 => 8 | 6 => 16 | 7 => 16 | 8 => 12 | 9 => 24
  | 0x10 => 16 | 0x11 => 16 | 0x12 => 16 | 0x13 => 8 | 0x18 => 8 | 0x19 => 10 | 0x1A => 12 | 0x1B => 5 | 0x1C => 6
  | _ => 0

/-- The QoS port a contract's bytes fall on; the layer-engine pool counts as port 16 (R41). -/
def Contract.port (x : Contract) : Nat :=
  match x.kind with
  | 3 => x.f 8 7 0
  | 4 => 16
  | 5 => if 16 ≤ x.unit ∧ x.unit ≤ 19 then 16 else x.unit
  | 6 => 20 + x.unit / 2
  | 7 => 24 + x.unit / 2
  | _ => 99

/-- Bytes per master tick of a contract, explicit or implied, rounded up per contract (R41, R43). -/
def memBytes (l : List Contract) (fM : Ratio) (x : Contract) : Nat :=
  match x.kind with
  | 3 => ceilDiv (x.n 5 * fM.2 * 1000000) (fM.1 * x.n 4)
  | 4 =>
    match headOf l x.unit with
    | some h =>
      let r := headRate fM h
      ceilDiv (x.f 5 31 16 * x.f 5 15 0 * bpp4 (x.f 4 7 0) * r.1 * fM.2) (4 * r.2 * fM.1)
    | none => 0
  | 5 => x.n64 4
  | 6 => ceilDiv ((3 * x.f 5 31 16 * x.f 5 15 0 * bpp4 (x.f 8 15 12) * x.n 6 + 500000 * x.n 7) * fM.2) (4000 * fM.1)
  | 7 => ceilDiv (3 * x.f 5 31 16 * x.f 5 15 0 * x.n 6 * fM.2) (1000 * fM.1)
  | _ => 0

/-- The memory capacity in bytes per master tick (R43). -/
def memCapacity (channels : Nat) (fM : Ratio) : Nat :=
  channels * 17066000000 * fM.2 * 9999 * 744 / (fM.1 * 10000 * 1000)

/-! ### The sums of R43 -/

/-- Level-dependent clocks at the admission floor (R46). -/
def Core.floorFreq (c : Core) : Nat × Nat × Nat × Nat := plFreq (c.rdF (rg0 .ADM_PL_FLOOR) 2 0)

/-- T_apply in µs (R43). -/
def applyUs (dom : Nat) : Nat := if dom = 0 then 2 else 1

/-- Sequencer capacity per tick of a domain at a sequencer clock in MHz (R43). -/
def seqCapacity (mhz : Nat) (rate : Ratio) (dom : Nat) : Nat :=
  if rate.1 = 0 then 0
  else (mhz * 100 * 9999 * rate.2 - mhz * applyUs dom * rate.1) / rate.1 - 32

/-- The declared cost of an EVENT contract's handler in its target's image (R43). -/
def handlerCost (l : List Contract) (x : Contract) : Nat :=
  match (l.filter (fun p => p.kind = kPROGRAM && p.unit = x.f 4 7 0)).getLast? with
  | some p => match p.image with | some i => (i.handlers.getD (x.f 5 15 0) (0, 0)).2 | none => 0
  | none => 0

/-- e_i of R43: the events of a master tick that can fall in one tick of the domain. -/
def eventsPerTick (fM rateMin : Ratio) (dom r : Nat) : Nat :=
  if dom = 0 then r else r * (ceilDiv (rateMin.2 * 10001 * fM.1) (rateMin.1 * 10000 * fM.2) + 1)

/-- Cycles held on sequencer `n` per tick of its domain: W and the event load (R43). -/
def seqLoad (items : List Item) (fM : Ratio) (n : Nat) : Nat :=
  let l := items.flatMap (fun i => i.1 :: i.2.toList)
  let dom := match (l.filter (fun p => p.kind = kPROGRAM && p.unit = n)).getLast? with
    | some p => p.f 6 7 0 | none => 0
  let rm := match domRate l fM dom with | some r => r.2 | none => (0, 1)
  sumItems items (fun x =>
    if x.kind = kPROGRAM && x.unit = n then (match x.image with | some i => i.wcet | none => 0)
    else if x.kind = kEVENT && x.f 4 7 0 = n then eventsPerTick fM rm dom (x.f 4 31 16) * (10 + handlerCost l x)
    else 0)

/-- The layer engines of a head's group: the union of its layers' masks (R200). -/
def groupMask (l : List Contract) (h : Nat) : Nat :=
  (l.filter (fun x => x.kind = kLAYER && x.unit = h)).foldl (fun m x => m ||| x.n64 8) 0

/-- Bits set in a 64-bit mask. -/
def popc64 (m : Nat) : Nat := ((List.range 64).filter (fun i => m.testBit i)).length

/-- V_L of R43. -/
def layerLines (s hSrc hDst : Nat) : Nat := if hSrc ≤ hDst then min s hDst else ceilDiv (min s hDst * hSrc) hDst

/-- Slots of head `h` per strip: load and capacity (R43). A protected layer adds nothing (R221). -/
def leLoad (items : List Item) (h : Nat) : Nat :=
  let l := items.flatMap (fun i => i.1 :: i.2.toList)
  let n := popc64 (groupMask l h)
  let s := match headOf l h with | some x => x.hStrip | none => 32
  sumItems items (fun x =>
    if x.kind = kLAYER && x.unit = h && x.f 4 15 8 < 30 then
      max (x.f 5 31 16) (x.f 6 31 16) * layerLines s (x.f 5 15 0) (x.f 6 15 0) + 64 * n
    else 0)

def Core.leCapacity (c : Core) (l : List Contract) (fM : Ratio) (h : Nat) : Nat :=
  match headOf l h with
  | some x =>
    let p := headPix fM x
    if p.1 = 0 then 0
    else popc64 (groupMask l h) * (c.floorFreq.2.2.1 * 100 * x.hStrip * x.hTotal * 9999 * p.2 / p.1 - 256)
  | none => 0

/-- Decoder load in 10^-5 pixels/s: max width × max height × pictures per 1000 s × 100k (R43). -/
def decLoad (items : List Item) (v : Nat) : Nat :=
  sumItems items (fun x => if x.kind = kDECODE && x.unit = v then
    x.f 5 31 16 * x.f 5 15 0 * x.n 6 * (if x.f 4 7 0 = 3 then 134 else 100) else 0)

/-- Encoder load in 10^-3 pixels/s. -/
def encLoad (items : List Item) (e : Nat) : Nat :=
  sumItems items (fun x => if x.kind = kENCODE && x.unit = e then x.f 5 31 16 * x.f 5 15 0 * x.n 6 else 0)

/-- 10^9 × f_vid ÷ 900 MHz × 0.9999 pixels/s, times 9 × 10^6 (R43). -/
def Core.vidCap9M (c : Core) : Nat := 1000000000 * c.floorFreq.2.2.2 * 9999

/-- Memory bytes of all ports, and of one port with the layer pool as port 16. -/
def memLoad (items : List Item) (fM : Ratio) : Nat :=
  let l := items.flatMap (fun i => i.1 :: i.2.toList)
  sumItems items (memBytes l fM)
def memPort (items : List Item) (fM : Ratio) (q : Nat) (ok : Contract → Bool) : Nat :=
  let l := items.flatMap (fun i => i.1 :: i.2.toList)
  sumItems items (fun x => if x.port = q && ok x then memBytes l fM x else 0)

/-- The effective latency target of a port over a list of contracts (R141). -/
def portTarget (l : List Contract) (q : Nat) : Nat :=
  match (l.filter (fun x => x.kind = kMEMORY && x.unit = q)).map (fun x => x.n 6) with
  | [] => portDefault q
  | t :: ts => ts.foldl min t

end Sys2Proof.Machine
end

