-- ==== Sys2Proof/Machine/Dram.lean ====
section
/-! DEFINITION. The Shared Store and the DRAM controller: codes and poison, ports with deadlines, credit and urgency, and the access
that every unit makes to memory: its ownership check, its code, what it draws from its port (R57, R117, R118, R133 to R147). The
commands of the controller stand in DmcCmds.lean. -/

namespace Sys2Proof.Machine

open Sys2Proof

def Core.poisoned (c : Core) (a : Nat) : Bool := kget false c.poison a
def Core.setPoison (c : Core) (a : Nat) (b : Bool) : Core := { c with poison := kset false c.poison a b }
def Core.setDmc (c : Core) (d : Dmc) : Core := { c with dmc := d }
/-- Channel state: DMC_CH_STATUS.state. -/
def Core.chState (c : Core) (h : Nat) : Nat := c.rdF (rg .DMC_CH_STATUS h) 2 0
def Core.setChState (c : Core) (h n : Nat) : Core := c.setF (rg .DMC_CH_STATUS h) 2 0 n
/-- The channel of an address in this variant. -/
def Core.chan (c : Core) (a : Nat) : Nat := dramChannel c.counts.dram a

/-! ### Row metadata (R137) -/

/-- CRC-32 of a list of bytes: polynomial 0x04C11DB7 reflected, initial and final XOR all ones. -/
def crc32Bit (r : W32) : W32 := if r.toNat % 2 = 1 then (r >>> 1) ^^^ 0xEDB88320 else r >>> 1
def crc32Byte (r : W32) (b : Byte) : W32 := (List.range 8).foldl (fun r _ => crc32Bit r) (r ^^^ b.setWidth 32)
def crc32 (bs : List Byte) : W32 := ~~~(bs.foldl crc32Byte 0xFFFFFFFF)

/-- Row bytes 2016 to 2043: the count, the window number, the reserved bytes. -/
def metaBytes (count window reserved : Nat) : List Byte := leBytes 2 count ++ leBytes 1 window ++ leBytes 25 reserved
/-- The CRC-32 of row bytes 2044 to 2047 holds. -/
def RowMeta.sound (m : RowMeta) : Bool := crc32 (metaBytes m.count m.window m.reserved) == m.crc
/-- A metadata block as the DMC writes it. -/
def rowMeta (count window : Nat) : RowMeta := { count := count, window := window, reserved := 0, crc := crc32 (metaBytes count window 0) }
/-- Row bytes 2016 to 2047. -/
def RowMeta.bytes (m : RowMeta) : List Byte := metaBytes m.count m.window m.reserved ++ leBytes 4 m.crc.toNat

/-- The 2,048 bytes of a row as its cells hold them: 28 bursts of data, 8 check bytes of the outer code for each, the metadata.
None of the check bytes or metadata appears at a device address (R137). -/
def Core.rowBytes (c : Core) (ch bank row : Nat) (m : RowMeta) : List Byte :=
  let at_ (k : Nat) : Nat :=
    let r := row * 28 + k
    dramAt c.counts.dram ch ((r / 4 * 16 + bank) * 4 + r % 4)
  let data (k : Nat) : List Byte := c.bytes (at_ k) 64
  (List.range 28).flatMap data ++ (List.range 28).flatMap (fun k => (List.range 8).map (fun i => Config.rsCheck (data k) i)) ++ m.bytes

/-! ### Errors of a burst (R138, R139) -/

/-- The latch and records of a DRAM error: kinds 1 uncorrectable, 2 poisoned burst read, 3 metadata, 4 channel FAILED. -/
def Core.dramError (c : Core) (h a kind port : Nat) (wr scrub : Bool) : Core :=
  let c := if c.rdB (rg .DMC_CH_ERR_INFO h) 31 then c
    else (c.wrPair (rg .DMC_CH_ERR_ADDR_LO h) (rg .DMC_CH_ERR_ADDR_HI h) a).set (rg .DMC_CH_ERR_INFO h)
      (w32 (2147483648 + (if wr then 1073741824 else 0) + (if scrub then 536870912 else 0) + port % 32 * 16777216 + kind * 1048576))
  c.faultFrom blockOrigin (lo32 a) (0x300 + kind) h

/-- A burst that the outer code cannot correct: poisoned and written back so, counted, latched, journalled; kind 1, or 2 when it was
poisoned before (R139). -/
def Core.uncorrectable (c : Core) (a kind port : Nat) (wr scrub : Bool) : Core :=
  let h := c.chan a
  ((c.setPoison (burstOf a) true).addSat (rg .DMC_CH_UNCORR h) 15 0 1).dramError h (burstOf a) kind port wr scrub

/-- A burst in which bytes were corrected: counted and queued for write-back (R140). -/
def Core.corrected (c : Core) (a : Nat) : Core :=
  let c := c.addSat (rg .DMC_CH_CORR (c.chan a)) 15 0 1
  c.setDmc { c.dmc with corrQ := if c.dmc.corrQ.contains (burstOf a) then c.dmc.corrQ else c.dmc.corrQ ++ [burstOf a] }

/-- One burst read under its code, for a port, a partial write, the scrub pass, with what its cells hold (R138): whether its data are
good. A miscorrected or undetected pattern leaves another word in the burst, the one given beside the outcome. -/
def Core.burstRead (c : Core) (q a : Nat) (wr scrub : Bool) (o : BurstOutcome × List Byte) : Core × Bool :=
  let b := burstOf a
  let other (c : Core) : Core := c.store b ((List.range 64).map (fun k => o.2.getD k 0))
  if c.chState (c.chan b) = 5 then (c.dramError (c.chan b) b 4 q wr scrub, false)
  else if c.poisoned b then (c.uncorrectable b 2 q wr scrub, false)
  else match o.1 with
    | .clean => (c, true)
    | .corrected => (c.corrected b, true)
    | .miscorrected => ((other c).corrected b, true)
    | .undetected => (other c, true)
    | .uncorrectable => (c.uncorrectable b 1 q wr scrub, false)

/-- Bytes written to one burst: dropped and reported on a FAILED channel; a full burst clears poison; a partial write reads first, and
onto poison it leaves the burst so and is a data error; a write supersedes a queued correction (R139, R140, R147). -/
def Core.burstWrite (c : Core) (q a : Nat) (bs : List Byte) (o : BurstOutcome × List Byte) : Core × Bool :=
  let b := burstOf a
  let drop (c : Core) : Core := c.setDmc { c.dmc with corrQ := c.dmc.corrQ.filter (fun x => x != b) }
  if c.chState (c.chan b) = 5 then (c.dramError (c.chan b) b 4 q true false, true)
  else if bs.length = 64 then ((drop (c.setPoison b false)).store b bs, true)
  else
    let r := c.burstRead q a true false o
    if r.2 then ((drop r.1).store a bs, true) else (r.1, false)

/-- Every burst of a range read in turn, with the outcomes given, clean where none is. -/
def Core.readBursts (c : Core) (q a n : Nat) (os : List (BurstOutcome × List Byte)) : Core × Bool :=
  (burstsIn a n).foldl (fun (x : Core × Bool) b =>
    let y := x.1.burstRead q b false false (os.getD ((b - burstOf a) / 64) (.clean, []))
    (y.1, x.2 && y.2)) (c, true)

/-- The bytes of a write that fall in a burst, and where they begin. -/
def sliceAt (a : Nat) (bs : List Byte) (b : Nat) : Nat × List Byte :=
  let lo := max a b
  (lo, (bs.drop (lo - a)).take (b + 64 - lo))

/-- Bytes written over several bursts; data errors gathered. -/
def Core.writeBursts (c : Core) (q a : Nat) (bs : List Byte) (os : List (BurstOutcome × List Byte)) : Core × Bool :=
  (burstsIn a bs.length).foldl (fun (x : Core × Bool) b =>
    let p := sliceAt a bs b
    let y := x.1.burstWrite q p.1 p.2 (os.getD ((b - burstOf a) / 64) (.clean, []))
    (y.1, x.2 && y.2)) (c, true)

/-! ### The Shared Store (R133, R134) -/

/-- The records of a double-bit Shared Store error (R134). -/
def Core.ssUncorr (c : Core) (a port : Nat) : Core :=
  let c := c.addSat (rg0 .DMC_SS_UNCORR) 15 0 1
  if c.rdB (rg0 .DMC_SS_ERR_INFO) 31 then c
  else (c.wr (rg0 .DMC_SS_ERR_ADDR) (w32 (a / 8 * 8))).set (rg0 .DMC_SS_ERR_INFO)
    (w32 (2147483648 + port % 16 * 16777216 + a / 0x100000 % 32))

def Core.setFlips (c : Core) (w n : Nat) : Core := { c with flips := kset 0 c.flips w n }

/-- One 8-byte word of Shared Store read under its code: corrected and written back, or poisoned, at every read again (R134). -/
def Core.ssWord (c : Core) (port a : Nat) : Core :=
  let w := a / 8 * 8
  match kget 0 c.flips w with
  | 0 => if c.poisoned w then c.ssUncorr w port else c
  | 1 => (c.setFlips w 0).addSat (rg0 .DMC_SS_CORR) 15 0 1
  | _ => (c.ssUncorr w port).setPoison w true

/-- A word written whole: valid check bits. -/
def Core.freshWord (c : Core) (w : Nat) : Core := (c.setFlips w 0).setPoison w false

/-- Words of a store that a write covers in part. -/
def edgeWords (a n : Nat) : List Nat := (wordsIn a n).filter (fun w => decide (w < a ∨ a + n < w + 8))

/-- A range of Shared Store read through a port: whether its data are good. -/
def Core.ssRead (c : Core) (port a n : Nat) : Core × Bool :=
  let c := (wordsIn a n).foldl (fun (c : Core) w => c.ssWord port w) c
  (c, !(wordsIn a n).any c.poisoned)

/-- Bytes written to Shared Store: words covered in part are read first; onto a double-bit error nothing is written and the write is a
data error, as on DRAM (R134, R139). -/
def Core.ssWrite (c : Core) (port a : Nat) (bs : List Byte) : Core × Bool :=
  let edges := edgeWords a bs.length
  let c := edges.foldl (fun (c : Core) w => c.ssWord port w) c
  if edges.any c.poisoned then (c, false)
  else ((((wordsIn a bs.length).filter (fun w => !(edges.contains w))).foldl Core.freshWord c).store a bs, true)

/-! ### Local memory (R57) -/

/-- The sequencer whose local memory holds an address. -/
def seqAt (a : Nat) : Nat := (a - 0x10000000) / 0x40000

/-- Words of a local memory read from outside: single-bit errors corrected and counted; whether none holds a double-bit error. -/
def Core.lmRead (c : Core) (ws : List Nat) : Core × Bool :=
  let c := ws.foldl (fun (c : Core) w =>
    if kget 0 c.flips w = 1 then (c.setFlips w 0).addSat (rg .SEQ_MEMERR (seqAt w)) 15 0 1 else c) c
  (c, ws.all (fun w => decide (kget 0 c.flips w < 2)))

/-- Bytes written to a local memory: words covered in part are read first (log entry 196). -/
def Core.lmWrite (c : Core) (a : Nat) (bs : List Byte) : Core × Bool :=
  let r := c.lmRead (edgeWords a bs.length)
  if !r.2 then r
  else (((wordsIn a bs.length).foldl (fun (c : Core) w => c.setFlips w 0) r.1).store a bs, true)

/-- Code placed in a local memory by the loader or the starter: whole words, with fresh check bits. -/
def Core.lmFill (c : Core) (a : Nat) (bs : List Byte) : Core :=
  ((wordsIn a bs.length).foldl (fun (c : Core) w => c.setFlips w 0) c).store a bs

/-! ### Ports (R141 to R144) -/

/-- Ports 26, 27, 28 and 30 are paced (R141). -/
def pacedPort (q : Nat) : Bool := q = 26 || q = 27 || q = 28 || q = 30
/-- The accounting group of a port (R142). -/
def portGroup (q : Nat) : Nat := if 16 ≤ q ∧ q ≤ 19 then 16 else q

def liveItems (c : Core) : List Item := c.adm.live.map (fun x => (x, none))

/-- L(q): the live load of a port or of the layer pool; L(p, q) that of one owner (R142, R114). -/
def Core.liveLoad (c : Core) (q : Nat) : Nat := memPort (liveItems c) c.fM (portGroup q) (fun _ => true)
def Core.liveLoadOf (c : Core) (p q : Nat) : Nat := memPort (liveItems c) c.fM (portGroup q) (fun x => x.sub = p)

/-- The latency target in force on a port, in ns (R141). -/
def Core.targetOf (c : Core) (q : Nat) : Nat := portTarget c.adm.live q

/-- Bytes a request counts: 64 a burst, 128 for a partial write (R142). -/
def countBytes (wr : Bool) (a n : Nat) : Nat :=
  ((burstsIn a n).map (fun b => if wr && decide (b < a ∨ a + n < b + 64) then 128 else 64)).sum

def creditKey (q p : Nat) : Nat := q * 128 + p
/-- What one byte weighs in an account: den × 10^12, so that a refill is a whole number (R142). -/
def Core.creditUnit (c : Core) : Nat := c.fM.2 * 1000000000000
/-- The most an account holds: 4 KiB + L(p, q) × target ÷ P_M (R142). -/
def Core.creditCap (c : Core) (q p : Nat) : Nat := 4096 * c.creditUnit + c.liveLoadOf p q * c.targetOf q * 1000 * c.fM.1
/-- What an account would hold at the present without that limit. -/
def Core.creditRaw (c : Core) (q p : Nat) : Nat :=
  let k := creditKey q p
  (kget none c.dmc.credit k).getD (c.creditCap q p) + c.liveLoadOf p q * (c.now - kget 0 c.dmc.creditAt k) * c.fM.1
/-- What an account holds. -/
def Core.creditNow (c : Core) (q p : Nat) : Nat := min (c.creditCap q p) (c.creditRaw q p)
def Core.setCredit (c : Core) (q p n : Nat) : Core :=
  let k := creditKey q p
  c.setDmc { c.dmc with credit := kset none c.dmc.credit k (some n), creditAt := kset 0 c.dmc.creditAt k c.now }

/-- Every account brought up to the present, before a change of the live contracts or of the rate (R142). -/
def Core.creditSettle (c : Core) : Core :=
  c.dmc.credit.foldl (fun (d : Core) e => d.setCredit (e.1 / 128) (e.1 % 128) (c.creditNow (e.1 / 128) (e.1 % 128))) c
/-- The accounts in the units of a new rate. -/
def Core.creditScale (c : Core) (den den' : Nat) : Core :=
  c.setDmc { c.dmc with credit := c.dmc.credit.map (fun e => (e.1, e.2.map (fun n => if den = 0 then n else n * den' / den))) }

/-- Bursts issued counted for DMC_PORT_TICK and the port's tick bytes (R142). -/
def Core.countIssue (c : Core) (q bytes bursts : Nat) (inC : Bool) : Core :=
  let d := c.dmc
  let g := portGroup q
  c.setDmc { d with tickBytes := kset 0 d.tickBytes g (kget 0 d.tickBytes g + bytes)
                    tickIn := if inC then kset 0 d.tickIn q (kget 0 d.tickIn q + bursts) else d.tickIn
                    tickEx := if inC then d.tickEx else kset 0 d.tickEx q (kget 0 d.tickEx q + bursts) }

/-- A streaming port issues: in contract while its count of the tick stays at or below its live load (R142). -/
def Core.streamIssue (c : Core) (q bytes bursts : Nat) : Core × Bool :=
  let inC := decide (kget 0 c.dmc.tickBytes (portGroup q) + bytes ≤ c.liveLoad q)
  (c.countIssue q bytes bursts inC, inC)

/-- A unit's own access drawn at its port: a paced port's owner waits until the account holds the bytes, one without a live load
proceeds as excess (R142, R157). -/
def Core.portDraw (c : Core) (t : Owner) (q bytes bursts : Nat) : Core :=
  if bursts = 0 then c
  else if pacedPort q then
    let p := winOf t
    let l := c.liveLoadOf p q
    if l = 0 then c.countIssue q bytes bursts false
    else
      let need := bytes * c.creditUnit
      let c := c.upTo (c.now + ceilDiv (need - c.creditRaw q p) (l * c.fM.1))
      (c.setCredit q p (min (c.creditCap q p) (c.creditRaw q p - need))).countIssue q bytes bursts true
  else (c.streamIssue q bytes bursts).1

/-- An idle account holds no more than its limit when a unit begins to draw (R142). -/
def Core.creditStart (c : Core) (t : Owner) (q : Nat) : Core :=
  if pacedPort q then c.setCredit q (winOf t) (c.creditNow q (winOf t)) else c

/-! ### The POT cache (R118) -/

/-- Lines of the cache. -/
def potLines : Nat := 2048
/-- A line leaves the cache, and its copies of entries with it. -/
def Core.potDrop (c : Core) (l : Nat) : Core :=
  let gone (k : Nat) : Bool := decide (pairPage (16 * l) ≤ k ∧ k < pairPage (16 * l + 16))
  { c with pot := { c.pot with cache := c.pot.cache.filter (fun x => x != l), copies := c.pot.copies.filter (fun e => !gone e.1) } }
/-- The entry of a page looked up: a miss reads its line as one burst on port 29 and, in a full cache, takes the place of a line that
the spec does not name (R118). -/
def Core.potLook (c : Core) (page : Nat) : Core :=
  let l := page / 16
  if c.pot.cache.contains l then c
  else
    let c := (c.streamIssue 29 64 1).1
    let c := if potLines ≤ c.pot.cache.length then
        c.tick.potDrop (c.pot.cache.getD ((Config.freeWord c.free).toNat % c.pot.cache.length) 0) else c
    { c with pot := { c.pot with cache := l :: c.pot.cache } }
/-- The entries of every page a DRAM access touches looked up, while a table is in force. -/
def Core.potTouch (c : Core) (a n : Nat) : Core :=
  if c.potBase = 0 ∨ n = 0 ∨ c.place a ≠ .dram then c
  else
    let first := (a - 0x1000000000) / 16384
    (List.range ((a + n - 1 - 0x1000000000) / 16384 - first + 1)).foldl (fun (d : Core) i => d.potLook (first + i)) c

/-! ### Requests (R143 to R145) -/

/-- The bursts a request touches, and the channels. -/
def DramReq.bursts (r : DramReq) : List Nat := burstsIn r.addr r.len
def Core.reqChans (c : Core) (r : DramReq) : List Nat := ((r.bursts).map c.chan).eraseDups

/-- A sleeping channel is woken by a request (R150). -/
def Core.chWake (c : Core) (h : Nat) : Core :=
  let c := c.setDmc { c.dmc with lastUse := kset 0 c.dmc.lastUse h c.now }
  if c.chState h = 2 ∨ c.chState h = 3 then c.setChState h 1 else c

/-- A request leaves the queue and is performed: reads answer their data, poisoned when a burst is; writes that meet poison are a data
error (R138, R139, R147). -/
def Core.serve (c : Core) (r : DramReq) (os : List (BurstOutcome × List Byte)) : Core :=
  let c := c.setDmc { c.dmc with reqs := c.dmc.reqs.filter (fun x => x.id != r.id) }
  let c := (c.reqChans r).foldl (fun (d : Core) h => d.setDmc { d.dmc with lastUse := kset 0 d.dmc.lastUse h d.now }) c
  if r.write then
    let w := c.writeBursts r.port r.addr r.data os
    { w.1 with resp := { status := if w.2 then 0 else 3 } }
  else
    let w := c.readBursts r.port r.addr r.len os
    if w.2 then { w.1 with resp := { data := w64 (w.1.load r.addr (min r.len 8)), rest := w.1.bytes (r.addr + 8) (r.len - 8) } }
    else { w.1 with resp := { status := 3 } }

/-- The requests already at the channels for one of these bursts are performed first, in their order (R145; log entry 198). -/
def Core.ahead (c : Core) (bs : List Nat) : Core :=
  (c.dmc.reqs.filter (fun r => !r.waiting && r.bursts.any (fun b => bs.contains b))).foldl (fun (d : Core) r => { d.serve r [] with resp := c.resp }) c

/-! ### A unit's access to memory -/

/-- Who makes an access: its owner tag, class and number of POT_FAULT_INFO, QoS port (R141) and Shared Store port (R133), and whether it
is the host's BAR access. -/
structure Client where
  tag  : Owner
  cls  : Nat
  no   : Nat := 0
  port : Nat
  ss   : Nat
  host : Bool := false

/-- The class of POT_FAULT_INFO for a port's users (R109, R141). -/
def portClass (q : Nat) : Nat :=
  if q < 20 then 2 else if q < 26 then 3 else if q < 28 then 1 else if q = 28 then 4 else if q = 29 then 0 else 5

/-- Bytes as isolation lets them through: zero from a memory without power (R398). -/
def Core.bytesOn (c : Core) (a n : Nat) : List Byte := (List.range n).map (fun i => if c.memOn (a + i) then c.byte (a + i) else 0)

/-- The outcome of a unit's access: 0 done, 1 address error, 2 refused, 3 data error. -/
def checkErr : Check → Nat
  | .ok | .silent => 0
  | .refused _ => 2
  | .unmapped | .bankShut => 1

/-- `n` bytes at an address read by a unit: the ownership check of every page, the code, `k` bursts counted at its port; the bytes and an
error code. The boot ROM without the right and a memory without power read zero (R20, R109, R117, R134, R139, R142, R398). -/
def Core.unitReadBy (c : Core) (u : Client) (k a n : Nat) : Core × List Byte × Nat :=
  let r := c.check u.tag u.host false a n
  let c := c.potTouch a n
  match r.1 with
  | .ok =>
    match c.place a with
    | .shared _ =>
      let x := c.ssRead u.ss a n
      (x.1, x.1.bytesOn a n, if x.2 then 0 else 3)
    | .localMem _ _ =>
      let x := c.lmRead (wordsIn a n)
      (x.1, x.1.bytesOn a n, if x.2 then 0 else 3)
    | .dram =>
      let c := (c.ahead (burstsIn a n)).portDraw u.tag u.port (64 * k) k
      let x := (((burstsIn a n).map c.chan).foldl Core.chWake c).readBursts u.port a n []
      (x.1, x.1.bytesOn a n, if x.2 then 0 else 3)
    | _ => (c, c.bytes a n, 0)
  | .silent => (c, List.replicate n 0, 0)
  | k => (c.noteCheck u.tag u.cls u.no false r, [], checkErr k)

/-- A read that counts every burst it touches (R142). -/
def Core.unitRead (c : Core) (u : Client) (a n : Nat) : Core × List Byte × Nat := c.unitReadBy u (burstsIn a n).length a n

/-- Bytes written by a unit: an error code. Writes to the boot ROM and to a memory without power are lost. -/
def Core.unitWrite (c : Core) (u : Client) (a : Nat) (bs : List Byte) : Core × Nat :=
  let n := bs.length
  let r := c.check u.tag u.host true a n
  let c := c.potTouch a n
  match r.1 with
  | .ok =>
    if !c.memOn a then (c, 0)
    else match c.place a with
      | .shared _ => let x := c.ssWrite u.ss a bs; (x.1, if x.2 then 0 else 3)
      | .localMem _ _ => let x := c.lmWrite a bs; (x.1, if x.2 then 0 else 3)
      | .dram =>
        let c := (c.ahead (burstsIn a n)).portDraw u.tag u.port (countBytes true a n) (burstsIn a n).length
        let x := (((burstsIn a n).map c.chan).foldl Core.chWake c).writeBursts u.port a bs []
        (x.1, if x.2 then 0 else 3)
      | _ => (c, 0)
  | .silent => (c, 0)
  | k => (c.noteCheck u.tag u.cls u.no true r, checkErr k)

/-- A read on a submitter's behalf, as a device unit of the submitter (R452): the bytes, or none and the record of the failure. The
control blocks read on port 29 and Shared Store port 10. -/
def Core.readFor (c : Core) (t : Owner) (a n : Nat) : Core × Option (List Byte) :=
  let x := c.unitRead { tag := t, cls := 5, port := 29, ss := 10 } a n
  (x.1, if x.2.2 = 0 then some x.2.1 else none)

/-! ### Live contracts on the ports (R141, R142, R150) -/

/-- A live contract places load on a port: for the ports of the layer pool a MEMORY contract of that port, or a LAYER contract (R141,
R142). -/
def Core.portLoaded (c : Core) (q : Nat) : Bool :=
  if portGroup q = 16 then c.adm.live.any (fun x => x.kind = kLAYER || (x.kind = kMEMORY && x.unit = q)) else c.liveLoad q != 0

/-- Half the smallest target among the ports above the heads' with a live contract, in ns. -/
def Core.halfTarget (c : Core) : Nat :=
  (List.range 32).foldl (fun m q => if q ≥ 16 && c.portLoaded q then min m (c.targetOf q / 2) else m) 0xFFFFFF

/-- DMC_PORT_CFG as it reads (R141). -/
def Core.portCfg (c : Core) (q : Nat) : W32 :=
  w32 ((if c.portLoaded q then 2147483648 else 0) + (if pacedPort q then 1073741824 else 0) + c.targetOf q % 16777216)

/-- DMC_BG_STAT as it reads: bit 8 while a POT rewrite runs (R132, R146). -/
def Core.bgStat (c : Core) : W32 := setBit (c.rd (rg0 .DMC_BG_STAT)) 8 (c.pot.rewrites != [])

/-- DMC_CH_STATUS as it reads: off while the channel's domain has no power (R153, R398). -/
def Core.chStatus (c : Core) (h : Nat) : W32 :=
  let v := c.rd (rg .DMC_CH_STATUS h)
  if fld v 2 0 != 5 && !c.domOn (17 + h / 8) then setFld v 2 0 6 else v

/-- The port counts of the tick that ends at a master boundary become DMC_PORT_TICK, and the counts restart (R142). -/
def Core.portTick (c : Core) : Core :=
  let c := (List.range 32).foldl (fun c q =>
    c.wr (rg .DMC_PORT_TICK q) (w32 (sat 65535 (kget 0 c.dmc.tickIn q) * 65536 + sat 65535 (kget 0 c.dmc.tickEx q)))) c
  c.setDmc { c.dmc with tickBytes := [], tickIn := [], tickEx := [] }

end Sys2Proof.Machine
end

