-- ==== Sys2Proof/Machine/Operands.lean ====
section
/-! DEFINITION. Operand forms of the Usfer instructions: effective addresses, immediates, branch targets, and accesses to
local memory under R57. -/

namespace Sys2Proof.Machine

open Sys2Proof

/-- g_a plus the sign-extended 13-bit offset, as an unsigned 64-bit address (R57, R62). -/
def Core.effAddr (c : Core) (n a : Nat) (off : BitVec 13) : Nat := (c.g n a + off.signExtend 64).toNat

/-- A sign-extended and a zero-extended 16-bit immediate. -/
def immS (i : BitVec 16) : W64 := i.signExtend 64
def immZ (i : BitVec 16) : W64 := i.zeroExtend 64

/-- A branch target: signed 23-bit word offset from the branch itself (R62). -/
def branchTo (pc : Nat) (off : BitVec 23) : Nat := ((pc : Int) + 4 * off.toInt).toNat

/-- The device address of a local address of sequencer `n` (R14, R18). -/
def localAddr (n off : Nat) : Nat := 0x10000000 + n * 0x40000 + off

/-- A local access of `w` bytes is allowed: the region rules and alignment of R57. -/
def Core.localOk (c : Core) (n : Nat) (write : Bool) (a w : Nat) : Bool :=
  let q := c.seq n
  let sec := q.inCall || (c.owner 3 n).world
  let s := c.svcSize n
  decide (a % w = 0) &&
    (if a < 0x10000 then !write && (decide (0x8000 ≤ a) == q.bank)
     else if a < 0x40000 - s then true
     else decide (a < 0x40000) && sec)

/-- Flipped bits of the 8-byte word at a device address: corrected when one, uncorrectable when two (R57). -/
def Core.flipsAt (c : Core) (a : Nat) : Nat := kget 0 c.flips (a / 8 * 8)

/-- A local access to the service region by a program that is not the secure world's is an ownership refusal beside its exception (R109,
R121). -/
def Core.svcRefuse (c : Core) (n : Nat) (write : Bool) (a : Nat) : Core :=
  let q := c.seq n
  if !(q.inCall || (c.owner 3 n).world) && decide (0x40000 - c.svcSize n ≤ a ∧ a < 0x40000) then c.refuse (.seq n) write (localAddr n a) 1 else c

/-- Bytes of local memory read under its code: exception 5 on an uncorrectable word; a single-bit error is corrected and counted in
SEQ_MEMERR (R57, R78). -/
def Core.eccLoad (c : Core) (n d w : Nat) (k : Core → Nat → Core) : Core :=
  if c.flipsAt d ≥ 2 then c.exception n 5
  else
    let c := if c.flipsAt d = 1 then
        ({ c with flips := kset 0 c.flips (d / 8 * 8) 0 }).addSat (rg .SEQ_MEMERR n) 15 0 1 else c
    k c (c.load d w)

/-- A local load of `w` bytes: exception 1 on a forbidden access, the code of R57 on an allowed one (R78). -/
def Core.localLoad (c : Core) (n a w : Nat) (k : Core → Nat → Core) : Core :=
  if !c.localOk n false a w then (c.svcRefuse n false a).exception n 1
  else
    c.eccLoad n (localAddr n a) w k

/-- A local store of the low `w` bytes of `v`. A store of fewer than 8 bytes reads the word it merges into. -/
def Core.localStore (c : Core) (n a w : Nat) (v : W64) : Core :=
  if !c.localOk n true a w then (c.svcRefuse n true a).exception n 1
  else
    let d := localAddr n a
    if w < 8 ∧ c.flipsAt d ≥ 2 then c.exception n 5
    else
      let c := if w < 8 ∧ c.flipsAt d = 1 then c.addSat (rg .SEQ_MEMERR n) 15 0 1 else c
      let c := { c with flips := kset 0 c.flips (d / 8 * 8) 0 }
      (c.store d (leBytes w v.toNat)).advance n

end Sys2Proof.Machine
end

