-- ==== Sys2Proof/Machine/UsferFlow.lean ====
section
/-! DEFINITION. Control flow of the Usfer instruction set: branches, calls, loops, tables, world calls, the end of a tick, and
the ordering instructions (R62, R65 to R68, R71, R74, R75). -/

namespace Sys2Proof.Machine

open Sys2Proof

/-- BR: if the predicate holds, forward by the offset; 2 cycles taken, 1 not taken (R62, R64). -/
def execBr (n p : Nat) (off : BitVec 23) (s : State) : Host.Outcome State Fault Refusal :=
  run s (fun c => c.instr n 0 0 (fun c =>
    if c.pr n p then (c.charge n 2).jump n (branchTo (c.seq n).pc off) else (c.charge n 1).advance n))

/-- BRN: if the predicate does not hold, forward by the offset (R62, R64). -/
def execBrn (n p : Nat) (off : BitVec 23) (s : State) : Host.Outcome State Fault Refusal :=
  run s (fun c => c.instr n 0 0 (fun c =>
    if c.pr n p then (c.charge n 1).advance n else (c.charge n 2).jump n (branchTo (c.seq n).pc off)))

/-- CALL: g31 = PC + 4, its value pushed on the record in use, PC by the offset (R62, R65). A call that finds 8 entries, which a WAITT
inside called functions can leave from tick to tick, drops the oldest; the spec is silent (log entry 205). -/
def execCall (n p : Nat) (off : BitVec 23) (s : State) : Host.Outcome State Fault Refusal :=
  run s (fun c => c.instr n p 3 (fun c =>
    let q := c.seq n
    let back := q.pc + 4
    let c := c.setSeq n { q with rets := kset [] q.rets q.recNo ((back :: q.retRec).take 8) }
    (c.setG n 31 (w64 back)).setPc n (branchTo q.pc off)))

/-- RET: PC = g31 if it equals the top of the record in use, which is popped; else exception RET_MISMATCH (R62, R65). The
return leaves the loops of the function, and may end a loop body whose last word is the CALL (R66). -/
def execRet (n p : Nat) (s : State) : Host.Outcome State Fault Refusal :=
  run s (fun c => c.instr n p 3 (fun c =>
    let q := c.seq n
    match q.retRec with
    | [] => c.exception n 4
    | t :: ts =>
      if (c.g n 31).toNat = t then
        let q := { q with rets := kset [] q.rets q.recNo ts }
        let r := loopNext ts.length t (q.frames.filter (fun f => decide (f.depth ≤ ts.length)))
        c.setSeq n { q.setFrames r.2 with pc := r.1 }
      else c.exception n 4))

/-- LOOP gc, L, #M: the next L words min(gc, M) times, gc read once; with 0 passes, past the body (R66). -/
def execLoop (n gc len m : Nat) (s : State) : Host.Outcome State Fault Refusal :=
  run s (fun c => c.instr n 0 1 (fun c =>
    let q := c.seq n
    let k := if (c.g n gc).toNat < m then (c.g n gc).toNat else m
    let d := q.retRec.length
    if k = 0 then
      let r := loopNext d (q.pc + 4 + 4 * len) q.frames
      c.setSeq n { q.setFrames r.2 with pc := r.1 }
    else
      c.setSeq n { q.setFrames ({ first := q.pc + 4, after := q.pc + 4 + 4 * len, left := k, depth := d } :: q.frames) with
        pc := q.pc + 4 }))

/-- JTAB ga, #n: the table's word g_a names the target, counted from the word after the table; an index past the table goes
there (R68). The table is read under the code of R57. -/
def execJtab (n a cnt : Nat) (s : State) : Host.Outcome State Fault Refusal :=
  run s (fun c => c.instr n 0 4 (fun c =>
    let q := c.seq n
    let i := (c.g n a).toNat
    let after := q.pc + 4 + 4 * cnt
    if i < cnt then c.eccLoad n (localAddr n (q.pc + 4 + 4 * i)) 2 (fun c v => c.jump n (after + 4 * v)) else c.jump n after))

/-- The gate entry of a service: valid, result mask, local entry address (R74). -/
def Core.gate (c : Core) (n svc : Nat) : Bool × Nat × Nat :=
  let base := 0x40000 - c.svcSize n
  let w := w32 (c.load (localAddr n (base + 8 * svc)) 4)
  (c.svcSize n ≠ 0 && c.secure && bit w 31, fld w 19 16, base + 4 * fld w 15 0)

/-- A service's gate entry read under the code of R57; without a service region there is nothing to read. -/
def Core.gateLoad (c : Core) (n svc : Nat) (k : Core → Core) : Core :=
  if c.svcSize n = 0 || !c.secure then k c else c.eccLoad n (localAddr n (0x40000 - c.svcSize n + 8 * svc)) 4 (fun c _ => k c)

/-- WCALL #svc: saves g29, g30, g31, PC and p1 to p7, enters the secure world on the service stack at the entry; an entry that
is not valid sets g2 to all ones (R74). The entry, where there is a gate, is read under the code of R57. -/
def execWcall (n svc : Nat) (s : State) : Host.Outcome State Fault Refusal :=
  run s (fun c => c.instr n 0 12 (fun c => c.gateLoad n svc (fun c =>
    let e := c.gate n svc
    if e.1 then
      let q := c.seq n
      let r := c.rset n
      let sv : SaveSet := { g29 := c.g n 29, g30 := c.g n 30, g31 := c.g n 31, pc := q.pc + 4, p := r.p }
      let c := c.setSeq n { q with save := sv, inCall := true, results := e.2.1, pc := e.2.2,
                                   rets := kset [] q.rets 4 [], loops := kset [] q.loops 4 [] }
      c.setG n 29 0x40000
    else (c.setG n 2 (BitVec.allOnes 64)).advance n)))

/-- WRET: the scrub of R75 with the gate entry's result registers, WORLD 0, on after the WCALL. -/
def execWret (n : Nat) (s : State) : Host.Outcome State Fault Refusal :=
  run s (fun c => c.instr n 0 12 (fun c => if (c.seq n).inCall then c.scrub n (c.seq n).results else c))

/-- The tick's accounts closed at WAITT or WAITS: SEQ_LASTCYC and SEQ_PEAKCYC (R82). A late program's buffered writes are discarded;
past the overrun's own boundary it is late no longer (R36). -/
def Core.endTick (c : Core) (n : Nat) : Core :=
  let k := (c.st n).tickCyc
  let c := c.wr (rg .SEQ_LASTCYC n) (w32 k)
  let c := if c.rdN (rg .SEQ_PEAKCYC n) < k then c.wr (rg .SEQ_PEAKCYC n) (w32 k) else c
  let q := c.seq n
  let t := c.st n
  (c.setSeq n { q with tw := if t.late then [] else q.tw, loops := kset [] q.loops 0 [] }).setSt n { t with late := t.late && t.closed, doneAt := c.now }

/-- How a tick that ends leaves the program: asleep, or halted where its owner does not run (R58, R128). -/
def Core.tickOver (c : Core) (n : Nat) (m : SeqMode) : Core :=
  let o := c.owner 3 n
  let q := c.seq n
  if o.world || c.partActive o.part then c.setSeq n { q with mode := m } else c.setSeq n { q with mode := .halted, restart := true }

/-- WAITT: the tick ends and the program sleeps until its domain's next boundary; a late tick's tick-window writes are
discarded (R33, R36, R58). -/
def execWaitt (n p : Nat) (s : State) : Host.Outcome State Fault Refusal :=
  run s (fun c => c.instr n p 1 (fun c =>
    (c.endTick n).tickOver n .waiting))

/-- DRAIN: the sequencer waits at the DRAIN until what it issued has been accepted; DRAIN_COMPLETE ends the wait (R71). -/
def execDrain (n p : Nat) (s : State) : Host.Outcome State Fault Refusal :=
  run s (fun c => c.instr n p 64 (fun c => let t := c.st n; c.setSt n { t with drain := true }))

/-- FENCE: local stores and LDCs of one sequencer are already in order in this model; only the PC moves (R71). -/
def execFence (n p : Nat) (s : State) : Host.Outcome State Fault Refusal :=
  run s (fun c => c.instr n p 4 (fun c => c.advance n))

end Sys2Proof.Machine
end

