-- ==== Sys2Proof/Machine/Loader.lean ====
section
/-! DEFINITION. The program loader (R79, R80): the image header, the decoding of every code word (R60 to R62), the rules on
control flow (R65 to R68, R73), and the longest-cost and most-writes paths. -/

namespace Sys2Proof.Machine

open Sys2Proof

/-! ### Code words -/

/-- What a code word does to control flow. -/
inductive Flow where
  | next
  | branch (off : Nat)
  | branchNot (off : Nat)
  | call (off : Int)
  | ret
  | loop (len m : Nat)
  | table (n : Nat)
  | tickEnd (waits : Bool)
  | evret
  | wcall (svc : Nat)
  deriving DecidableEq, Repr

/-- A decoded word: its flow, cost, whether it may be skipped by a predicate, the header right it uses (7 none). -/
structure Code where
  flow  : Flow := .next
  cost  : Nat := 1
  skip  : Bool := false
  right : Nat := 7
  deriving DecidableEq, Repr

/-- A-format words of opcode 6 (R62). -/
def decodeSys (d a b p fn : Nat) : Option Code :=
  let k := p ≠ 0
  if a ≠ 0 ∨ b ≠ 0 then none
  else match fn with
  | 0 => if d = 0 then some { flow := .tickEnd false, skip := k } else none
  | 1 => some { flow := .tickEnd true, skip := k, right := 5 }
  | 2 => some { cost := 40, skip := k, right := 4 }
  | 3 => if d = 0 then some { flow := .ret, cost := 3, skip := k } else none
  | 4 => if d = 0 ∧ p = 0 then some { flow := .evret, cost := 4 } else none
  | 6 => if d = 0 then some { cost := 64, skip := k } else none
  | 7 => if d = 0 then some { cost := 4, skip := k } else none
  | _ => none

/-- One code word of a program image; none for an opcode, function or field value the loader refuses (R62). WRET belongs to
service code only. -/
def decodeWord (w : Nat) : Option Code :=
  let op := w / 2 ^ 26 % 64
  let d := w / 2 ^ 21 % 32
  let a := w / 2 ^ 16 % 32
  let b := w / 2 ^ 11 % 32
  let p := w / 2 ^ 8 % 8
  let fn := w % 256
  let imm := w % 65536
  let pi := imm / 8192
  let off := w % 8388608
  let bp := w / 2 ^ 23 % 8
  let k := p ≠ 0
  let ki := pi ≠ 0
  match op with
  | 0 => if fn < 14 ∨ (fn < 16 ∧ b = 0) then some { skip := k } else none
  | 1 => if fn < 6 ∧ d < 8 ∧ d ≠ 0 then some { skip := k } else none
  | 2 => if fn < 4 ∧ d < 8 ∧ d ≠ 0 ∧ a < 8 ∧ b < 8 then some { skip := k } else none
  | 3 => if fn < 3 then some { cost := 3, skip := k } else none
  | 4 => if fn < 4 then some { cost := 18, skip := k } else none
  | 5 => if (fn = 0 ∧ a = 0 ∧ b < 16) ∨ (fn = 1 ∧ d = 0 ∧ (b = 6 ∨ b = 7)) then some { skip := k } else none
  | 6 => decodeSys d a b p fn
  | 0x10 | 0x11 | 0x12 | 0x13 => some {}
  | 0x14 | 0x15 | 0x16 => if imm < 64 then some {} else none
  | 0x17 => if a < 4 then some {} else none
  | 0x18 => if d % 8 ≠ 0 then some {} else none
  | 0x20 | 0x21 | 0x22 | 0x23 | 0x24 | 0x25 | 0x26 => some { cost := 2, skip := ki }
  | 0x28 | 0x29 | 0x2A | 0x2B => some { skip := ki }
  | 0x2C => some { cost := 40, skip := ki, right := 0 }
  | 0x2D => some { cost := 2, skip := ki, right := 1 }
  | 0x2E => some { skip := ki, right := 2 }
  | 0x3A => if d = 0 ∧ a = 0 ∧ imm % 8192 < 64 then some { cost := 2, skip := ki, right := 3 } else none
  | 0x30 => if off ≠ 0 ∧ off < 4194304 then some { flow := .branch off, cost := 2, skip := bp ≠ 0 } else none
  | 0x31 => if off ≠ 0 ∧ off < 4194304 ∧ bp ≠ 0 then some { flow := .branchNot off, cost := 2, skip := true } else none
  | 0x32 => if off ≠ 0 then
      some { flow := .call (if off < 4194304 then (off : Int) else (off : Int) - 8388608), cost := 3, skip := bp ≠ 0 } else none
  | 0x38 => if a ≠ 0 ∧ imm ≠ 0 then some { flow := .loop a imm } else none
  | 0x39 => if d = 0 ∧ imm ≠ 0 ∧ imm ≤ 1024 then some { flow := .table imm, cost := 4 } else none
  | 0x34 => if d = 0 ∧ a = 0 ∧ imm < 64 then some { flow := .wcall imm, cost := 12, right := 6 } else none
  | _ => none

/-- One code word of a service image: a program's, but for WAITT, WAITS, RENNET, WCALL and EVRET, and WRET besides (R62, R75). -/
def decodeSvc (w : Nat) : Option Code :=
  if w = 0x18000005 then some { flow := .ret, cost := 12 }
  else match decodeWord w with
    | some c => (match c.flow with
      | .tickEnd _ | .wcall _ | .evret => none
      | _ => if c.right = 4 then none else some c)
    | none => none

/-- The code of an image: each word decoded, table words as none (R68); none altogether when a word is refused. -/
def decodeCode (dec : Nat → Option Code) : Nat → List Nat → Option (List (Option Code))
  | _, [] => some []
  | k + 1, _ :: ws => (decodeCode dec k ws).map (fun r => none :: r)
  | 0, w :: ws =>
    match dec w with
    | none => none
    | some i =>
      let skip := match i.flow with | .table n => n | _ => 0
      (decodeCode dec skip ws).map (fun r => some i :: r)

/-! ### The code as a graph (R65 to R68) -/

/-- The code and table words of an image. -/
structure Graph where
  code   : List (Option Code)
  words  : List Nat

def Graph.at (g : Graph) (i : Nat) : Option Code := (g.code.getD i none)
def Graph.flow (g : Graph) (i : Nat) : Flow := match g.at i with | some c => c.flow | none => .next

/-- Targets of the table after position `i`: each word's offset from the first word after the table, its upper half zero. -/
def Graph.targets (g : Graph) (i n : Nat) : Option (List Nat) :=
  let ws := (g.words.drop (i + 1)).take n
  if ws.length = n ∧ ws.all (fun w => decide (w < 65536)) then some ((i + 1 + n) :: ws.map (fun w => i + 1 + n + w)) else none

/-- The word a CALL at `i` names, when it is code. -/
def Graph.callee (g : Graph) (i : Nat) (off : Int) : Option Nat :=
  let t := (i : Int) + off
  if t < 0 then none else (g.at t.toNat).map (fun _ => t.toNat)

/-- The callee of the word at `i`, if it is a CALL. -/
def Graph.called (g : Graph) (i : Nat) : Option Nat :=
  match g.flow i with | .call o => g.callee i o | _ => none

/-- Words that may execute after the word at `i` in the same function. -/
def Graph.succs (g : Graph) (i : Nat) : List Nat :=
  match g.at i with
  | none => []
  | some c =>
    let on := if c.skip then [i + 1] else []
    match c.flow with
    | .next | .wcall _ | .call _ => [i + 1]
    | .branch o => (i + o) :: on
    | .branchNot o => [i + o, i + 1]
    | .ret | .tickEnd _ => on
    | .evret => []
    | .loop l _ => [i + 1, i + 1 + l]
    | .table n => (g.targets i n).getD []

/-- Of each of the last `k` words: whether one with the property may execute after it, or is it, in the same function. -/
def Graph.reachTail (g : Graph) (hit : Nat → Bool) : Nat → List Bool
  | 0 => []
  | k + 1 =>
    let vs := g.reachTail hit k
    let i := g.code.length - (k + 1)
    (hit i || (g.succs i).any (fun t => decide (i < t) && vs.getD (t - i - 1) false)) :: vs
def Graph.reach (g : Graph) (hit : Nat → Bool) : List Bool := g.reachTail hit g.code.length

/-- The same through the functions called, `d` deep. -/
def Graph.meets (g : Graph) (hit : Nat → Bool) : Nat → List Bool
  | 0 => g.reach hit
  | d + 1 =>
    let low := g.meets hit d
    g.reach (fun i => hit i || (g.called i).any (fun t => low.getD t false))

/-- A chain of more than `d` calls may follow a word (R65). -/
def Graph.deeper (g : Graph) : Nat → List Bool
  | 0 => g.reach (fun i => (g.called i).isSome)
  | d + 1 =>
    let low := g.deeper d
    g.reach (fun i => (g.called i).any (fun t => low.getD t false))

/-- How many CALL words the code has: a longer chain of calls is a cycle. -/
def Graph.calls (g : Graph) : Nat := ((List.range g.code.length).filter (fun i => (g.called i).isSome)).length

/-- Every branch, call and table target is a word of the code (R65, R68). -/
def Graph.targetsOk (g : Graph) : Bool :=
  (List.range g.code.length).all (fun i => match g.flow i with
    | .branch o | .branchNot o => (g.at (i + o)).isSome
    | .call o => (g.callee i o).isSome
    | .table t => (match g.targets i t with | some ts => ts.all (fun j => (g.at j).isSome) | none => false)
    | _ => true)

/-- Loops with their bodies, as positions of the first word and of the word after the body. -/
def Graph.bodies (g : Graph) : List (Nat × Nat) :=
  (List.range g.code.length).filterMap (fun i => match g.flow i with | .loop l _ => some (i + 1, i + 1 + l) | _ => none)

/-- R67 over all loops of the code: bodies inside the code and inside one another, at most 4 deep, without WAITT, WAITS or WCALL in
them or in what they call. -/
def Graph.loopsOk (g : Graph) : Bool :=
  let bs := g.bodies
  let stops (i : Nat) : Bool := match g.flow i with | .tickEnd _ | .wcall _ => true | _ => false
  let low := g.meets stops g.calls
  bs.all (fun b =>
    let outer := bs.filter (fun o => decide (o.1 ≤ b.1 - 1 ∧ b.1 - 1 < o.2))
    decide (b.2 ≤ g.code.length) && outer.all (fun o => decide (b.2 ≤ o.2)) && decide (outer.length ≤ 3) &&
      (List.range (b.2 - b.1)).all (fun j => !(stops (b.1 + j) || (g.called (b.1 + j)).any (fun t => low.getD t false))))

/-- The call graph has no cycle, and no chain of more than 8 calls begins at one of the entries (R65). -/
def Graph.callsOk (g : Graph) (entries : List Nat) : Bool :=
  let deep := g.deeper 8
  !(g.deeper g.calls).any id && entries.all (fun e => !deep.getD e true)

/-! ### Longest paths (R66, R80) -/

/-- What is counted along a path: cycles, or tick-window writes. -/
abbrev Weight := Code → Nat

/-- The greatest weights from a word: to leaving the loop body it is in, to the end of the tick, to an EVRET, to a RET; none where no path
leads there. -/
structure PathVal where
  fall : Option Nat := none
  tick : Option Nat := none
  evret : Option Nat := none
  ret  : Option Nat := none
  deriving DecidableEq, Repr

def maxO : Option Nat → Option Nat → Option Nat
  | none, y => y
  | x, none => x
  | some a, some b => some (max a b)
def addO (n : Nat) : Option Nat → Option Nat := Option.map (fun x => x + n)

def PathVal.join (x y : PathVal) : PathVal :=
  { fall := maxO x.fall y.fall, tick := maxO x.tick y.tick, evret := maxO x.evret y.evret, ret := maxO x.ret y.ret }
def PathVal.shift (n : Nat) (x : PathVal) : PathVal :=
  { fall := addO n x.fall, tick := addO n x.tick, evret := addO n x.evret, ret := addO n x.ret }
/-- The costliest of the paths. -/
def PathVal.top (x : PathVal) : Nat := max (max (x.fall.getD 0) (x.tick.getD 0)) (max (x.evret.getD 0) (x.ret.getD 0))

/-- The values reached through a list of targets; none if any target is not code. -/
def joinAll (f : Nat → Option PathVal) : List Nat → Option PathVal
  | [] => some {}
  | t :: ts => match f t, joinAll f ts with
    | some x, some y => some (x.join y)
    | _, _ => none

/-- Branch targets at or past `b` of the words of a body, and `b` itself: where a loop can be left to (R67). -/
def Graph.exits (g : Graph) (a b : Nat) : List Nat :=
  b :: ((List.range (b - a)).flatMap (fun j =>
    match g.flow (a + j) with
    | .branch o | .branchNot o => if a + j + o > b then [a + j + o] else []
    | .table n => ((g.targets (a + j) n).getD []).filter (fun t => decide (t > b))
    | _ => []))

/-- What a path analysis works with: the code, the weight of a word, what a WCALL adds to it, the values of a callee. -/
structure Paths where
  g      : Graph
  wt     : Weight
  svc    : Nat → Nat
  callee : Nat → Option PathVal

/-- Values of the last `k` words before `b`: of a loop body, whose end is left at `b`, or of the whole code, whose end no path may pass
(R58). `inner` gives one pass of a body. A predicated-off word is counted at its full cost (R61); a loop as 1 + M × its costliest pass
(R66); the 4 cycles of EVRET are in the 10 that R43 adds to a handler's cost. -/
def Paths.tail (p : Paths) (inner : Nat → Nat → Option PathVal) (b : Nat) (body : Bool) : Nat → List (Option PathVal)
  | 0 => []
  | k + 1 =>
    let vs := p.tail inner b body k
    let i := b - (k + 1)
    let at_ (t : Nat) : Option PathVal :=
      if t ≥ b then (if body then some { fall := some 0 } else none) else if t ≤ i then none else vs.getD (t - i - 1) none
    let v : Option PathVal :=
      match p.g.at i with
      | none => none
      | some c =>
        let w := p.wt c
        let after (x : PathVal) : Option PathVal := if c.skip then (at_ (i + 1)).map (fun y => x.join (y.shift w)) else some x
        let fork (o : Nat) : Option PathVal := match at_ (i + o), at_ (i + 1) with
          | some x, some y => some ((x.shift w).join (y.shift (min w 1)))
          | _, _ => none
        match c.flow with
        | .next => (at_ (i + 1)).map (PathVal.shift w)
        | .branch o => if c.skip then fork o else (at_ (i + o)).map (PathVal.shift w)
        | .branchNot o => fork o
        | .call o => (match (p.g.callee i o).bind p.callee with
          | none => none
          | some r =>
            let x : PathVal := ({ r with ret := none } : PathVal).shift w
            match r.ret with
            | none => after x
            | some back => (at_ (i + 1)).map (fun y =>
                let z := x.join (y.shift (w + back))
                if c.skip then z.join (y.shift w) else z))
        | .ret => after { ret := some w }
        | .tickEnd _ => after { tick := some w }
        | .evret => some { evret := some 0 }
        | .loop l m =>
          if i + 1 + l > b then none
          else match inner (i + 1) (i + 1 + l) with
            | none => none
            | some r =>
              let all := w + m * r.top
              (joinAll at_ (p.g.exits (i + 1) (i + 1 + l))).map (fun y =>
                (y.shift all).join { evret := r.evret.map (fun _ => all), ret := r.ret.map (fun _ => all) })
        | .table t => (p.g.targets i t).bind (fun ts => (joinAll at_ ts).map (PathVal.shift w))
        | .wcall s => (at_ (i + 1)).map (PathVal.shift (w + p.svc s))
    v :: vs

/-- One pass of the body `[a, b)`, loops inside it nested at most `depth` deep (R66, R67). -/
def Paths.pass (p : Paths) : Nat → Nat → Nat → Option PathVal
  | 0, _, _ => none
  | depth + 1, a, b => (p.tail (p.pass depth) b true (b - a)).getD 0 none

/-- Values of every word when calls may nest `d` deep (R65: at most 8). -/
def Graph.paths (g : Graph) (wt : Weight) (svc : Nat → Nat) : Nat → List (Option PathVal)
  | 0 =>
    let p : Paths := { g := g, wt := wt, svc := svc, callee := fun _ => none }
    p.tail (p.pass 4) g.code.length false g.code.length
  | d + 1 =>
    let lower := g.paths wt svc d
    let p : Paths := { g := g, wt := wt, svc := svc, callee := fun i => lower.getD i none }
    p.tail (p.pass 4) g.code.length false g.code.length

/-! ### Images -/

/-- The header and sections of an image as read (R79). -/
structure Parsed where
  image   : Image
  code    : List (Option Code)
  words   : List Nat
  body    : List Byte
  signed  : Bool
  rights  : Nat
  dataTop : Nat
  deriving DecidableEq, Repr

/-- Words of a byte list. -/
def wordsOf : List Byte → List Nat
  | a :: b :: c :: d :: r => leNat [a, b, c, d] :: wordsOf r
  | _ => []

def pairsOf : List Nat → List (Nat × Nat)
  | a :: b :: r => (a % 65536, b) :: pairsOf r
  | _ => []

/-- What the loader knows of the submission: the submitter's window (64 secure), sequencer, domain, whether images must be
signed, the service-region size, gate costs. -/
structure LoadCtx where
  secure  : Bool
  hasSec  : Bool
  mustSign : Bool
  domain  : Nat
  svcSize : Nat
  key     : List Byte

/-- The header of an image: its words and the fields of R79. -/
structure Header where
  h : List Nat
  deriving DecidableEq, Repr

def Header.w (x : Header) (i : Nat) : W32 := w32 (x.h.getD i 0)
def Header.flags (x : Header) : Nat := fld (x.w 1) 15 0
def Header.signed (x : Header) : Bool := x.flags % 2 = 1
def Header.nh (x : Header) : Nat := fld (x.w 2) 23 16
def Header.nt (x : Header) : Nat := fld (x.w 2) 15 8
def Header.codeSize (x : Header) : Nat := (x.w 8).toNat
def Header.constSize (x : Header) : Nat := (x.w 9).toNat
/-- The bytes ahead of the signature. -/
def Header.signedSize (x : Header) : Nat := 64 + 8 * x.nh + 4 * x.nt + x.codeSize + x.constSize
def Header.size (x : Header) : Nat := x.signedSize + (if x.signed then 96 else 0)

/-- Header fields, sizes and reserved zeros that every image must have right (R79, R80). -/
def Header.ok (x : Header) (bs : List Byte) : Bool :=
  x.h.length = 16 && x.w 0 = 0x55534631 && fld (x.w 1) 31 16 = 1 && x.flags < 8
    && x.nh ≤ 64 && x.nt ≤ 64 && fld (x.w 2) 7 0 = 0
    && (x.w 4).toNat % 8 = 0 && (x.w 5).toNat % 8 = 0 && decide ((x.w 6).toNat < 128) && decide (fld (x.w 7) 31 16 ≤ 512)
    && x.codeSize % 4 = 0 && x.constSize % 8 = 0 && decide (x.codeSize + x.constSize ≤ 32768) && (x.w 10).toNat = x.size && bs.length = x.size
    && (x.h.drop 12).all (fun v => v = 0)

/-- The signature of an image, where it carries one (R79). -/
def Header.verified (x : Header) (key bs : List Byte) : Bool :=
  !x.signed || Config.ecdsaVerify key (bs.take x.signedSize) (bs.drop x.signedSize)

/-- Code and constants of an image. -/
def Header.body (x : Header) (bs : List Byte) : List Byte := (bs.drop (64 + 8 * x.nh + 4 * x.nt)).take (x.codeSize + x.constSize)

/-- Steps 1 to 3 of R80: header, signature, decoding. -/
def parseImage (x : LoadCtx) (bs : List Byte) : Option Parsed :=
  let hd : Header := { h := wordsOf (bs.take 64) }
  let hOk := hd.ok bs && hd.flags < 4 && (hd.flags / 2 = 1) == x.secure && fld (hd.w 2) 31 24 = x.domain &&
    decide (fld (hd.w 7) 15 0 < hd.codeSize / 4) && (!x.mustSign || hd.signed)
  if !hOk || !hd.verified x.key bs then none
  else
    let hs := pairsOf (wordsOf ((bs.drop 64).take (8 * hd.nh)))
    let ts := wordsOf ((bs.drop (64 + 8 * hd.nh)).take (4 * hd.nt))
    let body := hd.body bs
    let words := wordsOf (body.take hd.codeSize)
    match decodeCode decodeWord 0 words with
    | none => none
    | some code =>
      let svcs := code.filterMap (fun o => o.bind (fun i => match i.flow with | .wcall s => some s | _ => none))
      some { code := code, words := words, body := body, signed := hd.signed, rights := (hd.w 6).toNat, dataTop := (hd.w 11).toNat
             image := { domain := fld (hd.w 2) 31 24, wcet := (hd.w 3).toNat, stack := (hd.w 4).toNat, hstack := (hd.w 5).toNat
                        twmax := fld (hd.w 7) 31 16, entry := fld (hd.w 7) 15 0, codeSize := hd.codeSize, secure := x.secure
                        handlers := hs, targets := ts, services := svcs } }

/-- A service image (manifest type 0x02, R79, R411): signed, flag bit 2 set, its code without what R75 forbids. Its code and constants are
the service region from its base, the gate of 64 entries first (log entry 214). -/
def parseService (key bs : List Byte) : Option (List Byte) :=
  let hd : Header := { h := wordsOf (bs.take 64) }
  if !hd.ok bs || hd.flags / 4 ≠ 1 || !hd.signed || !hd.verified key bs || hd.codeSize < 512 then none
  else
    let body := hd.body bs
    (decodeCode decodeSvc 0 (wordsOf ((body.take hd.codeSize).drop 512))).map (fun _ => body)

/-- The refusals the loader gives (R80): BAD_IMAGE, or COST_MISMATCH with the cycles understated. -/
inductive LoadResult where
  | bad
  | understated (by_ : Nat)
  | ok
  deriving DecidableEq, Repr

/-- Words a handler may not meet: WAITT, WAITS, RENNET, WCALL (R73). -/
def banned (g : Graph) (i : Nat) : Bool :=
  match g.at i with
  | some c => (match c.flow with
    | .tickEnd _ | .wcall _ => true
    | _ => c.right = 4)
  | none => false

/-- Steps 3 to 7 of R80 on a parsed image; `gate s` is a service's declared cost when its gate entry is valid (R76, R77). -/
def judge (x : LoadCtx) (gate : Nat → Option Nat) (p : Parsed) : LoadResult :=
  let n := p.words.length
  let g : Graph := { code := p.code, words := p.words }
  let cost := g.paths (fun c => c.cost) (fun s => (gate s).getD 0 + 12) 8
  let tws := g.paths (fun c => if c.right = 2 then 1 else 0) (fun _ => 0) 8
  let bans := g.meets (banned g) 8
  let val (l : List (Option PathVal)) (i : Nat) : Option PathVal := if i < n then l.getD i none else none
  let used := p.code.all (fun o => match o with
    | some c => c.right = 7 || p.rights.testBit c.right | none => true)
  let svcsOk := p.image.services.all (fun s => x.hasSec && x.svcSize ≠ 0 && (gate s).isSome)
  let graphOk := g.targetsOk && g.loopsOk && g.callsOk (p.image.entry :: p.image.handlers.map (fun h => h.1))
  let stackOk := 0x10000 ≤ p.dataTop ∧ p.dataTop ≤ 0x40000 - x.svcSize
    ∧ p.dataTop + p.image.stack + 3 * p.image.hstack ≤ 0x40000 - x.svcSize
  match val cost p.image.entry, val tws p.image.entry with
  | some e, some t =>
    let handlersOk := p.image.handlers.all (fun h => match val cost h.1 with
      | some v => !bans.getD h.1 true && v.evret.isSome && v.ret.isNone
      | none => false)
    match e.tick, e.ret with
    | some cw, none =>
      if !graphOk || !svcsOk || !handlersOk || !used || !decide stackOk then .bad
      else if p.image.wcet < cw then .understated (cw - p.image.wcet)
      else if p.image.twmax < t.tick.getD 0 ∨ t.tick.getD 0 > 512 then .bad
      else
        p.image.handlers.foldl (fun r h => match r with
          | .ok => (match (val cost h.1).bind PathVal.evret with
            | some v => if h.2 < v then .understated (v - h.2) else .ok
            | none => .bad)
          | r => r) .ok
    | _, _ => .bad
  | _, _ => .bad

end Sys2Proof.Machine
end

