-- ==== Sys2Proof/Machine/Adm.lean ====
section
/-! DEFINITION. The Admission Checker (R44 to R54, R450, R451): the nine steps of an evaluation, drafts, seals, the
admission windows and the load registers. -/

namespace Sys2Proof.Machine

open Sys2Proof

/-- A verdict: the code of R54 (0 admitted), the index of the resource that failed if the check names one, the excess. -/
structure Verdict where
  code : Nat := 0
  res  : Option Nat := none
  exc  : Nat := 0
  deriving DecidableEq, Repr

def vOK : Verdict := {}
/-- The first failing verdict of a list. -/
def firstBad : List Verdict → Verdict
  | [] => vOK
  | v :: vs => if v.code = 0 then firstBad vs else v
/-- Code `k` when the condition holds. -/
def failIf (b : Bool) (k : Nat) : Verdict := if b then { code := k } else vOK
def failAt (b : Bool) (k r e : Nat) : Verdict := if b then { code := k, res := some r, exc := e } else vOK

/-- What an evaluation works on. -/
structure EvalCtx where
  tag   : Owner
  win   : Nat
  new   : Contract
  items : List Item
  image : Option (List Byte)
  parsed : Option Parsed
  /-- Handler count and target list of an image whose header can be read, whatever the loader makes of the rest (R451: step 6 comes before
  step 7). -/
  peek  : Option (Nat × List Nat)

def EvalCtx.known (e : EvalCtx) : List Contract := e.items.flatMap (fun i => i.1 :: i.2.toList)

/-- A SOURCE contract of a slot. -/
def sourceOf (l : List Contract) (slot : Nat) : Option Contract :=
  (l.filter (fun x => x.kind = kSOURCE && x.unit = slot)).getLast?

/-! ### Step 3: absent units -/

def Core.absentUnit (c : Core) (x : Contract) : Bool :=
  let k := c.counts
  match x.kind with
  | 1 => (decide (x.unit < 64) && !c.domOn (2 + x.unit / 16)) ||
      (let d := x.f 6 7 0; decide (0x10 ≤ d ∧ d < 0x20) && decide (k.heads ≤ d - 0x10))
  | 2 => decide (x.unit < 1024) && srcAbsent k x.unit
  | 3 => match x.f 7 3 0 with
    | 0 => decide (k.csi ≤ x.f 9 2 0) || !c.domOn 19
    | 1 => decide (k.net ≤ x.f 9 1 0) || !c.domOn 19
    | 3 => decide (k.rogar ≤ x.f 10 0 0) || !c.domOn 20
    | _ => false
  | 4 => (decide (x.unit < 16) && (decide (k.heads ≤ x.unit) || !c.domOn (10 + x.unit / 8))) ||
      decide (x.n64 8 / 2 ^ k.le ≠ 0) || (!c.secure && decide (x.f 4 15 8 = 30 ∨ x.f 4 15 8 = 31))
  | 6 => decide (x.unit < 8) && (decide (k.vde ≤ x.unit) || !c.domOn (14 + x.unit / 4))
  | 7 => (decide (x.unit < 4) && (decide (k.vee ≤ x.unit) || !c.domOn 16)) ||
      (!(bit (x.w 7) 5) && decide (x.f 4 7 0 < 16 ∧ k.heads ≤ x.f 4 7 0))
  | 8 => !c.domOn 23
  | 9 => decide (x.unit < 16) && (decide (k.heads ≤ x.unit) || !c.domOn (10 + x.unit / 8))
  | _ => false

/-! ### Step 4: grants -/

/-- A counted pool: the submitter's uses, the new contract's among them, against what it holds. Partition 0 holds what the
grants and the claims leave (R112, R122). -/
def Core.poolOver (c : Core) (win total used : Nat) (granted : PartRec → Nat) : Bool :=
  let held (p : Nat) : Nat := granted (kget {} c.parts p)
  let others := (c.parts.map (fun p => if p.1 = 0 then 0 else granted p.2)).sum
  if win = 0 then decide (total - others < used) else decide (held win < used)

/-- Sums of a field over the submitter's own known contracts of a kind. -/
def EvalCtx.mine (e : EvalCtx) (ok : Contract → Bool) (f : Contract → Nat) : Nat :=
  sumItems (e.items.filter (fun i => i.1.sub = e.win)) (fun x => if ok x then f x else 0)

/-- Step 4 (R44, R112, R122). A RATE contract from another submitter than the one R40 allows has no code of its own in the spec: the model
answers OVER_GRANT (log entry 211). -/
def Core.grantFail (c : Core) (e : EvalCtx) : Bool :=
  let x := e.new
  let t := e.tag
  let own (k i : Nat) : Bool := sameOwner t (c.owner k i)
  match x.kind with
  | 1 => decide (x.unit < 64) && !own 3 x.unit
  | 2 =>
    let tgt := x.f 4 7 0
    (decide (x.unit < 1024) && !own 6 x.unit) || (decide (tgt < 64) && !own 3 tgt) ||
      (tgt == 255 && (t.world || decide (2047 < x.f 5 15 0) || !own 7 (x.f 5 15 0)))
  | 3 => x.f 7 3 0 == 0 && !own 0xC (x.f 9 2 0)
  | 4 =>
    let slot := x.f 4 15 8
    let prot := decide (30 ≤ slot)
    let mask := x.n64 8
    (prot && !t.world && decide (slot < 32)) || (!prot && decide (x.unit < 16) && !own 1 x.unit) ||
      (List.range 64).any (fun n => mask.testBit n && (!own 2 n ||
        (List.range 16).any (fun h => h != x.unit && (groupMask e.known h).testBit n)))
  | 6 => decide (x.unit < 8) && decide (x.f 4 15 8 < 32) &&
      c.poolOver e.win 32 (e.mine (fun y => y.kind = kDECODE && y.unit = x.unit) (fun _ => 1)) (fun p => kget 0 p.decCtx x.unit)
  | 7 =>
    (!t.world && !(bit (x.w 7) 5) && decide (x.f 4 7 0 < 16) && !own 1 (x.f 4 7 0) && !(c.isSecure t)) ||
    (!t.world && t.part != 0 && decide (kget 0 (kget {} c.parts t.part).encShare x.unit * 1000000000
      < e.mine (fun y => y.kind = kENCODE && y.unit = x.unit) (fun y => y.f 5 31 16 * y.f 5 15 0 * y.n 6)))
  | 8 =>
    let s (i hi lo : Nat) : Nat := e.mine (fun y => y.kind = kAUDIO) (fun y => y.f i hi lo)
    let p := x.f 6 15 8
    c.poolOver e.win 128 (s 5 31 24) (fun p => p.mixIn) || c.poolOver e.win 64 (s 5 23 16) (fun p => p.mixOut) ||
      c.poolOver e.win 64 (s 5 7 0) (fun p => p.bridgeCh) || c.poolOver e.win 128 (s 6 7 0) (fun p => p.tdmSlots) ||
      (decide (p < 8) && !own 0xD p)
  | 9 => decide (x.unit < 16) && !own 1 x.unit
  | 10 => !c.isSecure t
  | _ => false

/-! ### Step 5: kind limits -/

/-- The scaler limits of R214. -/
def layerScaleBad (x : Contract) : Bool :=
  let ws := x.f 5 31 16
  let hs := x.f 5 15 0
  let wd := x.f 6 31 16
  let hd := x.f 6 15 0
  ws = 0 || ws > 8192 || hs = 0 || hs > 8192 || wd = 0 || wd > 8192 || hd = 0 || hd > 4352 || ws > 8 * wd ||
    hs > (if ws ≤ 4096 then 4 else 2) * hd ||
    (decide (30 ≤ x.f 4 15 8) && (ws != wd || hs != hd || ws > 2048 || hs > 2048))

/-- The size limits of R281. -/
def encodeScaleBad (l : List Contract) (x : Contract) : Bool :=
  let w := x.f 5 31 16
  let h := x.f 5 15 0
  w % 8 != 0 || h % 8 != 0 || w < 320 || h < 240 ||
    (!(bit (x.w 7) 5) && (match headOf l (x.f 4 7 0) with
      | some y => decide (w > y.hActive) || decide (h > y.vActive) || decide (y.hActive > 4 * w) || decide (y.vActive > 4 * h)
      | none => false))

/-- The timing limits of R231. -/
def headTimingBad (fM : Ratio) (x : Contract) : Bool :=
  let pk := x.n 4
  let ht := x.hTotal
  let vt := x.vTotal
  let ha := x.hActive
  let va := x.vActive
  let near (n d : Nat) : Bool := decide (pk * 1000 * d * 1000 ≤ n * ht * vt * 1005) && decide (n * ht * vt * 995 ≤ pk * 1000 * d * 1000)
  pk < 25000 || pk > 2400000 || ha < 320 || ha > 7680 || ha % 2 = 1 || va < 240 || va > 4320 || ha * va > 33177600 ||
    ht < ha + 64 || ht > 16384 || vt < va + 3 || vt > 8192 || x.f 7 1 0 = 3 ||
    (match x.hMode with
     | 0 => true
     | 1 => x.f 7 11 7 > 16 || x.f 7 6 2 > 16 || !near (fM.1 * x.hN) (fM.2 * x.hD)
     | 3 => !near (x.n 9) 1000 || x.n 8 < 24000 || x.n 9 ≤ x.n 8 || decide (pk * 1000000 > 65535 * ht * x.n 8)
     | _ => false)

/-- A HEAD contract against R231 at a master rate; the excess in 1,000 pixels/s. -/
def headLimit (fM : Ratio) (x : Contract) : Verdict :=
  if headTimingBad fM x then { code := 0x10, res := some x.unit, exc := x.n 4 - 2400000 } else vOK

/-- Step 5. -/
def limitFail (e : EvalCtx) (fM : Ratio) : Verdict :=
  let x := e.new
  match x.kind with
  | 4 => failIf (layerScaleBad x) 0x11
  | 7 => failIf (encodeScaleBad e.known x) 0x11
  | 9 => headLimit fM x
  | _ => vOK

/-! ### Step 6: parameters -/

/-- Another contract of a list with the property. -/
def EvalCtx.other (e : EvalCtx) (p : Contract → Bool) : Bool := e.known.any (fun y => y.id != e.new.id && p y)

def overlap (a n b m : Nat) : Bool := decide (0 < n ∧ 0 < m ∧ a < b + m ∧ b < a + n)

/-- Data types of a CSI binding (R181's table). -/
def csiType (t : Nat) : Bool := t = 0x2B || t = 0x2C || t = 0x1E || t = 0x1F || t = 0x24

/-- A range lies in Shared Store banks that the tag holds (R17, R179, R201). -/
def Core.inBanks (c : Core) (t : Owner) (a n : Nat) : Bool :=
  decide (a + n ≤ 0x2000000) && (List.range 32).all (fun k =>
    !(decide (a < (k + 1) * 0x100000 ∧ k * 0x100000 < a + n)) || sameOwner t (c.owner 8 k))

/-- The SOURCE binding's bits that its intake defines in word 10 (R179; log entry 12). -/
def bindMask2 : Nat → Nat
  | 1 => 0xFFFFFFFF
  | 3 => 1
  | _ => 0

/-- Buffers of a camera or ST 2110-20 slot: a line ring in banks the owner holds, DRAM pages the owner may write (R179; log entry 83). -/
def Core.buffersBad (c : Core) (t : Owner) (base stride bufs : Nat) : Bool :=
  if bufs = 1 then !c.inBanks t base stride else (c.check t false true base (bufs * stride)).1 != .ok

/-- R54 and R179. -/
def Core.sourceBad (c : Core) (e : EvalCtx) : Bool :=
  let x := e.new
  let intake := x.f 7 3 0
  let freeze := x.f 7 15 8
  let loss := if x.f 11 7 0 = 0 then 16 else x.f 11 7 0
  let port := x.f 8 7 0
  let bufs := x.f 15 7 0
  let noBuf := x.n64 12 = 0 && x.n 14 = 0 && x.n 15 = 0
  x.unit > 1023 || x.n 9 &&& bindMask intake != x.n 9 || x.n 10 &&& bindMask2 intake != x.n 10 || x.n 4 = 0 || x.n 5 = 0 || x.n 6 < x.n 4 || freeze = 0 || loss < freeze ||
    e.other (fun y => y.kind = kSOURCE && y.unit = x.unit) ||
    (match intake with
     | 0 => !(port == 26 || port == 27) || !csiType (x.f 9 13 8) || x.n 14 = 0 ||
         !(bufs = 1 || (3 ≤ bufs && bufs ≤ 8)) || c.buffersBad e.tag (x.n64 12) (x.n 14) bufs
     | 1 => port != 31 || x.f 9 3 2 = 3 ||
         (if x.f 9 3 2 = 2 then !(3 ≤ bufs && bufs ≤ 8) || x.n 14 = 0 || c.buffersBad e.tag (x.n64 12) (x.n 14) bufs else !noBuf)
     | 2 => !(port == 26 || port == 27 || port == 28) || !noBuf
     | 3 => port != 31 || !noBuf
     | _ => true)

/-- The device address: wheel and member number, 0.0 until RGL_ID is written (R10, R382). -/
def Core.devAddr (c : Core) : Nat := c.rdF (rg0 .RGL_ID) 15 0

/-- R200, R208, R212, R221, R238. -/
def Core.layerBad (c : Core) (e : EvalCtx) : Bool :=
  let x := e.new
  let slot := x.f 4 15 8
  let fmt := x.f 4 7 0
  let prot := decide (30 ≤ slot)
  let src := sourceOf e.known (x.f 7 15 0)
  x.unit > 15 || slot > 31 || (x.n64 8 = 0) != prot ||
    e.other (fun y => y.kind = kLAYER && y.unit = x.unit && y.f 4 15 8 = slot) ||
    x.f 7 31 16 != c.devAddr || src.isNone || bpp4 fmt = 0 ||
    (prot && (!(fmt == 0x10 || fmt == 0x12) || (match src with | some y => y.sub != 64 | none => true))) ||
    (!prot && e.known.any (fun y => y.kind = kHEAD && y.unit = x.unit && bit (y.w 10) 31))

/-- Profile codes and output formats (R189). -/
def decodeFormats : Nat → List Nat
  | 1 => [0, 1, 2, 3]
  | 2 => [1, 3]
  | 3 => [1, 3, 4]
  | 0x10 => [0, 1, 2, 3]
  | _ => []

/-- R190. -/
def decodeBad (e : EvalCtx) : Bool :=
  let x := e.new
  let w := x.f 5 31 16
  let h := x.f 5 15 0
  let prof := x.f 4 7 0
  let pool := x.f 8 20 16
  !(decodeFormats prof).contains (x.f 8 15 12) || w > 8192 || h > 4352 || w % 8 != 0 || h % 8 != 0 || w * h > 35651584 ||
    x.n 7 > 480000 || pool < 4 || pool > 20 || (prof = 0x10 && pool < 11) || x.unit > 7 ||
    (match sourceOf e.known (x.f 8 9 0) with
     | some y => y.sub != e.win || !(y.f 7 3 0 == 2 || (y.f 7 3 0 == 1 && y.f 9 3 2 == (if prof = 0x10 then 1 else 0)))
     | none => true) ||
    x.n 9 % 4096 != 0 || x.n 9 < 65536 || x.n64 10 % 4096 != 0 || x.n64 12 % 4096 != 0 || x.n 14 % 4096 != 0

/-- Bytes per pixel of an encoder profile, times 2 (R278). -/
def encB2 (x : Contract) : Nat := if bit (x.w 7) 0 then 6 else 3
/-- CTUs of a picture (R281). -/
def nCtu (x : Contract) : Nat := ceilDiv (x.f 5 31 16) 64 * ceilDiv (x.f 5 15 0) 64

/-- R281, its SOURCE_PARAM row. -/
def Core.encodeBad (c : Core) (e : EvalCtx) : Bool :=
  let x := e.new
  let w := x.f 5 31 16
  let h := x.f 5 15 0
  let rows := x.f 10 3 0
  let ring := x.f 10 24 7 * 128
  let remote := bit (x.w 7) 5
  let hd := headOf e.known (x.f 4 7 0)
  let refs := 2 * (ceilDiv (w * h * encB2 x) 8192 * 4096)
  x.unit > 3 || e.other (fun y => y.kind = kENCODE && y.unit = x.unit && y.f 9 2 0 = x.f 9 2 0) || x.f 7 13 8 > 51 ||
    x.f 7 31 16 = 0 || x.n 8 < 128 * nCtu x + 1024 || rows < 3 ||
    !c.inBanks e.tag ring (rows * 64 * w * encB2 x / 2) || x.n64 12 % 4096 != 0 ||
    (c.check e.tag false true (x.n64 12) refs).1 != .ok ||
    (!remote && (x.f 4 7 0 > 15 || hd.isNone ||
      (match hd with
       | some y => decide (rows < 2 + ceilDiv (h * (y.vTotal - y.vActive)) (64 * y.vTotal))
       | none => false)))

/-- Rates of the audio domains (R31). -/
def audioRate (d r : Nat) : Bool :=
  match d with
  | 0 => r = 48000 || r = 96000 || r = 192000
  | 1 => r = 44100 || r = 88200
  | 2 => r = 8000 || r = 16000 || r = 32000
  | _ => false

/-- R319, its SOURCE_PARAM cases. -/
def audioBad (e : EvalCtx) : Bool :=
  let x := e.new
  let nin := x.f 5 31 24
  let nout := x.f 5 23 16
  let br := x.f 5 15 8
  let nbr := x.f 5 7 0
  let tdm := x.f 6 15 8
  let ntdm := x.f 6 7 0
  !audioRate x.unit (x.n 4) || x.unit > 2 || (br > 3 && br != 255) || (tdm > 7 && tdm != 255) ||
    (br = 255 && nbr != 0) || (tdm = 255 && ntdm != 0) ||
    x.f 7 31 24 + nin > 128 || x.f 7 23 16 + nout > 64 || x.f 7 15 8 + nbr > 16 || x.f 8 31 24 + ntdm > 16 ||
    (nbr != 0 && (x.f 7 7 0 = 0x20 + x.unit || x.f 7 7 0 < 0x20 || x.f 7 7 0 > 0x22)) ||
    e.other (fun y => y.kind = kAUDIO && (
      (y.unit = x.unit && y.n 4 != x.n 4) || overlap (x.f 7 31 24) nin (y.f 7 31 24) (y.f 5 31 24) ||
      overlap (x.f 7 23 16) nout (y.f 7 23 16) (y.f 5 23 16) ||
      (br != 255 && y.f 5 15 8 = br && overlap (x.f 7 15 8) nbr (y.f 7 15 8) (y.f 5 7 0)) ||
      (tdm != 255 && y.f 6 15 8 = tdm && (y.unit != x.unit || overlap (x.f 8 31 24) ntdm (y.f 8 31 24) (y.f 6 7 0)))))

/-- R238, R454. -/
def headBad (e : EvalCtx) : Bool :=
  let x := e.new
  let fmt := x.f 10 23 16
  x.unit > 15 || e.other (fun y => y.kind = kHEAD && y.unit = x.unit) ||
    (bit (x.w 10) 31 && (!([0, 1, 5, 6, 7, 8, 9, 0x10, 0x11, 0x12, 0x13].contains fmt) ||
      (match sourceOf e.known (x.f 10 9 0) with | some y => y.sub != e.win | none => true) ||
      e.known.any (fun y => y.kind = kLAYER && y.unit = x.unit && y.f 4 15 8 < 30)))

/-- R28, R40. -/
def rateBad (x : Contract) : Bool :=
  let n := x.n 4
  let d := x.n 5
  n = 0 || n > 65535 || d = 0 || d > 65535 || n < 24 * d || n > 480 * d

def eventBad (e : EvalCtx) : Bool :=
  let x := e.new
  let tgt := x.f 4 7 0
  x.unit > 1023 || srcReserved x.unit || x.f 4 31 16 = 0 || x.f 4 15 8 > 63 || e.other (fun y => y.kind = kEVENT && y.unit = x.unit) ||
    (if tgt = 255 then false
     else tgt > 63 || (match (e.known.filter (fun p => p.kind = kPROGRAM && p.unit = tgt)).getLast? with
       | some p => (match p.image with | some i => decide (i.handlers.length ≤ x.f 5 15 0) | none => true)
       | none => true))

def progDomain (d : Nat) : Bool := d = 0 || (0x10 ≤ d && d < 0x23)

def Core.paramFail (c : Core) (e : EvalCtx) : Verdict :=
  let x := e.new
  match x.kind with
  | 1 =>
    let wcet := match e.image with | some bs => leNat ((bs.drop 12).take 4) | none => 0
    firstBad [failIf (x.unit > 63 || !progDomain (x.f 6 7 0)) 0x12,
      failAt (e.other (fun y => y.kind = kPROGRAM && y.unit = x.unit) ||
        (x.op = 1 && c.adm.live.any (fun y => y.kind = kPROGRAM && y.unit = x.unit))) 0x01 x.unit wcet,
      failIf (match e.peek with
        | some p => e.other (fun y => y.kind = kPROGRAM && (match y.image with
            | some i => i.targets.any (fun u => p.2.contains u) | none => false))
        | none => false) 0x0C]
  | 2 => failIf (eventBad e) 0x12
  | 3 => failIf (c.sourceBad e) 0x12
  | 4 => failIf (c.layerBad e) 0x12
  | 5 => failIf (x.unit > 31) 0x12
  | 6 => firstBad [failIf (x.f 4 15 8 > 31 || e.other (fun y => y.kind = kDECODE && y.unit = x.unit && y.f 4 15 8 = x.f 4 15 8)) 0x18,
      failIf (decodeBad e) 0x12]
  | 7 => failIf (c.encodeBad e) 0x12
  | 8 => failIf (audioBad e) 0x12
  | 9 => failIf (headBad e) 0x12
  | 10 => failIf (rateBad x) 0x12
  | _ => vOK

/-- A contract that another live or drafted one still uses (DEPENDENT, R54, R81, R86). -/
def dependsOn (y x : Contract) : Bool :=
  match x.kind with
  | 1 => y.kind = kEVENT && y.f 4 7 0 = x.unit
  | 3 => (y.kind = kLAYER && y.f 7 15 0 = x.unit) || (y.kind = kDECODE && y.f 8 9 0 = x.unit) ||
      (y.kind = kHEAD && bit (y.w 10) 31 && y.f 10 9 0 = x.unit)
  | 8 => y.kind = kPROGRAM && y.f 6 7 0 = 0x20 + x.unit
  | 9 => (y.kind = kLAYER && y.unit = x.unit) || (y.kind = kENCODE && !(bit (y.w 7) 5) && y.f 4 7 0 = x.unit) ||
      (y.kind = kPROGRAM && y.f 6 7 0 = 0x10 + x.unit)
  | _ => false

/-! ### Steps 8 and 9: sums and shares -/

def Core.seqFail (c : Core) (items : List Item) (fM : Ratio) (n code : Nat) : Verdict :=
  let l := items.flatMap (fun i => i.1 :: i.2.toList)
  match (l.filter (fun p => p.kind = kPROGRAM && p.unit = n)).getLast? with
  | none => vOK
  | some p =>
    let dom := p.f 6 7 0
    let cap := match domRate l fM dom with | some r => seqCapacity c.floorFreq.1 r.1 dom | none => 0
    let ld := seqLoad items fM n
    failAt (decide (cap < ld)) code n (ld - cap)

def Core.leFail (c : Core) (items : List Item) (fM : Ratio) (h : Nat) : Verdict :=
  let l := items.flatMap (fun i => i.1 :: i.2.toList)
  let ld := leLoad items h
  let cap := c.leCapacity l fM h
  failAt (decide (cap < ld)) 0x02 h (ld - cap)

def Core.memFail (c : Core) (items : List Item) (fM : Ratio) (q : Nat) : Verdict :=
  let cap := memCapacity c.counts.dram fM
  let ld := memLoad items fM
  failAt (decide (cap < ld)) 0x03 q (ceilDiv (ld - cap) 64)

/-- The latency rule: bytes on ports with a target under 2 µs at most half the capacity; every target at least 500 ns. -/
def Core.latencyFail (c : Core) (items : List Item) (fM : Ratio) (q : Nat) : Verdict :=
  let l := items.flatMap (fun i => i.1 :: i.2.toList)
  let cap := memCapacity c.counts.dram fM
  let fast := ((List.range 32).map (fun p => if portTarget l p < 2000 then memPort items fM p (fun _ => true) else 0)).sum
  if portTarget l q < 500 then { code := 0x04, res := some q }
  else failAt (decide (cap < 2 * fast)) 0x04 q (ceilDiv (2 * fast - cap) 128)

def Core.decFail (c : Core) (items : List Item) (v : Nat) : Verdict :=
  let ld := decLoad items v * 9000000
  let cap := c.vidCap9M * 100000
  failAt (decide (cap < ld)) 0x05 v (ceilDiv (ld - cap) (9000000 * 100000 * 1000))

def Core.encFail (c : Core) (items : List Item) (v : Nat) : Verdict :=
  let ld := encLoad items v * 9000000
  let cap := c.vidCap9M * 1000
  failAt (decide (cap < ld)) 0x06 v (ceilDiv (ld - cap) (9000000 * 1000 * 1000))

/-- Mixer, bridge and TDM sums (R43). -/
def audioFail (items : List Item) (x : Contract) : Verdict :=
  let s (ok : Contract → Bool) (i hi lo : Nat) : Nat := sumItems items (fun y => if y.kind = kAUDIO && ok y then y.f i hi lo else 0)
  let above (top n r : Nat) : Verdict := failAt (decide (top < n)) 0x08 r (n - top)
  firstBad [above 128 (s (fun _ => true) 5 31 24) 0, above 64 (s (fun _ => true) 5 23 16) 0,
    (if x.f 5 15 8 = 255 then vOK else above 16 (s (fun y => y.f 5 15 8 = x.f 5 15 8) 5 7 0) (x.f 5 15 8)),
    (if x.f 6 15 8 = 255 then vOK else above 16 (s (fun y => y.f 6 15 8 = x.f 6 15 8) 6 7 0) (x.f 6 15 8))]

/-- mem_share of a partition on a port, ports 16 to 19 as one (R114). -/
def Core.shareOf (c : Core) (p q : Nat) : Nat :=
  let m := (kget {} c.parts p).memShare
  if q = 16 then kget 0 m 16 + kget 0 m 17 + kget 0 m 18 + kget 0 m 19 else kget 0 m q

/-- The ports of the share rule. -/
def sharePorts : List Nat := (List.range 32).filter (fun q => !(17 ≤ q && q ≤ 19))

/-- The memory shares of R114 for a partition's port, and the reserve rule for partition 0 and the secure world. -/
def Core.shareFail (c : Core) (items : List Item) (fM : Ratio) (win q : Nat) : Verdict :=
  let cap := memCapacity c.counts.dram fM
  let byPart (p r : Nat) : Nat := memPort items fM r (fun x => x.sub = p)
  let s (p r : Nat) : Nat := c.shareOf p r * cap / 10000
  if q > 31 then vOK
  else if 1 ≤ win ∧ win ≤ 63 then
    failAt (decide (s win q < byPart win q)) 0x09 q (ceilDiv (byPart win q - s win q) 64)
  else
    let own := sharePorts.map (fun r => byPart 0 r + byPart 64 r)
    let rest := (c.parts.filter (fun p => p.1 != 0 && p.1 != 64)).map (fun p =>
      (sharePorts.map (fun r => max (byPart p.1 r) (s p.1 r))).sum)
    let tot := own.sum + rest.sum
    failAt (decide (cap < tot)) 0x03 q (ceilDiv (tot - cap) 64)

/-- The sum and share rows that a head's layers meet on the layer-engine pool, of every submitter that has a layer on it (R43, R44, R114). -/
def Core.poolFail (c : Core) (items : List Item) (fM : Ratio) (h : Nat) : Verdict :=
  let subs := ((items.flatMap (fun i => i.1 :: i.2.toList)).filter (fun y => y.kind = kLAYER && y.unit = h)).map (fun y => y.sub)
  firstBad (subs.eraseDups.map (fun w => c.shareFail items fM w 16))

/-- Every resource of the device at a rate: RATE contracts and floor changes (R40, R46). -/
def Core.allFail (c : Core) (items : List Item) (fM : Ratio) : Verdict :=
  let l := items.flatMap (fun i => i.1 :: i.2.toList)
  let progs := (l.filter (fun p => p.kind = kPROGRAM)).map (fun p => p.unit)
  let hs := (l.filter (fun p => p.kind = kLAYER)).map (fun p => p.unit)
  firstBad (progs.map (fun n => c.seqFail items fM n 0x01) ++ hs.map (c.leFail items fM) ++ [c.memFail items fM 0] ++
    (List.range 32).map (c.latencyFail items fM) ++
    (List.range 8).map (c.decFail items) ++ (List.range 4).map (c.encFail items) ++
    (c.parts.filter (fun p => p.1 != 0 && p.1 != 64)).flatMap (fun p => sharePorts.map (fun q =>
      let v := c.shareFail items fM p.1 q
      if v.code = 0 then v else { v with code := 0x03 })) ++ [c.shareFail items fM 0 0])

/-- Step 8: the resources the contract touches, in the order of the rows of R43. -/
def Core.sumFail (c : Core) (e : EvalCtx) (fM : Ratio) : Verdict :=
  let x := e.new
  let it := e.items
  match x.kind with
  | 1 => c.seqFail it fM x.unit 0x01
  | 2 => if x.f 4 7 0 < 64 then c.seqFail it fM (x.f 4 7 0) 0x07 else vOK
  | 3 => firstBad [c.memFail it fM x.port, c.latencyFail it fM x.port]
  | 4 => firstBad [(if x.f 4 15 8 < 30 then c.leFail it fM x.unit else vOK), c.memFail it fM x.port, c.latencyFail it fM x.port]
  | 5 => firstBad [c.memFail it fM x.unit, c.latencyFail it fM x.unit]
  | 6 => firstBad [c.memFail it fM x.port, c.latencyFail it fM x.port, c.decFail it x.unit]
  | 7 => firstBad [c.memFail it fM x.port, c.latencyFail it fM x.port, c.encFail it x.unit]
  | 8 =>
    let progs := (e.known.filter (fun p => p.kind = kPROGRAM && p.f 6 7 0 = 0x20 + x.unit)).map (fun p => p.unit)
    firstBad (progs.map (fun n => c.seqFail it fM n 0x01) ++ [audioFail it x])
  | 9 =>
    let progs := (e.known.filter (fun p => p.kind = kPROGRAM && p.f 6 7 0 = 0x10 + x.unit)).map (fun p => p.unit)
    firstBad (progs.map (fun n => c.seqFail it fM n 0x01) ++ [c.leFail it fM x.unit, c.memFail it fM 16, c.latencyFail it fM 16])
  | 10 => firstBad ((e.known.filter (fun y => y.kind = kHEAD)).map (headLimit fM) ++ [c.allFail it fM])
  | _ => vOK

/-! ### The evaluation -/

/-- Steps 1 and 2 for every operation (R450, R451). A contract that the submitter's own draft already releases or replaces is no longer
one that it may name: NOT_OWNER (the model's choice, log entry 213). -/
def Core.headerFail (c : Core) (win : Nat) (x : Contract) : Verdict :=
  let mine := (c.known win).filter (fun y => y.sub = win)
  let tgt := mine.find? (fun y => y.id = x.target)
  let hdr := !(1 ≤ x.kind && x.kind ≤ 10) || x.f 0 23 16 != 1 || !(1 ≤ x.op && x.op ≤ 3)
  let d := c.draft win
  firstBad [failIf hdr 0x19,
    (if x.op = 2 then
      failIf (x.f 0 7 0 != 0 || x.f 2 31 16 != 0 || x.n 3 != 0) 0x19
     else failIf (!x.reservedOk || (x.op = 1 && x.target != 0)) 0x19),
    (if x.op = 1 then vOK else match tgt with
      | none => { code := 0x0F }
      | some y => failIf (y.kind != x.kind) 0x19),
    failIf d.sealed.isSome 0x13,
    failIf (decide (256 ≤ d.ops.length)) 0x0E,
    (if x.op = 1 then failIf (decide (4096 ≤ c.contractCount win)) 0x17 else vOK)]

/-- A release's own checks: dependants, and the group left behind (R54, R200). -/
def Core.releaseFail (c : Core) (win : Nat) (y : Contract) : Verdict :=
  let items := (c.itemsFor win).filter (fun i => i.1.id != y.id)
  let l := items.flatMap (fun i => i.1 :: i.2.toList)
  firstBad [failIf (l.any (fun z => dependsOn z y)) 0x15,
    (if y.kind = kLAYER then c.leFail items c.fM y.unit else vOK)]

/-- The loader's context for a submission (R79). -/
def Core.loadCtx (c : Core) (t : Owner) (seq dom : Nat) (key : List Byte) : LoadCtx :=
  { secure := t.world, hasSec := c.secure, domain := dom, svcSize := c.svcSize seq, key := key,
    mustSign := t.world || c.rdB (rg .PART_STATE t.part) 27 }

/-- The declared cost of a service whose gate entry is valid (R74, R76, R77); an entry with a double-bit error is not (R57). -/
def Core.gateCost (c : Core) (n s : Nat) : Option Nat :=
  let a := localAddr n (0x40000 - c.svcSize n + 8 * s)
  if (c.gate n s).1 && (wordsIn a 8).all (fun w => decide (kget 0 c.flips w < 2)) then some (c.load (localAddr n (0x40000 - c.svcSize n + 8 * s + 4)) 4) else none

/-- The master rates a submission of window `w` has to fit: that of the schedule as its own draft leaves it, and those that other
drafts hold (R40, R47). -/
def Core.ratesFor (c : Core) (w : Nat) : List Ratio :=
  let of_ (x : Contract) : Ratio := (x.n 4, x.n 5)
  let own := ((applyOps c.adm.live (c.draft w).ops).filter (fun x => x.kind = kRATE)).getLast?
  let others := (c.adm.drafts.filter (fun d => d.1 != w)).flatMap (fun d => d.2.ops.filterMap (fun o => match o with
    | .add x | .replace _ x => if x.kind = kRATE then some (of_ x) else none
    | .release _ => none))
  (match own with | some x => of_ x | none => c.fM) :: others

/-- Handler count and target list of an image with a readable header, before the loader's checks (R79, R451). -/
def peekImage (bs : List Byte) : Option (Nat × List Nat) :=
  let nh := leNat ((bs.drop 10).take 1)
  let nt := leNat ((bs.drop 9).take 1)
  if leNat (bs.take 4) = 0x55534631 ∧ 64 + 8 * nh + 4 * nt ≤ bs.length then
    some (nh, wordsOf ((bs.drop (64 + 8 * nh)).take (4 * nt)))
  else none

/-- The submission takes away a handler that one of the EVENT contracts on its old sequencer names: with the whole program when it moves
to another sequencer (R81). -/
def EvalCtx.losesHandler (e : EvalCtx) (old : Option Nat) (users : List Contract) : Bool :=
  if old ≠ some e.new.unit then !users.isEmpty
  else match e.peek with
    | some p => users.any (fun y => decide (p.1 ≤ y.f 5 15 0))
    | none => false

/-- An ADD or REPLACE through steps 3 to 9. The image bytes have been read; `users` are the EVENT contracts on the sequencer `old` of the
program that is replaced. -/
def Core.judgeNew (c : Core) (e : EvalCtx) (old : Option Nat) (users : List Contract) : Verdict :=
  let x := e.new
  let rates : List Ratio := if x.kind = kRATE then [(x.n 4, x.n 5)] else c.ratesFor e.win
  firstBad [failIf (c.absentUnit x) 0x0D, failIf (c.grantFail e) 0x09, firstBad (rates.map (limitFail e)), c.paramFail e,
    failIf (e.losesHandler old users) 0x15,
    (if x.kind = kPROGRAM then
      match e.parsed with
      | none => { code := 0x0B, res := some x.unit }
      | some p => match judge (c.loadCtx e.tag x.unit (x.f 6 7 0) []) (c.gateCost x.unit) p with
        | .bad => { code := 0x0B, res := some x.unit }
        | .understated n => { code := 0x0A, res := some x.unit, exc := n }
        | .ok => vOK
     else vOK),
    firstBad (rates.map (c.sumFail e)),
    (if x.kind = kRATE then vOK
     else if x.kind = kHEAD then firstBad (rates.map (fun f => c.poolFail e.items f x.unit))
     else firstBad (rates.map (fun f => c.shareFail e.items f e.win x.port)))]

/-- The serial of the next contract identifier, and the identifier (bits 31:26 partition, 25 secure, 24:0 serial). -/
def Core.newId (c : Core) (t : Owner) : W32 :=
  w32 (t.part % 64 * 67108864 + (if t.world then 33554432 else 0) + (c.adm.serial + 1) % 33554432)

/-- The resource a refusal names when the check itself names none: the unit the contract occupies (R54; log entry 11). -/
def Contract.resource (x : Contract) : Option Nat :=
  match x.kind with
  | 1 | 4 | 5 | 6 | 7 | 9 => some x.unit
  | _ => none

/-- A verdict on a contract, the contract's own unit put in where the check names no resource. -/
def Verdict.about (v : Verdict) (x : Contract) : Verdict :=
  if v.code = 0 then v else { v with res := v.res <|> x.resource }

/-- The result registers of a window (R54). A refusal in which no resource failed leaves a free resource field (log entry 11). -/
def Core.admResult (c : Core) (win : Nat) (kind : Nat) (v : Verdict) : Core :=
  let r : Nat := v.res.getD (if v.code = 0 then 0 else (Config.freeWord c.free).toNat)
  let c := if v.code ≠ 0 ∧ v.res = none then c.tick else c
  let c := c.wr (rg .ADM_PW_RESULT win)
    (w32 ((if v.code = 0 then 0 else 2147483648) + kind % 256 * 65536 + r % 256 * 256 + v.code % 256))
  c.wr (rg .ADM_PW_EXCESS win) (w32 v.exc)

/-! ### Gates of services in use (R76) -/

/-- The services that the live and drafted images of a sequencer call (R76). -/
def Core.gateUses (c : Core) (n : Nat) : List Nat :=
  let drafted := c.adm.drafts.flatMap (fun d => d.2.ops.flatMap (fun o => match o with
    | .add x | .replace _ x => [x]
    | .release _ => []))
  ((c.adm.live ++ drafted).filter (fun x => x.kind = kPROGRAM && x.unit = n)).flatMap (fun x =>
    match x.image with
    | some i => i.services
    | none => [])

/-- From `c` to `d` a called entry of the sequencer's gate becomes invalid or its cost rises (R76). -/
def Core.gateBreaks (c d : Core) (n : Nat) : Bool :=
  (c.gateUses n).any (fun s => match c.gateCost n s, d.gateCost n s with
    | some _, none => true
    | some j, some k => decide (j < k)
    | none, _ => false)

/-- A write of bytes at a local address of a sequencer would break an entry of its gate (R76). -/
def Core.gateHit (c : Core) (n a : Nat) (bs : List Byte) : Bool :=
  let base := 0x40000 - c.svcSize n
  decide (a < base + 512 ∧ base < a + bs.length) && c.gateBreaks (c.store (localAddr n a) bs) n

/-- The Admission Checker refuses a change of a gate with DEPENDENT, in the secure window's result (R54, R76; log entry 182). -/
def Core.gateRefuse (c : Core) (n : Nat) : Core := c.admResult 64 kPROGRAM { code := 0x15, res := some n }

/-- Bytes written by a unit; a change of a gate entry that a live or drafted image calls is refused (R76). -/
def Core.deviceWrite (c : Core) (u : Client) (a : Nat) (bs : List Byte) : Core × Nat :=
  match c.place a with
  | .localMem n off =>
    if (c.check u.tag u.host true a bs.length).1 == .ok && c.gateHit n off bs then (c.gateRefuse n, 1) else c.unitWrite u a bs
  | _ => c.unitWrite u a bs

/-- An operation entered into the draft. -/
def Core.enterOp (c : Core) (win : Nat) (o : DraftOp) : Core :=
  let d := c.draft win
  c.setDraft win { d with ops := d.ops ++ [o] }

/-- Code and constants into the inactive bank (R80, R81). -/
def Core.fillBank (c : Core) (n : Nat) (p : Parsed) (id : W32) : Core :=
  let q := c.seq n
  let base := bankBase (!q.bank)
  let c := c.lmFill (localAddr n base) p.body
  c.setSeq n { q with next := some { p.image with id := id } }

/-- The image-signing key of the boot manifest (R79, R411). -/
def Core.imageKey (c : Core) : List Byte := c.bootKeys

/-- A descriptor evaluated and, if it passes, entered into the submitter's draft (R47, R450, R451). -/
def Core.submitBytes (c : Core) (t : Owner) (bs : List Byte) : Core :=
    let win := winOf t
    if win < 64 ∧ 3 ≤ c.rdF (rg .PART_STATE win) 31 28 then c.admResult win 0 { code := 0x09 } else
    let id := c.newId t
    let x : Contract := { id := id, sub := win, words := (wordsOf bs).map w32 }
    let h := c.headerFail win x
    if h.code ≠ 0 then c.admResult win x.kind h
    else if x.op = 2 then
      match (c.known win).find? (fun y => y.id = x.target && y.sub = win) with
      | none => c.admResult win x.kind { code := 0x0F }
      | some y =>
        let v := (c.releaseFail win y).about y
        if v.code ≠ 0 then c.admResult win x.kind v
        else (c.enterOp win (.release x.target)).admResult win x.kind vOK
    else
      let (c, image) : Core × Option (List Byte) :=
        if x.kind = kPROGRAM then
          match c.readFor t (x.n64 4) 64 with
          | (c, none) => (c, none)
          | (c, some hd) =>
            let size := leNat ((hd.drop 0x28).take 4)
            if size ≤ 64 + 512 + 256 + 32768 + 96 then c.readFor t (x.n64 4) size else (c, some hd)
        else (c, none)
      let parsed := image.bind (parseImage (c.loadCtx t x.unit (x.f 6 7 0) c.imageKey))
      let x : Contract := { x with image := parsed.map (fun p => { p.image with id := id }) }
      let base : List Item := if x.op = 3 then (c.itemsFor win).filter (fun i => i.1.id != x.target) else c.itemsFor win
      let old := (c.known win).find? (fun y => y.id = x.target && y.sub = win)
      let users := if x.op = 3 && x.kind = kPROGRAM then
          (c.known win).filter (fun y => y.kind = kEVENT && y.f 4 7 0 = (old.map (fun o => o.unit)).getD 99) else []
      let e : EvalCtx := { tag := t, win := win, new := x, items := base ++ [(x, none)], image := image
                           parsed := parsed, peek := image.bind peekImage }
      let v := (c.judgeNew e (if users.isEmpty then some x.unit else old.map (fun o => o.unit)) users).about x
      if v.code ≠ 0 then c.admResult win x.kind v
      else
        let c := { c with adm := { c.adm with serial := (c.adm.serial + 1) % 33554432 } }
        let c := c.enterOp win (if x.op = 3 then .replace x.target x else .add x)
        let c := match x.kind == kPROGRAM, parsed with
          | true, some p => (c.fillBank x.unit p id).log jLoad 0 (originWord t 5 0) id (w32 x.unit) 0
          | _, _ => c
        (c.wr (rg .ADM_PW_ID win) id).admResult win x.kind vOK

/-- A descriptor at an address read as the submitter's device unit and evaluated (R450, R452). -/
def Core.submitAt (c : Core) (t : Owner) (addr : Nat) : Core :=
  match c.readFor t addr 64 with
  | (c, none) => c.admResult (winOf t) 0 { code := 0x19 }
  | (c, some bs) => c.submitBytes t bs

/-! ### Seals and discards (R47, R48, R52) -/

/-- The PTP time in ns of master boundary `k` (R28). -/
def Core.boundaryNs (c : Core) (k : Nat) : Nat :=
  c.tkg.origin + (k - c.tkg.idx0) * c.rdN (rg0 .TKG_MASTER_DEN) * 1000000000 / c.rdN (rg0 .TKG_MASTER_NUM)
/-- The PTP time in ns of the last master boundary's strobe. -/
def Core.strobeNs (c : Core) : Nat := kget 0 c.tkg.starts 0
/-- TKG_TICK takes another index: what waits for a boundary by its index waits as many boundaries as before. -/
def Core.reindex (c : Core) (k : Nat) : Core :=
  let old := c.tickOf 0
  let move (b : Nat) : Nat := b + k - old
  let c : Core := { c with adm := { c.adm with drafts := c.adm.drafts.map (fun d => (d.1, { d.2 with sealed := d.2.sealed.map move })) } }
  let c : Core := { c with partRuns := c.partRuns.map (fun p =>
    (p.1, { p.2 with resetAt := p.2.resetAt.map move, releaseAt := p.2.releaseAt.map move })) }
  c.wrPair (rg0 .TKG_TICK_LO) (rg0 .TKG_TICK_HI) k
/-- The boundaries at their places of R28 from PTP time 0. TKG_TICK takes the index that R28 gives the boundary last passed, counting one
up to `near` ns ahead as passed. -/
def Core.onGrid (c : Core) (near : Nat) : Core :=
  let c : Core := { c with tkg := { c.tkg with idx0 := 0, origin := 0 } }
  let k := (c.ns + near) * c.rdN (rg0 .TKG_MASTER_NUM) / max 1 (c.rdN (rg0 .TKG_MASTER_DEN) * 1000000000)
  c.reindex (if c.boundaryNs (k + 1) ≤ c.ns + near then k + 1 else k)
/-- The first master boundary at or after a PTP time in ns. -/
def Core.nextBoundaryAt (c : Core) (t : Nat) : Nat :=
  let k := c.tkg.idx0 + (t - c.tkg.origin) * c.rdN (rg0 .TKG_MASTER_NUM) / max 1 (c.rdN (rg0 .TKG_MASTER_DEN) * 1000000000)
  if t ≤ c.boundaryNs k then k else if t ≤ c.boundaryNs (k + 1) then k + 1 else k + 2
def Core.nextBoundary (c : Core) : Nat :=
  let k := c.tickOf 0 + 1
  if c.boundaryNs k < c.ns + 20000 then k + 1 else k

/-- The epoch that follows a value (R50). -/
def epochSucc (e : W32) : W32 := if e = 0xFFFFFFFF then 1 else e + 1

/-- The epoch in which a draft sealed for boundary `k` takes effect: one past the live one, and one more for each earlier
boundary at which another sealed draft goes live or a destroyed partition's contracts are released (R48, R50, R132). -/
def Core.epochAt (c : Core) (k : Nat) : W32 :=
  let gone := (c.partRuns.filter (fun p => c.adm.live.any (fun x => x.sub = p.1))).filterMap (fun p => p.2.releaseAt)
  let earlier := ((c.adm.drafts.filterMap (fun d => d.2.sealed) ++ gone).filter (fun b => decide (b < k))).eraseDups.length
  (List.range (earlier + 1)).foldl (fun e _ => epochSucc e) (c.rd (rg0 .ADM_EPOCH))

/-- The result word of a seal (R49). -/
def Core.sealDraft (c : Core) (t : Owner) : Core × W64 :=
  let win := winOf t
  let d := c.draft win
  match d.sealed with
  | some _ => (c, w64 d.epoch.toNat)
  | none =>
    if d.ops = [] then (c, w64 (c.rdN (rg0 .ADM_EPOCH)))
    else if !c.canLog t then
      let c := c.admResult win 0 { code := 0x14 }
      (c, w64 (2 ^ 63 + c.rdN (rg .ADM_PW_RESULT win)))
    else
      let k := c.nextBoundary
      let ep := c.epochAt k
      (c.setDraft win { d with sealed := some k, epoch := ep }, w64 ep.toNat)

/-- A draft discarded and its holds released; the inactive banks it filled are marked empty (R47, R81). -/
def Core.discardDraft (c : Core) (win : Nat) : Core :=
  let d := c.draft win
  let seqs := d.ops.filterMap (fun o => match o with
    | .add x | .replace _ x => if x.kind = kPROGRAM then some x.unit else none
    | .release _ => none)
  let c := seqs.foldl (fun c n => let q := c.seq n; c.setSeq n { q with next := none }) c
  c.setDraft win {}

/-- The floor in force changed if the schedule and the drafts fit at the new level; raising always succeeds (R46, R114). -/
def Core.setFloor (c : Core) (t : Owner) (floor : Nat) : Core :=
  let old := c.rdF (rg0 .ADM_PL_FLOOR) 2 0
  let c' := c.wr (rg0 .ADM_PL_FLOOR) (w32 (floor % 8))
  let items := c.itemsFor 99
  if old ≤ floor ∨ (firstBad ((c.ratesFor 99).map (c'.allFail items))).code = 0 then c'
  else c.admResult (winOf t) 0 { code := 0x16 }

/-! ### Views (R43, R54) -/

def Core.admView (c : Core) (r : Reg) : W32 :=
  let items := c.itemsFor 99
  match r.fam with
  | .ADM_STATUS => w32 c.adm.live.length
  | .ADM_LOAD_SEQ => w32 (seqLoad items c.fM r.i)
  | .ADM_LOAD_LE => w32 (leLoad items r.i)
  | .ADM_LOAD_MEM_LO => lo32 (memLoad items c.fM)
  | .ADM_LOAD_MEM_HI => hi32 (memLoad items c.fM)
  | .ADM_LOAD_DEC => w32 (decLoad items r.i / 100000000)
  | .ADM_LOAD_ENC => w32 (encLoad items r.i / 1000000)
  | .ADM_PW_DRAFT => w32 ((c.draft r.i).ops.length % 512 + (if (c.draft r.i).sealed.isSome then 65536 else 0))
  | _ => 0

end Sys2Proof.Machine
end

