-- ==== Sys2Proof/Machine/DmcCmds.lean ====
section
/-! DEFINITION. The commands of the Shared Store and the DRAM controller: requests and the order in which a channel takes them,
background work and its floor, retraining, row-hammer defence, channel power (R133 to R151). -/

namespace Sys2Proof.Machine

open Sys2Proof

/-! ### Requests (R142 to R145, R150) -/

/-- The fabric cycle of a time in ps at the level in force (R25, R399). -/
def Core.fabCycle (c : Core) (t : Nat) : Nat := t * (plFreq c.level).2.1 / 1000000

/-- A request put into its place: behind everything earlier, and behind those of the same fabric cycle on ports up to its own
(R145). -/
def Core.queueReq (c : Core) (x : DramReq) : Core :=
  let after (y : DramReq) : Bool := decide (c.fabCycle y.arrive = c.fabCycle x.arrive ∧ x.port < y.port)
  let n := (c.dmc.reqs.reverse.takeWhile after).length
  let k := c.dmc.reqs.length - n
  c.setDmc { c.dmc with reqs := c.dmc.reqs.take k ++ x :: c.dmc.reqs.drop k, nextId := c.dmc.nextId + 1 }

/-- A request enters its QoS port: the POT check, the class, the deadline; its channels wake (R117, R118, R142, R143, R150). One whose
memory has no power is answered with zero data (R398). -/
def Core.dramRequest (c : Core) (q : Nat) (t : Owner) (wr : Bool) (addr len : Nat) (data : List Byte) : Core :=
  let r := c.check t (q = 28) wr addr len
  match r.1 with
  | .ok =>
    if c.place addr ≠ .dram ∨ q > 31 then c
    else if (burstsIn addr len).any (fun b => !c.memOn b) then { c.potTouch addr len with resp := {} }
    else
      let p := winOf t
      let bytes := countBytes wr addr len
      let bursts := (burstsIn addr len).length
      let c := ((burstsIn addr len).map c.chan).foldl Core.chWake (c.potTouch addr len)
      let mk (inC wait : Bool) : DramReq :=
        { id := c.dmc.nextId, port := q, tag := t, write := wr, addr := addr, len := len, data := data.take len
          arrive := c.now, target := c.targetOf q, inContract := inC, waiting := wait, urgency := 0 }
      if pacedPort q then
        let need := bytes * c.creditUnit
        if c.liveLoadOf p q = 0 then (c.countIssue q bytes bursts false).queueReq (mk false false)
        else if need ≤ c.creditNow q p then ((c.setCredit q p (c.creditNow q p - need)).countIssue q bytes bursts true).queueReq (mk true false)
        else c.queueReq (mk true true)
      else
        let x := c.streamIssue q bytes bursts
        x.1.queueReq (mk x.2 false)
  | _ => { (c.noteCheck t (portClass q) q wr r) with resp := { status := 2 } }

def execDramRequest (q : Nat) (world : Bool) (part : Nat) (wr : Bool) (addr len : Nat) (data : List Byte) (s : State) :
    Host.Outcome State Fault Refusal :=
  run s (fun c => c.dramRequest q { granted := true, world := world && c.secure, part := part } wr addr len data)

/-- The time in ps at which a request reaches urgency `u` (R143). -/
def urgencyAt (arrive target u : Nat) : Nat :=
  arrive + target * 10 * (if u = 1 then 50 else if u = 2 then 75 else 90)

/-- URGENCY_RAISE: the next urgency of an in-contract request, at 50, 75 or 90 % of its target (R143). -/
def execUrgencyRaise (id : Nat) (s : State) : Host.Outcome State Fault Refusal :=
  run s (fun c =>
    match c.dmc.reqs.find? (fun r => r.id = id) with
    | some r =>
      if r.inContract && !r.waiting && r.urgency < 3 then
        let c := c.upTo (urgencyAt r.arrive r.target (r.urgency + 1))
        c.setDmc { c.dmc with reqs := c.dmc.reqs.map (fun x => if x.id = id then { x with urgency := x.urgency + 1 } else x) }
      else c
    | none => c)

/-- A late request counted, once a tick and port journalled (R144). -/
def Core.countLate (c : Core) (q : Nat) : Core :=
  (c.addSat (rg .DMC_PORT_LATE q) 15 0 1).faultOnce (2 ^ 80 + q) blockOrigin (w32 q) 0x310 0

def bankKey (ch bank : Nat) : Nat := ch * 16 + bank
def rowKey (ch bank row : Nat) : Nat := bankKey ch bank * 131072 + row
def actKey (ch bank q : Nat) : Nat := bankKey ch bank * 32 + q

/-- A burst lies in a row that its bank holds open (R143). -/
def Core.rowHit (c : Core) (b : Nat) : Bool :=
  let m := dramMap c.counts.dram b
  kget 0 c.dmc.openRow (bankKey m.channel m.bank) == m.row + 1

/-- The throttle that holds a port's requests to a bank (R149): DMC_RH_THRESHOLD.gap × 100 ns since its last activation. -/
def Core.throttled (c : Core) (ch bank q : Nat) : Bool :=
  kget 0 c.dmc.throttles (bankKey ch bank) == q + 1 &&
    decide (c.now < kget 0 c.dmc.lastAct (actKey ch bank q) + max 1 (c.rdF (rg0 .DMC_RH_THRESHOLD) 23 16) * 100000)

/-- A request at its channels that one of them could perform now: not held behind an earlier one to a burst of its own (R145), not to
open a row under a throttle (R149), every channel serving (R147). -/
def Core.reqReady (c : Core) (r : DramReq) : Bool :=
  let same (x : DramReq) : Bool := x.bursts.any (fun b => r.bursts.contains b)
  let before := c.dmc.reqs.takeWhile (fun x => x.id != r.id)
  !before.any (fun x => same x && (!x.waiting || (x.port == r.port && x.tag == r.tag))) &&
    r.bursts.all (fun b =>
      let m := dramMap c.counts.dram b
      c.chState m.channel != 4 && (c.rowHit b || !c.throttled m.channel m.bank r.port))

/-- The urgency of a request: raised, or due at the present (R143). -/
def Core.urgencyOf (c : Core) (r : DramReq) : Nat :=
  max r.urgency (((List.range 3).filter (fun u => decide (urgencyAt r.arrive r.target (u + 1) ≤ c.now))).length)

/-- The step of R143's order that a request stands in: 1 for U3, 3 to 5 for U2 to U0, 6 for excess. -/
def Core.reqStep (c : Core) (r : DramReq) : Nat :=
  if !r.inContract then 6 else match c.urgencyOf r with | 3 => 1 | 2 => 3 | 1 => 4 | _ => 5

def DramReq.deadline (r : DramReq) : Nat := r.arrive + r.target * 1000

/-- Request `x` goes before `r` at a channel that both want: an earlier step, or the earlier deadline in the same step, where a row hit
in U0 and U1 may go first; excess requests in arrival order (R143). `early` says that `x` arrived earlier. -/
def Core.goesFirst (c : Core) (early : Bool) (x r : DramReq) : Bool :=
  let a := c.reqStep x
  let b := c.reqStep r
  if a ≠ b then decide (a < b)
  else if a = 6 then early
  else if (a = 4 ∨ a = 5) ∧ r.bursts.all c.rowHit then false
  else decide (x.deadline < r.deadline) || (x.deadline == r.deadline && early)

/-- Every channel of a request would choose it next (R143). -/
def Core.mayServe (c : Core) (r : DramReq) : Bool :=
  let before := (c.dmc.reqs.takeWhile (fun x => x.id != r.id)).map (fun x => x.id)
  c.reqReady r && !c.dmc.reqs.any (fun x =>
    x.id != r.id && !x.waiting && (c.reqChans x).any (fun h => (c.reqChans r).contains h) && c.goesFirst (before.contains x.id) x r && c.reqReady x)

/-- DRAM_REQUEST_DONE: the request is performed when its channels choose it; one that waited for credit draws it; a late in-contract one is
counted (R142 to R145). -/
def execDramRequestDone (id : Nat) (os : List BurstOutcome) (words : List (List Byte)) (s : State) : Host.Outcome State Fault Refusal :=
  run s (fun c =>
    match c.dmc.reqs.find? (fun r => r.id = id) with
    | none => c
    | some r =>
      let p := winOf r.tag
      let bytes := countBytes r.write r.addr r.len
      let need := bytes * c.creditUnit
      if (r.waiting && decide (c.creditNow r.port p < need)) || !c.mayServe r then c
      else
        let c := if r.waiting then
            (c.setCredit r.port p (c.creditNow r.port p - need)).countIssue r.port bytes r.bursts.length true
          else c
        let c := if r.inContract && decide (r.deadline < c.now) then c.countLate r.port else c
        c.serve r (os.mapIdx (fun k o => (o, words.getD k []))))

/-! ### Background work (R134, R140, R146) -/

/-- Bursts of 3.75 ns in the 200 ns of data-bus time that a channel grants background work in each 10 µs (R43, R146; log entry 197). -/
def bgFloor : Nat := 53

/-- A channel performs a burst of background work now (R143, R146, R147): within the floor when no request at U3 waits for it, beyond the
floor when none waits at all. -/
def Core.bgMay (c : Core) (h : Nat) : Bool :=
  let w := kget (0, 0) c.dmc.bg h
  let used := if w.1 = c.now / 10000000 then w.2 else 0
  let here := c.dmc.reqs.filter (fun r => !r.waiting && (c.reqChans r).contains h)
  c.chState h != 4 && (if used < bgFloor then !here.any (fun r => c.reqStep r = 1) else here.isEmpty)

/-- A burst of background work counted in its channel's window. -/
def Core.bgCount (c : Core) (h : Nat) : Core :=
  let w := kget (0, 0) c.dmc.bg h
  let i := c.now / 10000000
  c.setDmc { c.dmc with bg := kset (0, 0) c.dmc.bg h (i, if w.1 = i then w.2 + 1 else 1) }

/-- CORRECTION_WRITEBACK: the oldest queued write-back that its channel grants is performed; a write to its burst has already dropped it
(R140, R146). -/
def execCorrectionWriteback (s : State) : Host.Outcome State Fault Refusal :=
  run s (fun c =>
    match c.dmc.corrQ.find? (fun a => c.bgMay (c.chan a)) with
    | some a => (c.bgCount (c.chan a)).setDmc { (c.bgCount (c.chan a)).dmc with corrQ := c.dmc.corrQ.filter (fun x => x != a) }
    | none => c)

/-- Bursts of one channel. -/
def chanBursts : Nat := 58720256

/-- SCRUB_READ: the next burst of the pass is read, channel after channel; a full pass raises 786 and starts again; period 0 stops
the pass (R140, R146). -/
def execScrubRead (o : BurstOutcome) (word : List Byte) (s : State) : Host.Outcome State Fault Refusal :=
  run s (fun c =>
    let h := c.dmc.scrubPos / chanBursts
    if c.rdF (rg0 .DMC_SCRUB_CFG) 7 0 = 0 || !c.bgMay h then c else
    let n := c.counts.dram * chanBursts
    let a := dramAt c.counts.dram h (c.dmc.scrubPos % chanBursts)
    let c := ((c.bgCount h).burstRead 29 a false true (o, word)).1
    let pos := c.dmc.scrubPos + 1
    let wrap := decide (n ≤ pos)
    let c := c.setDmc { c.dmc with scrubPos := if wrap then 0 else pos }
    let c := c.setF (rg0 .DMC_BG_STAT) 7 0 (if wrap then 0 else pos * 256 / n)
    if wrap then c.raise 786 else c)

/-- SS_ACCESS: one access of a bank, within one aligned 128-byte block, by the bank's owner (R109, R121, R133, R134). -/
def execSsAccess (port : Nat) (world : Bool) (part : Nat) (wr : Bool) (addr len : Nat) (data : List Byte) (s : State) :
    Host.Outcome State Fault Refusal :=
  run s (fun c =>
    if addr ≥ 0x2000000 ∨ len = 0 ∨ addr / 128 ≠ (addr + len - 1) / 128 then c else
    let u : Client := { tag := { granted := true, world := world && c.secure, part := part }, cls := 5, no := port, port := 29, ss := port, host := port = 5 }
    let status (e : Nat) : Nat := if e = 3 then 3 else if e = 0 then 0 else 2
    if wr then
      let x := c.unitWrite u addr (data.take len)
      { x.1 with resp := { status := status x.2 } }
    else
      let x := c.unitRead u addr len
      { x.1 with resp := if x.2.2 = 0 then { data := w64 (leNat (x.2.1.take 8)), rest := x.2.1.drop 8 } else { status := status x.2.2 } })

/-- SS_SCRUB: the background pass reads the next word under its code (R134); the port that a record of it names is open (log entry
199). -/
def execSsScrub (s : State) : Host.Outcome State Fault Refusal :=
  run s (fun c =>
    let a := c.dmc.ssPos * 8
    let c := if !c.memOn a then c
      else if kget 0 c.flips a = 0 then c else c.tick.ssWord ((Config.freeWord c.free).toNat % 16) a
    c.setDmc { c.dmc with ssPos := (c.dmc.ssPos + 1) % 4194304 })

/-! ### Retraining (R147) -/

/-- The next channel after `k` in rotation that has not FAILED, among `n`. -/
def Core.nextTrain (c : Core) (n : Nat) : Nat → Nat → Option Nat
  | _, 0 => none
  | k, fuel + 1 => let h := (k + 1) % n; if c.chState h = 5 then c.nextTrain n h fuel else some h

/-- RETRAIN_START: on the next channel in rotation once the interval has passed while enabled, or on the channel whose temperature
changed, which goes first; its first window opens (R147). -/
def execRetrainStart (ch : Nat) (byTemp : Bool) (s : State) : Host.Outcome State Fault Refusal :=
  run s (fun c =>
    let n := c.counts.dram
    let pick := if byTemp then (if ch < n ∧ c.chState ch ≠ 5 then some ch else none)
      else if c.rdB (rg0 .DMC_TRAIN_CFG) 16 then c.nextTrain n c.dmc.lastTrain n else none
    match pick with
    | some h =>
      if c.dmc.training.isSome || !(c.chState h = 1 ∨ c.chState h = 2 ∨ c.chState h = 3) then c
      else
        let c := if byTemp then c else c.upTo (c.dmc.trainAt + max 1 (c.rdF (rg0 .DMC_TRAIN_CFG) 7 0) * 1000000000000)
        let d := c.dmc
        let c := c.setDmc { d with training := some h, steps := 0, stepAt := c.now, lastTrain := if byTemp then d.lastTrain else h
                                   trainAt := if byTemp then d.trainAt else c.now }
        (c.setChState h 4).wr (rg0 .DMC_BG_STAT) (setFld (setBit (c.rd (rg0 .DMC_BG_STAT)) 9 true) 15 12 h)
    | none => c)

/-- RETRAIN_STEP: one window, 64 µs after the last one. A low margin raises 787; no working setting marks the channel FAILED; on-die
corrections are added; the last step, or the 512th, ends the retraining (R138, R147). -/
def execRetrainStep (lowMargin noSetting last : Bool) (odecc : Nat) (s : State) : Host.Outcome State Fault Refusal :=
  run s (fun c =>
    match c.dmc.training with
    | none => c
    | some h =>
      let c := if c.dmc.steps = 0 then c else c.upTo (c.dmc.stepAt + 64000000)
      let c := c.addSat (rg .DMC_CH_ODECC h) 15 0 odecc
      let c := if lowMargin then c.raise 787 else c
      let c := if noSetting then (c.setChState h 5).dramError h 0 4 0 false false else c.setChState h 1
      let steps := c.dmc.steps + 1
      if last || noSetting || decide (512 ≤ steps) then
        (c.setDmc { c.dmc with training := none, steps := 0 }).wr (rg0 .DMC_BG_STAT)
          (setFld (setBit (c.rd (rg0 .DMC_BG_STAT)) 9 false) 15 12 0)
      else c.setDmc { c.dmc with steps := steps, stepAt := c.now })

/-! ### Row-hammer defence (R148, R149) -/

/-- DMC_RH_THRESHOLD.threshold as it acts. -/
def Core.rhThreshold (c : Core) : Nat := max 256 (c.rdF (rg0 .DMC_RH_THRESHOLD) 15 0)

/-- The port with the most activations of a bank in the window, the lowest on a tie (R149). -/
def Core.busiest (c : Core) (ch bank : Nat) : Nat :=
  (List.range 32).foldl (fun b q =>
    if kget 0 c.dmc.acts (actKey ch bank b) < kget 0 c.dmc.acts (actKey ch bank q) then q else b) 0

/-- The metadata a row's cells hold: what the DMC last wrote, and before that what the cells came up with, which the spec leaves open
(R148, R150). -/
def Core.rowHeld (c : Core) (k : Nat) : Core × RowMeta :=
  match kget none c.dmc.rows k with
  | some m => (c, m)
  | none =>
    let v := (Config.freeWord c.free).toNat
    let w := (Config.freeWord (c.free + 1)).toNat
    (c.tick.tick, { count := v % 65536, window := v / 65536 % 256, reserved := v / 16777216, crc := w32 w })

/-- A row's count reaches the threshold (R149): refresh management, the busiest port of the bank throttled for the rest of the window, 784, the
record and the journal entry. -/
def Core.hammer (c : Core) (ch bank row : Nat) : Core :=
  let b := c.busiest ch bank
  let d := c.dmc
  let k := bankKey ch bank
  let c := c.setDmc { d with throttles := kset 0 d.throttles k (b + 1), rfm := kset 0 d.rfm k (kget 0 d.rfm k + 1) }
  let v := c.rd (rg .DMC_CH_STATUS ch)
  let c := c.set (rg .DMC_CH_STATUS ch) (setBit (setFld (setFld v 25 21 b) 20 17 bank) 16 true)
  c.fault (784 + ch * 65536) (bank * 32 + b) row

/-- ROW_ACTIVATION: the row's count restarts in a new window or counts up, a block whose CRC fails counting as at the threshold; when the
count reaches the threshold, the defence of R149. A throttled activation, and one in a channel that serves nothing, does not happen
(R147 to R149). -/
def execRowActivation (ch bank row q : Nat) (s : State) : Host.Outcome State Fault Refusal :=
  run s (fun c =>
    if ch ≥ c.counts.dram ∨ c.throttled ch bank q ∨ c.chState ch = 4 then c else
    let k := rowKey ch bank row
    let x := c.rowHeld k
    let c := x.1
    let m := x.2
    let w := kget 0 c.dmc.window ch
    let th := c.rhThreshold
    let n := if !m.sound then th else if m.window = w then sat 65535 (m.count + 1) else 1
    let d := c.dmc
    let ak := actKey ch bank q
    let c := c.setDmc { d with rows := kset none d.rows k (some (rowMeta n w)), openRow := kset 0 d.openRow (bankKey ch bank) (row + 1)
                               acts := kset 0 d.acts ak (kget 0 d.acts ak + 1), lastAct := kset 0 d.lastAct ak c.now }
    let c := if m.sound then c else c.dramError ch 0 3 q false false
    if !m.sound || (decide (n = th) && !(m.window = w && m.count = n)) then c.hammer ch bank row else c)

/-- The refresh multiplier m of a channel (R148). -/
def Core.refm (c : Core) (ch : Nat) : Nat := match c.rdF (rg .DMC_CH_STATUS ch) 27 26 with | 1 => 2 | 2 => 4 | _ => 1

/-- REFRESH_RATE_CHANGE: the multiplier m of a channel, which sets its window to 32 ms ÷ m, and source 788 (R148). -/
def execRefreshRateChange (ch m : Nat) (s : State) : Host.Outcome State Fault Refusal :=
  run s (fun c =>
    let code := if m = 4 then 2 else if m = 2 then 1 else 0
    if ch ≥ c.counts.dram ∨ c.rdF (rg .DMC_CH_STATUS ch) 27 26 = code then c
    else (c.setF (rg .DMC_CH_STATUS ch) 27 26 code).raise 788)

/-- REFRESH_WINDOW_END: 32 ms ÷ m after the last one a new window number begins; the throttles of the old window end (R148, R149). -/
def execRefreshWindowEnd (ch : Nat) (s : State) : Host.Outcome State Fault Refusal :=
  run s (fun c =>
    if ch ≥ c.counts.dram then c else
    let c := c.upTo (kget 0 c.dmc.winAt ch + 32000000000 / c.refm ch)
    let d := c.dmc
    let c := c.setDmc { d with window := kset 0 d.window ch ((kget 0 d.window ch + 1) % 256), winAt := kset 0 d.winAt ch c.now
                               acts := d.acts.filter (fun x => x.1 / 512 != ch)
                               throttles := d.throttles.filter (fun x => x.1 / 16 != ch) }
    let v := c.rd (rg .DMC_CH_STATUS ch)
    c.set (rg .DMC_CH_STATUS ch) (setBit (setFld (setFld v 25 21 0) 20 17 0) 16 false))

/-! ### Channel power (R150) -/

/-- The idle time in ps before a state: DMC_PD_CFG.pd_idle × 16 fabric cycles, or sr_idle µs. -/
def Core.idleFor (c : Core) (selfRefresh : Bool) : Nat :=
  if selfRefresh then c.rdF (rg0 .DMC_PD_CFG) 15 8 * 1000000
  else c.rdF (rg0 .DMC_PD_CFG) 7 0 * 16 * 1000000 / (plFreq c.level).2.1

end Sys2Proof.Machine
end

