-- ==== Sys2Proof/Machine/Dma.lean ====
section
/-! DEFINITION. DMA channels: descriptors, start and stop (R154 to R159). The movement of data stands in DmaMove.lean, since
it writes control space. -/

namespace Sys2Proof.Machine

open Sys2Proof

def Core.dma (c : Core) (ch : Nat) : Dma := kget {} c.dmas ch
def Core.setDma (c : Core) (ch : Nat) (d : Dma) : Core := { c with dmas := kset {} c.dmas ch d }
/-- DMA_CH_STATUS.state: 0 IDLE, 1 RUNNING, 2 STOPPING, 3 ERROR (R163). -/
def Core.dmaState (c : Core) (ch : Nat) : Nat := c.rdF (rg .DMA_CH_STATUS ch) 1 0
def Core.setDmaState (c : Core) (ch n : Nat) : Core := c.setF (rg .DMA_CH_STATUS ch) 1 0 n

/-- T, the bytes a descriptor moves (R154). -/
def DmaDesc.total (d : DmaDesc) : Nat := d.lineLen * d.lines

/-- A descriptor from its 64 bytes; none for what R163 calls a DESCRIPTOR error. -/
def parseDma (bs : List Byte) : Option DmaDesc :=
  let at_ (o n : Nat) : Nat := leNat ((bs.drop o).take n)
  let fl := at_ 0x16 2
  let d : DmaDesc := { src := at_ 0 8, dst := at_ 8 8, lineLen := at_ 0x10 3, lines := at_ 0x14 2, halfEv := fl % 2 = 1
                       fullEv := fl / 2 % 2 = 1, chain := fl / 4 % 2 = 1, srcStride := at_ 0x18 4, dstStride := at_ 0x1C 4
                       next := at_ 0x20 8 }
  if d.lineLen = 0 ∨ d.lines = 0 ∨ at_ 0x13 1 ≠ 0 ∨ fl ≥ 8 ∨ at_ 0x28 24 ≠ 0 then none else some d

/-- The QoS port and the Shared Store port of a channel's engine (R133, R141), and the channel as a client of memory (R157). -/
def dmaQos (ch : Nat) : Nat := 26 + ch / 64
def dmaPort (ch : Nat) : Nat := 3 + ch / 64
def Core.dmaClient (c : Core) (ch : Nat) : Client := { tag := c.tag (.dma ch), cls := 1, no := ch, port := dmaQos ch, ss := dmaPort ch }

/-- HOST_FN.dstate: 0 D0, 3 D3hot, 2 D3cold. -/
def Core.fnState (c : Core) (f : Nat) : Nat := c.rdF (rg .HOST_FN f) 30 29
/-- The function may issue host requests: Bus Master Enable and D0 (R367). -/
def Core.fnMaster (c : Core) (f : Nat) : Bool := c.fnState f = 0 && c.rdB (rg .HOST_FN f) 28
/-- The host link takes a channel's requests for its owner's function (R367). -/
def Core.dmaHost (c : Core) (ch : Nat) : Bool :=
  let t := c.tag (.dma ch)
  c.rdB (rg0 .HOST_LINK) 31 && c.fnMaster (if t.world then 0 else t.part)

/-- An error met by a channel: it waits for DMA_ERROR, which records it (R163). -/
def Core.dmaFail (c : Core) (ch code : Nat) : Core :=
  let d := c.dma ch
  c.setDma ch { d with err := if d.err = 0 then code else d.err }

/-- The 64 bytes of a descriptor: a request for control space is mis-sized (R24), one for host memory goes by the link (R367), every
other is an access under the channel's tag (R157); the bytes and an error code of R163. -/
def Core.dmaFetchRead (c : Core) (ch a : Nat) : Core × List Byte × Nat :=
  match c.place a with
  | .control => (c, [], 1)
  | .host => if c.dmaHost ch then (c, c.bytes a 64, 0) else (c, [], 5)
  | _ => c.unitRead (c.dmaClient ch) a 64

/-- The descriptor at an address fetched (R154, R157). -/
def Core.dmaFetch (c : Core) (ch a : Nat) : Core :=
  let c := c.wrPair (rg .DMA_CH_CUR_LO ch) (rg .DMA_CH_CUR_HI ch) a
  let c := c.setDma ch {}
  if a % 64 ≠ 0 then c.dmaFail ch 4
  else
    match c.dmaFetchRead ch a with
    | (c, bs, 0) =>
      match parseDma bs with
      | none => c.dmaFail ch 4
      | some d => (c.setDma ch { desc := d }).wr (rg .DMA_CH_REMAIN ch) (w32 (sat 0xFFFFFFFF d.total))
    | (c, _, e) => c.dmaFail ch e

/-- DMA_CH_CTRL.start: accepted in IDLE or ERROR, else refused (R156). -/
def Core.dmaStart (c : Core) (ch : Nat) : Core :=
  let st := c.dmaState ch
  if st = 0 ∨ st = 3 then
    let others := (List.range 64).any (fun k => let x := ch / 64 * 64 + k; x != ch && c.dmaState x = 1 && sameOwner (c.tag (.dma x)) (c.tag (.dma ch)))
    let c := if others then c else c.creditStart (c.tag (.dma ch)) (dmaQos ch)
    let c := (c.setF (rg .DMA_CH_STATUS ch) 19 16 0).setDmaState ch 1
    c.dmaFetch ch (c.rdPair (rg .DMA_CH_DESC_LO ch) (rg .DMA_CH_DESC_HI ch))
  else c.setB (rg .DMA_CH_STATUS ch) 7 true

/-- DMA_CH_CTRL.stop: RUNNING enters STOPPING; no effect in IDLE or ERROR (R159). -/
def Core.dmaStop (c : Core) (ch : Nat) : Core := if c.dmaState ch = 1 then c.setDmaState ch 2 else c

/-- A write of DMA_CH_CTRL (R156, R159). No descriptor starts another channel: a start bit that a channel writes does nothing (R156). -/
def Core.dmaCtrl (c : Core) (ag : Agent) (ch : Nat) (v : W32) : Core :=
  let c := if bit v 1 then c.dmaStop ch else c
  if bit v 0 && !(match ag with | .dma _ => true | _ => false) then c.dmaStart ch else c

/-- DMA_ENG_RUN of an engine as it reads (R163). -/
def Core.dmaEngRun (c : Core) (e : Nat) : W32 :=
  (List.range 32).foldl (fun (w : W32) k => let s := c.dmaState (32 * e + k); setBit w k (s = 1 || s = 2)) 0

end Sys2Proof.Machine
end

