-- ==== Sys2Proof/Machine/Crc.lean ====
section
/-! DEFINITION. Check-value units (R164 to R172): the calculation, feeds, checks, alive counters. Region signatures are fed by
the heads (Heads.lean). -/

namespace Sys2Proof.Machine

open Sys2Proof

def Core.crc (c : Core) (n : Nat) : Crc := kget {} c.crcs n
def Core.setCrc (c : Core) (n : Nat) (x : Crc) : Core := { c with crcs := kset {} c.crcs n x }

/-- W (R164). -/
def Core.crcW (c : Core) (n : Nat) : Nat := c.rdF (rg .CRC_CFG n) 6 0
/-- Region mode (CRC_CFG.mode). -/
def Core.crcRegion (c : Core) (n : Nat) : Bool := c.rdF (rg .CRC_CFG n) 31 30 = 1

/-- The number of `w` bits that reads an `w`-bit number backwards. -/
def revBits : Nat → Nat → Nat
  | 0, _ => 0
  | w + 1, v => v % 2 * 2 ^ w + revBits w (v / 2)

/-- One input bit (R164). -/
def crcBit (w poly reg : Nat) (b : Bool) : Nat :=
  let top := (reg.testBit (w - 1)) != b
  let r := reg * 2 % 2 ^ w
  if top then r ^^^ poly else r

/-- One byte: bit 7 first, or bit 0 first with refin (R166). -/
def crcByte (w poly : Nat) (refin : Bool) (reg : Nat) (b : Nat) : Nat :=
  (List.range 8).foldl (fun r i => crcBit w poly r (b.testBit (if refin then i else 7 - i))) reg

/-- Parameters of a unit, the bits above W ignored (R164). -/
def Core.crcPar (c : Core) (n : Nat) (l h : Fam) : Nat := c.rdPair (rg l n) (rg h n) % 2 ^ c.crcW n

/-- A byte absorbed. -/
def Core.crcAbsorb (c : Core) (n : Nat) (reg : Nat) (b : Nat) : Nat :=
  crcByte (c.crcW n) (c.crcPar n .CRC_POLY_LO .CRC_POLY_HI) (c.rdB (rg .CRC_CFG n) 8) reg b

/-- The result of a register value (R164). -/
def Core.crcOut (c : Core) (n : Nat) (reg : Nat) : Nat :=
  (if c.rdB (rg .CRC_CFG n) 9 then revBits (c.crcW n) reg else reg) ^^^ c.crcPar n .CRC_XOROUT_LO .CRC_XOROUT_HI

/-- The input queue absorbed, its words as bytes in ascending order (R166). -/
def Core.crcDrain (c : Core) (n : Nat) : Core :=
  let x := c.crc n
  if x.queue = [] then c else
  let reg := x.queue.foldl (fun r e => ((leBytes e.1 e.2.toNat).map (fun b => b.toNat)).foldl (c.crcAbsorb n) r) x.reg
  (c.setCrc n { x with reg := reg, queue := [] }).setB (rg .CRC_STATUS n) 8 false

/-- CRC_RESULT as it reads: all data fed so far (R164, R25). -/
def Core.crcResult (c : Core) (n : Nat) : Nat := let d := c.crcDrain n; d.crcOut n (d.crc n).reg

/-- An error bit of CRC_STATUS set: counted, journalled once per unit and master tick (R171). -/
def Core.crcErr (c : Core) (n b : Nat) : Core :=
  let c := (c.setB (rg .CRC_STATUS n) b true).addSat (rg .CRC_ERR_CNT n) 15 0 1
  c.faultOnce (2 ^ 82 + n) blockOrigin (w32 (640 + n)) (w32 (0x400 + b)) 0

/-- reg set to INIT. -/
def Core.crcInit (c : Core) (n : Nat) : Core :=
  let x := c.crc n
  c.setCrc n { x with reg := c.crcPar n .CRC_INIT_LO .CRC_INIT_HI, queue := [] }

/-- CRC_CTRL.restart (R165, R167): reg = INIT, and the next check accepts any alive value; CRC_ALIVE stands (log entry 30). -/
def Core.crcRestart (c : Core) (n : Nat) : Core :=
  let c := (c.crcDrain n).crcInit n
  c.setCrc n { c.crc n with aliveSeen := false }

/-- CRC_CTRL.alive_reset (R167). -/
def Core.crcAliveReset (c : Core) (n : Nat) : Core :=
  let x := c.crc n
  (c.setCrc n { x with aliveSeen := false }).wr (rg .CRC_ALIVE n) 0

/-- A configuration write restarts the unit and clears the alive history (R165). -/
def Core.crcReconfig (c : Core) (n : Nat) : Core := (c.crcInit n).crcAliveReset n

/-- A write of CRC_CFG: ignored whole, with cfg_err, for a width outside 3 to 64 or a reserved mode; a change to region mode
waits for the head's vertical-blanking start (R165, R169). -/
def Core.crcCfg (c : Core) (n : Nat) (v : W32) : Core :=
  let w := fld v 6 0
  if w < 3 ∨ 64 < w ∨ fld v 31 30 > 1 then c.crcErr n 4
  else
    let c := (c.crcDrain n).wr (rg .CRC_CFG n) (v &&& 0xC0FF037F)
    let x := c.crc n
    let on := fld v 31 30 = 1
    (c.setCrc n { x with rNew := on, rOn := on && x.rOn }).crcReconfig n

/-- A write of POLY, INIT or XOROUT (R165). -/
def Core.crcParam (c : Core) (n : Nat) (r : Reg) (v : W32) : Core := ((c.crcDrain n).wr r v).crcReconfig n

/-- CRC_CTRL (R165, R167). -/
def Core.crcCtrl (c : Core) (n : Nat) (v : W32) : Core :=
  let c := if bit v 0 then c.crcRestart n else c
  if bit v 1 then (c.crcDrain n).crcAliveReset n else c

/-- A feed of `w` bytes: queued; a full queue is absorbed first; ignored with cfg_err in region mode (R166). -/
def Core.crcFeed (c : Core) (n w : Nat) (v : W32) : Core :=
  if c.crcRegion n then c.crcErr n 4
  else
    let c := if (c.crc n).queue.length < 16 then c else c.crcDrain n
    let x := c.crc n
    (c.setCrc n { x with queue := x.queue ++ [(w, v)] }).setB (rg .CRC_STATUS n) 8 true

/-- The alive counter's step (R167): the bits it sets, and whether the new value is kept. -/
def aliveStep (first : Bool) (a step rx old : Nat) : Nat :=
  let d := (rx % 2 ^ a + 2 ^ a - old % 2 ^ a) % 2 ^ a
  if first then 0 else if d = 0 then 3 else if max 1 step < d then 2 else 0

/-- CRC_RX_LO written: the check of R167; in region mode ignored with cfg_err. -/
def Core.crcCheck (c : Core) (n : Nat) (v : W32) : Core :=
  if c.crcRegion n then c.crcErr n 4 else
  let c := c.crcDrain n
  let w := c.crcW n
  let x := c.crc n
  let rx := (v.toNat + c.rdN (rg .CRC_RX_HI n) * 4294967296) % 2 ^ w
  let aw := c.rdF (rg .CRC_CFG n) 23 22
  let (c, good) : Core × Bool :=
    if c.crcOut n x.reg ≠ rx then (c.crcErr n 1, false)
    else if aw = 0 then (c, true)
    else
      let a := 2 * 2 ^ aw
      let al := c.rdF (rg .CRC_ALIVE_RX n) 15 0 % 2 ^ a
      let b := aliveStep (!x.aliveSeen) a (c.rdF (rg .CRC_CFG n) 21 16) al (c.rdN (rg .CRC_ALIVE n))
      let c := if b = 0 then c else c.crcErr n b
      let c := if b = 3 then c else c.wr (rg .CRC_ALIVE n) (w32 al)
      (c.setCrc n { x with aliveSeen := true }, b = 0)
  (c.setB (rg .CRC_STATUS n) 0 good).crcInit n

/-- A write of a region register: it waits for the head's next vertical-blanking start, the frame in progress neither signed nor
compared (R169). -/
def Core.crcRegionWrite (c : Core) (n : Nat) (r : Reg) (v : W32) : Core :=
  let x := c.crc n
  (c.wr r v).setCrc n { x with rNew := true, rLines := 0 }

end Sys2Proof.Machine
end

