-- ==== Sys2Proof/Machine/Intake.lean ====
section
/-! DEFINITION. The source table: stamps, slots, publishes, loss, and camera intake (R175 to R183, R186, R188). -/

namespace Sys2Proof.Machine

open Sys2Proof

/-! ### Stamps (R175) -/

def wordBytes (ws : List W32) : List Byte := ws.flatMap (fun w => leBytes 4 w.toNat)

/-- Fields of a stamp. -/
def stampW (st : List W32) (i : Nat) : W32 := st.getD i 0
def stampSeq (st : List W32) : W32 := stampW st 1
def stampCapture (st : List W32) : Nat := (stampW st 2).toNat + (stampW st 3).toNat * 4294967296
def stampPeriod (st : List W32) : Nat := (stampW st 4).toNat
def stampClass (st : List W32) : Nat := fld (stampW st 5) 3 0
/-- Flags: bit 0 concealed, 1 synthetic, 2 replayed, 3 degraded. -/
def stampFlags (st : List W32) : Nat := fld (stampW st 5) 7 4
def stampFreeze (st : List W32) : Nat := fld (stampW st 5) 15 8
def stampAge (st : List W32) : Nat := (stampW st 6).toNat

/-- The crc of a stamp holds: CRC-32/ISO-HDLC over its first 28 bytes. -/
def stampOk (st : List W32) : Bool := st.length = 8 && crc32 (wordBytes (st.take 7)) == stampW st 7

/-- Seven words closed with their crc. -/
def stampOf (ws : List W32) : List W32 := ws ++ [crc32 (wordBytes ws)]

/-- A stamp with further flags. -/
def stampMark (st : List W32) (flags : Nat) : List W32 :=
  if st.length ≠ 8 then st
  else stampOf ((st.take 5) ++ [setFld (stampW st 5) 7 4 (stampFlags st ||| flags), stampW st 6])

/-! ### Slots -/

def Core.slot (c : Core) (n : Nat) : Slot := kget {} c.slots n
def Core.setSlot (c : Core) (n : Nat) (x : Slot) : Core := { c with slots := kset {} c.slots n x }
/-- SYS_SRC_STATE.state: 0 FREE, 1 NEVER, 2 LIVE, 3 LOST (R180). -/
def Core.slotState (c : Core) (n : Nat) : Nat := c.rdF (rg .SYS_SRC_STATE n) 31 30
/-- The live SOURCE contract of a slot. -/
def Core.slotSrc (c : Core) (n : Nat) : Option Contract := sourceOf c.adm.live n
/-- The owner a submitter's window stands for. -/
def ownerOf (win : Nat) : Owner := if win = 64 then { granted := true, world := true } else { granted := true, part := win }

/-- Bit `n` of an array of 32-bit words of registers. -/
def Core.setArr (c : Core) (f : Fam) (n : Nat) (b : Bool) : Core := c.setB (rg f (n / 32)) (n % 32) b

/-- Entry to LOST (R180): the slot's bit in SYS_SRC_LOST, journalled. -/
def Core.srcLose (c : Core) (n cause : Nat) : Core :=
  if c.slotState n = 3 ∨ c.slotState n = 0 then c
  else ((c.setF (rg .SYS_SRC_STATE n) 31 30 3).setArr .SYS_SRC_LOST n true).fault 928 n cause

/-- A record as read: its stamp's crc checked; a failure loses the slot and raises 930 (R178). -/
def Core.recRead (c : Core) (n : Nat) (r : SrcRec) : Core × Bool :=
  if stampOk r.stamp then (c, true)
  else (((c.srcLose n 2).setB (rg0 .SYS_SRC_EVT) 0 true).fault 930 n 0, false)

/-- Both records of a slot read, where it has any (R178). -/
def Core.recsRead (c : Core) (n : Nat) : Core :=
  let s := c.slot n
  let c := if s.cur.stamp = [] then c else (c.recRead n s.cur).1
  if s.held.stamp = [] ∨ s.held = s.cur then c else (c.recRead n s.held).1

/-- A refused publish: counted, 931 (R188). -/
def Core.pubRefuse (c : Core) (n code : Nat) : Core × Nat :=
  ((c.addSat (rg .SYS_SRC_STATE n) 15 0 1).setB (rg0 .SYS_SRC_EVT) 1 true, code)

/-- SYS_SRC_STATE's record fields follow the records. -/
def Core.slotShow (c : Core) (n : Nat) : Core :=
  let s := c.slot n
  let v := setFld (c.rd (rg .SYS_SRC_STATE n)) 28 26 s.cur.buf
  c.wr (rg .SYS_SRC_STATE n) (setBit v 29 (s.held != s.cur))

/-- A publish into a slot (R176 to R178, R180, R186), which triggers the heads that wait for it (R234): 0 OK, 2 STATE, 6 RATE. `seq` is none but for a derived copy. -/
def Core.publish (c : Core) (n addr buf capture flags : Nat) (seq : Option W32) : Core × Nat :=
  match c.slotSrc n with
  | none => c.pubRefuse n 2
  | some x =>
    let s := c.slot n
    let recent := s.pubs.filter (fun t => decide (c.mono < t + x.n 4 * 1000))
    if c.slotState n = 0 || !c.partActive x.sub then c.pubRefuse n 2
    else if 2 ≤ recent.length then c.pubRefuse n 6
    else
      let count := if seq = none then epochSucc s.seq else s.seq
      let q := seq.getD count
      let fl := if c.secure then flags else flags - flags / 2 % 2 * 2
      let st := stampOf [w32 (c.devAddr * 65536 + n), q, lo32 capture, hi32 capture, x.w 4,
        w32 (x.f 7 7 4 + fl % 16 * 16 + x.f 7 15 8 * 256 + x.f 7 3 0 % 4 * 65536), x.w 6]
      let r : SrcRec := { addr := addr, buf := buf, stamp := st }
      let s := { s with cur := r, held := if fl % 2 = 1 then s.held else r, seq := count, lastPub := c.mono, pubs := recent ++ [c.mono] }
      let was := c.slotState n
      let c : Core := { c with heads := c.heads.map (fun y =>
        let v := c.rd (rg .HD_ADAPT y.1)
        if fld v 31 30 = 1 ∧ fld v 9 0 = n then (y.1, { y.2 with trig := true }) else y) }
      let c := ((c.setSlot n s).slotShow n).setF (rg .SYS_SRC_STATE n) 31 30 2
      (if was = 3 then (c.setArr .SYS_SRC_BACK n true).fault 929 n 0 else c, 0)

/-- The current record of the frame in receipt marked degraded, and the held record where it is the same surface: nothing when the frame
was not published, or the record's crc does not hold (R178, R182). -/
def Core.slotDegrade (c : Core) (n : Nat) : Core :=
  let s := c.slot n
  if !s.shown then c
  else match c.recRead n s.cur with
    | (c, false) => c
    | (c, true) =>
      let r := { s.cur with stamp := stampMark s.cur.stamp 8 }
      c.setSlot n { s with cur := r, held := if s.held = s.cur then r else s.held }

/-- A surface that intake and decoders do not write: the current or held record of its slot, or one that a head has latched
and still composes from (R179, R205). -/
def Core.surfBusy (c : Core) (n a : Nat) : Bool :=
  let s := c.slot n
  (s.cur.stamp != [] && s.cur.addr = a) || (s.held.stamp != [] && s.held.addr = a) ||
    c.heads.any (fun h => h.2.inUse && h.2.latched.any (fun l => l.2.ok && l.2.addr = a))

/-- The next buffer in turn that may be written, from buffer 0 on (R179). -/
def Core.nextBuf (c : Core) (n : Nat) (x : Contract) : Option Nat :=
  let bufs := x.f 15 7 0
  if bufs ≤ 1 then some 0 else
  let first := if (c.slot n).cur.stamp = [] then 0 else (c.slot n).buf + 1
  ((List.range bufs).map (fun i => (first + i) % bufs)).find? (fun i => !c.surfBusy n (x.n64 12 + i * x.n 14))

/-! ### Publish windows (R186) -/

/-- The origin record of a derived publish: current or held, its sequence the one asked for, its crc good. -/
def Core.originRec (c : Core) (origin : Nat) (q : W32) : Option SrcRec :=
  let s := c.slot origin
  if stampOk s.cur.stamp && stampSeq s.cur.stamp == q then some s.cur
  else if stampOk s.held.stamp && stampSeq s.held.stamp == q then some s.held else none

/-- A publish's surface must be readable by the owner (R188): the bytes of a period from its address (log entry 33). A refused page is an
ownership refusal of the requester, class 5 (R109, R117). -/
def Core.pubSurface (c : Core) (t : Owner) (n addr : Nat) (x : Contract) : Core × Bool :=
  let r := c.check t false false addr (max 1 (x.n 5))
  let c := c.potTouch addr (max 1 (x.n 5))
  if r.1 = .ok then (c, true) else (c.noteCheck t 5 n false r, false)

/-- The flags that a derived copy inherits: replayed and degraded (R176; log entry 207). -/
def derivedFlags (st : List W32) : Nat := stampFlags st / 4 % 4 * 4

/-- SYS_SRC_PW_CMD of window `w` written with `v` by tag `t`: the result code (R186, R188). -/
def Core.pwPublish (c : Core) (w : Nat) (t : Owner) (v : W32) (addr : Nat) (q : W32) : Core × Nat :=
  let n := fld v 9 0
  let kind := fld v 31 30
  let origin := fld v 25 16
  match c.slotSrc n with
  | none => c.pubRefuse n 2
  | some x =>
    let derived := bit (x.w 9) 31
    if x.sub ≠ w then c.pubRefuse n 1
    else if c.slotState n = 0 || !c.partActive x.sub then c.pubRefuse n 2
    else if x.f 7 3 0 ≠ 2 || (kind = 3 && !t.world) || (kind = 1 && !derived) then c.pubRefuse n 5
    else
      let bound := kind = 1 && origin = x.f 9 9 0 && (match c.slotSrc origin with | some y => decide (y.sub = w) | none => false)
      let c := if bound then c.recsRead origin else c
      let o := if bound then c.originRec origin q else none
      if kind = 1 && o.isNone then c.pubRefuse n 3
      else match c.pubSurface t n addr x with
        | (c, false) => c.pubRefuse n 4
        | (c, true) => match o with
          | some r => c.publish n addr 0 (stampCapture r.stamp) (derivedFlags r.stamp) (some (stampSeq r.stamp))
          | none => c.publish n addr 0 c.ns (if kind = 2 then 4 else if kind = 3 then 2 else 0) none

/-- The write of SYS_SRC_PW_CMD, its code in SYS_SRC_PW_RESULT. -/
def Core.srcCmd (c : Core) (w : Nat) (t : Owner) (v : W32) : Core :=
  let r := c.pwPublish w t v (c.rdPair (rg .SYS_SRC_PW_ADDR_LO w) (rg .SYS_SRC_PW_ADDR_HI w)) (c.rd (rg .SYS_SRC_PW_SEQ w))
  r.1.wr (rg .SYS_SRC_PW_RESULT w) (w32 r.2)

/-- SYS_SRC_STAMP as it reads: the current record's stamp (R188). -/
def Core.stampView (c : Core) (n i : Nat) : W32 := stampW (c.slot n).cur.stamp i

/-- The time in ns at which a slot without a publish is lost (R180). -/
def Core.lossAt (c : Core) (n : Nat) : Option Nat :=
  match c.slotSrc n with
  | some x => if c.slotState n = 2 then
      some ((c.slot n).lastPub + (if x.f 11 7 0 = 0 then 16 else x.f 11 7 0) * x.n 4 * 1000) else none
  | none => none

/-- SOURCE_LOSS_DEADLINE: a live slot with no publish up to its deadline's fabric cycle, that cycle's among them, is LOST (R180). -/
def execSourceLossDeadline (slot : Nat) (s : State) : Host.Outcome State Fault Refusal :=
  run s (fun c => match c.lossAt slot with
    | some t => (c.upTo (t * 1000 + c.fabricPs)).srcLose slot 1
    | none => c)

/-! ### Camera intake (R179, R181, R182, R225) -/

/-- Camera slots bound to a port and virtual channel, of partitions that run (R128, R130). -/
def Core.csiSlots (c : Core) (p vc : Nat) : List (Nat × Contract) :=
  (c.adm.live.filter (fun x => x.kind = kSOURCE && x.f 7 3 0 = 0 && x.f 9 2 0 = p && x.f 9 7 4 = vc && c.partActive x.sub)).map
    (fun x => (x.unit, x))

/-- Camera intake as a client of memory: class 5, the contract's port, Shared Store port 2 (R109, R133, R141, R179). -/
def csiClient (n : Nat) (x : Contract) : Client := { tag := ownerOf x.sub, cls := 5, no := n, port := x.f 8 7 0, ss := 2 }

/-- A case counted in CSI_CNT `k`, its bit in CSI_ERR set (R182, R188). -/
def Core.csiErr (c : Core) (p k : Nat) : Core := (c.addSat (rg2 .CSI_CNT p k) 15 0 1).setB (rg .CSI_ERR p) k true

/-- High-speed transmission on a port's clock lane: its link has not failed (R182, R188). -/
def Core.csiHs (c : Core) (p : Nat) : Core := (c.setB (rg .CSI_STATUS p) 0 true).setLvl (912 + p) false

/-- The port receives: enabled and its power domain on. -/
def Core.csiOn (c : Core) (p : Nat) : Bool := decide (p < c.counts.csi) && c.rdB (rg .CSI_CTRL p) 0 && c.domOn 19

/-- Lines the layer contracts on a slot declare as h_src: the greatest (R182). -/
def Core.slotHsrc (c : Core) (n : Nat) : Option Nat :=
  ((c.adm.live.filter (fun y => y.kind = kLAYER && y.f 7 15 0 = n)).map (fun y => y.f 5 15 0)).max?

/-- A frame start on one slot: published with its capture time (R181). A frame that no buffer or record takes is received and not
marked. -/
def Core.csiStart (c : Core) (p n : Nat) (x : Contract) : Core :=
  let s := c.slot n
  match c.nextBuf n x with
  | none => ((c.setSlot n { s with inFrame := false, shown := false }).pubRefuse n 2).1
  | some b =>
    let c := c.setSlot n { s with inFrame := true, rows := 0, lineLen := 0, buf := b, tooSmall := false }
    let r := c.publish n (x.n64 12 + b * x.n 14) b (c.ns - c.rdF (rg .CSI_CAPOFS p) 15 0 * 1000) 0 none
    r.1.setSlot n { r.1.slot n with shown := r.2 = 0 }

/-- CSI_FRAME_START: a frame-start short packet (R181). -/
def execCsiFrameStart (p vc : Nat) (s : State) : Host.Outcome State Fault Refusal :=
  run s (fun c =>
    if !c.csiOn p then c else
    let c := (c.csiHs p).setB (rg .CSI_STATUS p) 1 true
    (c.csiSlots p vc).foldl (fun c x => c.csiStart p x.1 x.2) c)

/-- A slot is bound to a port, channel and data type, whether or not its partition runs. -/
def csiBound (c : Core) (p vc dt : Nat) : Bool :=
  csiType dt && c.adm.live.any (fun x => x.kind = kSOURCE && x.f 7 3 0 = 0 && x.f 9 2 0 = p && x.f 9 7 4 = vc && x.f 9 13 8 = dt)

/-- A black line of a data type: luma 0, chroma mid-scale, RGB and RAW 0 (R182). -/
def blackLine (dt n : Nat) : List Byte :=
  (List.range n).map (fun i =>
    if (dt = 0x1E ∧ i % 2 = 0) ∨ (dt = 0x1F ∧ (i % 5 = 0 ∨ i % 5 = 2)) then 0x80 else 0)

/-- Lines of a ring with line pitch `p` (R225). -/
def pitchOf (n : Nat) : Nat := ceilDiv n 128 * 128
def ringLines (bytes p : Nat) : Nat := if p = 0 then 0 else bytes / p

/-- Where line `y` of the frame in receipt lies (R225). -/
def lineAddr (x : Contract) (s : Slot) (y : Nat) : Nat :=
  let p := pitchOf s.lineLen
  let y := if x.f 15 7 0 = 1 then y % max 1 (ringLines (x.n 14) p) else y
  x.n64 12 + s.buf * x.n 14 + y * p

/-- Line `y` stored for a slot under its owner's tag (R179, R452). -/
def Core.csiPut (c : Core) (n : Nat) (x : Contract) (y : Nat) (bs : List Byte) : Core :=
  let a := lineAddr x (c.slot n) y
  if a + bs.length > x.n64 12 + ((c.slot n).buf + 1) * x.n 14 then c else (c.unitWrite (csiClient n x) a bs).1

/-- The line above line `y`, read back from where it was written. -/
def Core.csiAbove (c : Core) (n : Nat) (x : Contract) (s : Slot) (y : Nat) : Core × List Byte :=
  let r := c.unitRead (csiClient n x) (lineAddr x s (y - 1)) s.lineLen
  (r.1, r.2.1)

/-- One received line of one slot: written, or replaced by the line above or black when damaged; extra lines dropped (R182). -/
def Core.csiLineOne (c : Core) (p dt : Nat) (bad : Bool) (bs : List Byte) (n : Nat) (x : Contract) : Core :=
  let s := c.slot n
  if !s.inFrame then c else
  let s := if s.rows = 0 then { s with lineLen := bs.length } else s
  let small := s.rows = 0 && x.f 15 7 0 = 1 && decide (ringLines (x.n 14) (pitchOf bs.length) < 192)
  let c := c.setSlot n { s with tooSmall := s.tooSmall || small }
  let c := if small then (c.slotDegrade n).csiErr p 5 else c
  let y := s.rows
  let tooMany := match c.slotHsrc n with | some h => decide (h ≤ y) | none => false
  let r : Core × List Byte := if !bad then (c, bs) else if y = 0 then (c, blackLine dt bs.length) else c.csiAbove n x s y
  let data := r.2
  let c := if bad then r.1.slotDegrade n else r.1
  let c := if s.tooSmall || small || tooMany then c else c.csiPut n x y data
  let s := c.slot n
  c.setSlot n { s with rows := y + 1 }

/-- CSI_LINE: a long packet. Types no slot is bound to are dropped and counted; a payload CRC error or an uncorrectable
header, whose type tells nothing, is counted once (R181, R182). -/
def execCsiLine (p vc dt : Nat) (crcBad hdrBad : Bool) (data : List Byte) (s : State) : Host.Outcome State Fault Refusal :=
  run s (fun c =>
    if !c.csiOn p then c else
    let c := c.csiHs p
    let l := if csiType dt then (c.csiSlots p vc).filter (fun x => x.2.f 9 13 8 = dt) else []
    if l = [] then (if hdrBad then c.csiErr p 1 else if csiBound c p vc dt then c else c.csiErr p 4)
    else
      let c := if hdrBad then c.csiErr p 1 else if crcBad then c.csiErr p 0 else c
      l.foldl (fun c x => c.csiLineOne p dt (crcBad || hdrBad) data x.1 x.2) c)

/-- The missing lines of a short frame repeat the last good line, and count as received (R182). -/
def Core.csiFill (c : Core) (n : Nat) (x : Contract) (h : Nat) : Core :=
  let s := c.slot n
  if s.rows = 0 || s.tooSmall then c
  else
    let last := c.csiAbove n x s s.rows
    let c := (List.range (h - s.rows)).foldl (fun c i => c.csiPut n x (s.rows + i) last.2) last.1
    c.setSlot n { c.slot n with rows := h }

/-- The frame check of one slot (R182). -/
def Core.csiEnd (c : Core) (p n : Nat) (x : Contract) : Core :=
  let s := c.slot n
  if !s.inFrame then c else
  let c := match c.slotHsrc n with
    | some h =>
      if s.rows < h then ((c.csiFill n x h).slotDegrade n).csiErr p 2
      else if h < s.rows then (c.slotDegrade n).csiErr p 3 else c
    | none => c
  let s := c.slot n
  c.setSlot n { s with inFrame := false, shown := false }

/-- CSI_FRAME_END (R182). -/
def execCsiFrameEnd (p vc : Nat) (s : State) : Host.Outcome State Fault Refusal :=
  run s (fun c => if !c.csiOn p then c else (c.csiSlots p vc).foldl (fun c x => c.csiEnd p x.1 x.2) c)

/-- CSI_LINK_FAILURE: the port's slots are LOST; source 912 + p is asserted until transmission resumes (R180, R182, R188; log entry 208). -/
def execCsiLinkFailure (p : Nat) (s : State) : Host.Outcome State Fault Refusal :=
  run s (fun c =>
    if !c.csiOn p then c else
    let c := (c.setB (rg .CSI_STATUS p) 0 false).setLvl (912 + p) true
    (c.adm.live.filter (fun x => x.kind = kSOURCE && x.f 7 3 0 = 0 && x.f 9 2 0 = p)).foldl (fun c x => c.srcLose x.unit 3) c)

end Sys2Proof.Machine
end

