-- ==== Sys2Proof/Machine/Vde.lean ====
section
/-! DEFINITION. Video decoders (R189 to R199): bitstream rings, context states, tokens, references and concealment, publishing
and envelope. What decoding a unit yields is the operand of PICTURE_DECODED, as the standards give it. -/

namespace Sys2Proof.Machine

open Sys2Proof

def Core.vctx (c : Core) (v x : Nat) : VCtx := kget {} c.vctxs (32 * v + x)
def Core.setVctx (c : Core) (v x : Nat) (k : VCtx) : Core := { c with vctxs := kset {} c.vctxs (32 * v + x) k }
/-- The live DECODE contract of a context. -/
def Core.vdeCon (c : Core) (v x : Nat) : Option Contract :=
  (c.adm.live.filter (fun y => y.kind = kDECODE && y.unit = v && y.f 4 15 8 = x)).getLast?
/-- VDE_CTX_STATE.state: 0 FREE, 1 ARMED, 2 CLEAN, 3 CONCEALING, 4 HALTED (R193). -/
def Core.vdeState (c : Core) (v x : Nat) : Nat := c.rdF (rg2 .VDE_CTX_STATE v x) 31 28
def Core.setVdeState (c : Core) (v x n : Nat) : Core := c.setF (rg2 .VDE_CTX_STATE v x) 31 28 n
/-- A context's bit in VDE_EVT i (R199). -/
def Core.vdeEvt (c : Core) (v x i : Nat) : Core := c.setB (rg2 .VDE_EVT v i) x true

/-- The picture period P in ns (R194). -/
def Core.vdePeriod (c : Core) (v x : Nat) (k : Contract) : Nat :=
  let r := c.rdN (rg2 .VDE_CTX_RATE v x)
  1000000000000 / max 1 (if r = 0 then k.n 6 else r)

/-- A context as a client of memory: its owner's tag, class 3, its decoder's port, Shared Store port 7 (R109, R133, R141, R191). -/
def vdeClient (v : Nat) (k : Contract) : Client := { tag := ownerOf k.sub, cls := 3, no := v, port := 20 + v / 2, ss := 7 }

/-- The two parts of `n` bytes of a ring from an offset on: where each lies and its length. -/
def ringParts (k : Contract) (at_ n : Nat) : List (Nat × Nat) :=
  let size := k.n 9
  let at_ := at_ % max 1 size
  let n1 := min n (size - at_)
  [(k.n64 10 + at_, n1), (k.n64 10, n - n1)].filter (fun p => p.2 != 0)

/-- Bytes of a ring read by a client, wrapping: the bytes and the greatest error code. -/
def Core.ringRead (c : Core) (u : Client) (k : Contract) (at_ n : Nat) : Core × List Byte × Nat :=
  (ringParts k at_ n).foldl (fun (r : Core × List Byte × Nat) p =>
    let y := r.1.unitRead u p.1 p.2
    (y.1, r.2.1 ++ y.2.1, max r.2.2 y.2.2)) (c, [], 0)

/-- Bytes written to a ring by a client, wrapping. -/
def Core.ringWrite (c : Core) (u : Client) (k : Contract) (at_ : Nat) (bs : List Byte) : Core × Nat :=
  let r := (ringParts k at_ bs.length).foldl (fun (r : Core × List Byte × Nat) p =>
    let y := r.1.unitWrite u p.1 (r.2.1.take p.2)
    (y.1, r.2.1.drop p.2, max r.2.2 y.2)) (c, bs, 0)
  (r.1, r.2.2)

/-- An access that was refused, or that found nothing at its address. -/
def vdeRefused (e : Nat) : Bool := e = 1 || e = 2

/-- Bytes waiting between two ring offsets. -/
def ringUsed (size rptr wptr : Nat) : Nat := if size = 0 then 0 else (wptr + size - rptr) % size

/-- A halt: state, cause, event bit, journal (R198). -/
def Core.vdeHalt (c : Core) (v x halt evt : Nat) : Core :=
  (((c.setVdeState v x 4).setF (rg2 .VDE_CTX_STATE v x) 27 24 halt).vdeEvt v x evt).fault (288 + 8 * v + evt) halt x

/-- The deadline in ns of the picture that a context has released: release + P (R194). -/
def Core.vdeDue (c : Core) (v x : Nat) : Option Nat :=
  match c.vdeCon v x, (c.vctx v x).units with
  | some k, u :: _ => u.released.map (fun t => t + c.vdePeriod v x k)
  | _, _ => none

/-- The context whose picture the decoder runs: earliest deadline first, the lowest context among equals (R194). -/
def Core.vdeNext (c : Core) (v : Nat) : Option Nat :=
  ((List.range 32).foldl (fun (r : Option (Nat × Nat)) x => match c.vdeDue v x, r with
    | some d, some b => if d < b.2 then some (x, d) else r
    | some d, none => some (x, d)
    | none, _ => r) none).map (fun p => p.1)

/-- VDE_STATUS.live, .busy and .ctx follow the contexts. -/
def Core.vdeShow (c : Core) (v : Nat) : Core :=
  let live := ((List.range 32).filter (fun x => c.vdeState v x != 0)).length
  let busy := c.vdeNext v
  let r := rg .VDE_STATUS v
  c.wr r (setBit (setFld (setFld (c.rd r) 5 0 live) 12 8 (busy.getD 0)) 13 busy.isSome)

/-- Unit released for decoding when it is complete and a token is there; the token is spent (R194). -/
def Core.vdeRelease (c : Core) (v x : Nat) : Core :=
  let k := c.vctx v x
  if !k.token then c else
  match k.units.findIdx? (fun u => u.released.isNone) with
  | some i => (c.setVctx v x { k with token := false, units := k.units.modify i (fun u => { u with released := some c.mono }) }).vdeShow v
  | none => c

/-- A complete unit joins the context's queue; after one treated as lost data it carries gap (R192). -/
def Core.vdePush (c : Core) (v x : Nat) (u : VUnit) : Core :=
  let k := c.vctx v x
  (c.setVctx v x { k with units := k.units ++ [{ u with gap := u.gap || k.gapNext }], gapNext := u.bad }).vdeRelease v x

/-- The units between `k.taken` and the write pointer of a host-fed ring: header by header, a unit past the pointer, with reserved
fields set or with a poisoned header being lost data (R192); a refused read stops the context (R191). -/
def Core.vdeTake (c : Core) (v x : Nat) (k : Contract) : Nat → Nat → Core
  | 0, _ => c
  | fuel + 1, left =>
    if left = 0 then c else
    let q := c.vctx v x
    let r := c.ringRead (vdeClient v k) k q.taken 32
    if vdeRefused r.2.2 then r.1.vdeHalt v x 2 7 else
    let c := if r.2.2 = 3 then r.1.vdeEvt v x 7 else r.1
    let h := r.2.1
    let at_ (o n : Nat) : Nat := leNat ((h.drop o).take n)
    let fl := at_ 4 4
    let size := if r.2.2 = 3 then left else ceilDiv (32 + at_ 0 4) 64 * 64
    let bad := decide (fl ≥ 16) || at_ 0x18 8 != 0 || decide (left < size) || r.2.2 = 3
    let size := if left < size then left else size
    let u : VUnit := { at_ := q.taken, size := size, bad := bad, gap := fl % 2 = 1, part := fl / 2 % 2 = 1
                       degraded := fl / 4 % 2 = 1, replayed := fl / 8 % 2 = 1, capture := c.ns }
    let c := (c.setVctx v x { q with taken := (q.taken + size) % k.n 9 }).vdePush v x u
    c.vdeTake v x k fuel (left - size)

/-- Halted by OWNERSHIP: units are discarded unread until a cancel (R193, R198). -/
def Core.vdeDead (c : Core) (v x : Nat) : Bool := c.vdeState v x = 4 && c.rdF (rg2 .VDE_CTX_STATE v x) 27 24 = 2

/-- A write of VDE_CTX_WPTR: of a host-fed ring only (R192). -/
def Core.vdeWptr (c : Core) (v x : Nat) (p : W32) : Core :=
  match c.vdeCon v x with
  | none => c
  | some k =>
    let host := match c.slotSrc (k.f 8 9 0) with | some y => decide (y.f 7 3 0 = 2) | none => false
    if !host || c.vdeState v x = 0 then c
    else
      let p := p.toNat % max 1 (k.n 9)
      let c := c.wr (rg2 .VDE_CTX_WPTR v x) (w32 p)
      if c.vdeDead v x then
        (c.setVctx v x { c.vctx v x with taken := p, units := [] }).wr (rg2 .VDE_CTX_RPTR v x) (w32 p)
      else
        let left := ringUsed (k.n 9) (c.vctx v x).taken p
        c.vdeTake v x k (left / 64 + 1) left

/-- A cancel (R193): picture discarded, references invalidated, ring emptied; ARMED while a contract is live. -/
def Core.vdeCancel (c : Core) (v x : Nat) : Core :=
  let w := c.rd (rg2 .VDE_CTX_WPTR v x)
  let k := c.vctx v x
  let c := c.setVctx v x { token := k.token, tokenAt := k.tokenAt, taken := w.toNat }
  let c := c.wr (rg2 .VDE_CTX_RPTR v x) w
  let st := if (c.vdeCon v x).isSome then 1 else 0
  (c.wr (rg2 .VDE_CTX_STATE v x) (w32 (st * 268435456))).vdeShow v

/-- A context as the commit switch that makes its contract live leaves it: ARMED, its ring empty (R193, R194). -/
def Core.vdeArm (c : Core) (v x : Nat) : Core :=
  let c := (c.wr (rg2 .VDE_CTX_WPTR v x) 0).wr (rg2 .VDE_CTX_RPTR v x) 0
  let c := c.setVctx v x { token := true, tokenAt := c.mono }
  (c.wr (rg2 .VDE_CTX_STATE v x) 0x10000000).vdeShow v

/-- A context released: FREE (R193). -/
def Core.vdeFree (c : Core) (v x : Nat) : Core :=
  ((c.setVctx v x {}).wr (rg2 .VDE_CTX_STATE v x) 0).vdeShow v

/-- PICTURE_TOKEN_REFILL: the token of the next contracted period (R194). -/
def execPictureTokenRefill (v x : Nat) (s : State) : Host.Outcome State Fault Refusal :=
  run s (fun c => match c.vdeCon v x with
    | none => c
    | some k =>
      let q := c.vctx v x
      let t := q.tokenAt + c.vdePeriod v x k
      let c := c.upTo (t * 1000)
      (c.setVctx v x { q with token := true, tokenAt := t }).vdeRelease v x)

/-- The picture stays inside the contract's envelope, its level inside the profile's limit: 6.1, of AV1 6.0 (R189, R197, R198). -/
def envelopeOk (k : Contract) (i : PicInfo) : Bool :=
  let prof := k.f 4 7 0
  let fmt := k.f 8 15 12
  decide (i.width ≤ k.f 5 31 16) && decide (i.height ≤ k.f 5 15 0) && decide (i.level ≤ if prof = 0x10 then 60 else 61) &&
    (match prof with
     | 1 => i.depth = 8 && i.chroma = 1
     | 2 => (i.depth = 8 || i.depth = 10) && i.chroma = 1
     | 3 => decide (8 ≤ i.depth ∧ i.depth ≤ 10) && i.chroma ≤ 2 && (fmt = 4 || i.chroma = 1)
     | _ => (i.depth = 8 || i.depth = 10) && i.chroma ≤ 1) &&
    (!(fmt = 0 || fmt = 2) || i.depth = 8) && decide ((if prof = 0x10 then 9 else i.dpb) + 2 ≤ k.f 8 20 16)

/-- A buffer of the pool that holds no surface in use and no kept picture: the lowest (R197, R205; log entry 34). -/
def Core.vdeBuf (c : Core) (k : Contract) (q : VCtx) : Option Nat :=
  (List.range (k.f 8 20 16)).find? (fun i =>
    !c.surfBusy (k.f 8 9 0) (k.n64 12 + i * k.n 14) && !(q.pics.any (fun p => p.buf = i)))

/-- Publish of one picture put out (R197). -/
def Core.vdeOut (c : Core) (v x : Nat) (k : Contract) (p : VPic) (cap : Nat) : Core :=
  let n := k.f 8 9 0
  let fl := (if p.conc then 1 else 0) + (if p.replayed then 4 else 0) + (if p.degraded then 8 else 0)
  let r := c.publish n (k.n64 12 + p.buf * k.n 14) (p.buf % 8) cap fl none
  if r.2 ≠ 0 then r.1 else
  let c := (r.1.addWrap (rg2 .VDE_CTX_PICS v x) 1).vdeEvt v x 0
  let c := if p.conc then c.addSat (rg2 .VDE_CTX_CONC v x) 15 0 1 else c
  let st := c.vdeState v x
  let q := c.vctx v x
  let first := st = 1 && !q.shown
  let c := if first || (st = 2 && p.conc) then c.vdeEvt v x 2 else c
  let c := if st = 2 && p.conc then c.setVdeState v x 3 else c
  c.setVctx v x { q with shown := true }

/-- The end of a unit: the queue moves on and VDE_CTX_RPTR passes it (R192). -/
def Core.vdeEnd (c : Core) (v x : Nat) (k : Contract) (u : VUnit) : Core :=
  let q := c.vctx v x
  let c := c.setVctx v x { q with units := q.units.drop 1 }
  ((c.wr (rg2 .VDE_CTX_RPTR v x) (w32 ((u.at_ + u.size) % max 1 (k.n 9)))).vdeRelease v x).vdeShow v

/-- The context becomes CLEAN at a random-access point decoded with no lost data (R193, R196). -/
def Core.vdeClean (c : Core) (v x : Nat) : Core :=
  if c.vdeState v x = 2 then c
  else ((c.setVdeState v x 2).setF (rg2 .VDE_CTX_STATE v x) 27 24 0).vdeEvt v x 3

/-- Pictures kept: valid references, and those still to be put out. -/
def keepPics (ps : List VPic) (kept outs : List Nat) (done : List Nat) : List VPic :=
  ps.filter (fun p => kept.contains p.pic || (outs.contains p.pic && !(done.contains p.pic)))

/-- A mid-grey byte of a linear output: NV12, or P010 with its ten bits at the top (R189, R196). -/
def greyByte (fmt i : Nat) : Byte := if fmt = 1 ∧ i % 2 = 0 then 0 else 0x80

/-- The bytes of a decoded picture as they are written: film grain when VDE_CTX_CFG.grain is set, chroma of a monochrome picture at
mid-grey, lost slices and tiles copied from the first reference or mid-grey (R189, R196). -/
def Core.vdeSamples (c : Core) (v x : Nat) (k : Contract) (q : VCtx) (i : PicInfo) : List Byte :=
  let fmt := k.f 8 15 12
  let linear := decide (fmt < 2)
  let bs := if k.f 4 7 0 = 0x10 && c.rdB (rg2 .VDE_CTX_CFG v x) 1 then i.grained.getD i.samples else i.samples
  let bs := if i.chroma = 0 && linear then bs ++ (List.range (bs.length / 2)).map (greyByte fmt) else bs
  let ref : Option VPic := match i.ref0 with
    | some r => if q.refs.contains r then q.pics.find? (fun p => p.pic = r) else none
    | none => none
  if !linear then bs
  else i.lostAt.foldl (fun (bs : List Byte) r =>
    let fill : List Byte := match ref with
      | some p => c.bytes (k.n64 12 + p.buf * k.n 14 + r.1) r.2
      | none => (List.range r.2).map (fun j => greyByte fmt (r.1 + j))
    bs.take r.1 ++ fill.take (bs.length - r.1) ++ bs.drop (r.1 + r.2)) bs

/-- What a unit's decoding reads: its bytes in the ring, and each valid reference it names, once (log entry 209): the greatest error
code. -/
def Core.vdeFetch (c : Core) (v x : Nat) (k : Contract) (u : VUnit) (i : PicInfo) : Core × Nat :=
  let w := vdeClient v k
  let r := c.ringRead w k u.at_ u.size
  let q := c.vctx v x
  (q.pics.filter (fun p => i.refs.contains p.pic && q.refs.contains p.pic)).foldl (fun (y : Core × Nat) p =>
    let z := y.1.unitRead w (k.n64 12 + p.buf * k.n 14) (min i.samples.length (k.n 14))
    (z.1, max y.2 z.2.2)) (r.1, r.2.2)

/-- A unit decoded (R196, R197): concealment, reference store, publishes in output order. -/
def Core.vdeDecode (c : Core) (v x : Nat) (k : Contract) (u : VUnit) (i : PicInfo) (poison : Bool) : Core :=
  let q := c.vctx v x
  let st := c.vdeState v x
  let lost := u.gap || u.part || u.bad || i.syntaxErr || poison
  let c := if lost && (u.gap || u.part || u.bad) then c.addSat (rg2 .VDE_CTX_LOST v x) 15 0 1 else c
  let c := if i.syntaxErr || i.unsupported then c.vdeEvt v x 1 else c
  let c := if poison then c.vdeEvt v x 7 else c
  if u.bad then c
  else if i.rasl && q.dropRasl then c
  else
    let hash := i.hashBad && c.rdB (rg2 .VDE_CTX_CFG v x) 0
    let c := if hash then c.vdeEvt v x 6 else c
    let shownKey := match i.shows with | some p => q.keys.contains p | none => false
    let clean := (i.rap || shownKey) && !lost
    let badRef := i.refs.any (fun r => match q.pics.find? (fun p => p.pic = r) with
      | some p => !(q.refs.contains r) || p.conc | none => true)
    let conc := !clean && (lost || badRef || st != 2)
    let hidden := i.hiddenKey && !lost && !badRef
    let b := (c.vdeBuf k q).getD 0
    let w : Core × Nat := if i.shows.isSome then (c, 0)
      else c.unitWrite (vdeClient v k) (k.n64 12 + b * k.n 14) ((c.vdeSamples v x k q i).take (k.n 14))
    if vdeRefused w.2 then w.1.vdeHalt v x 2 7 else
    let c := w.1
    let mk (c : Core) : Core :=
      if i.shows.isSome then c
      else
        let q := c.vctx v x
        c.setVctx v x { q with pics := q.pics ++ [{ pic := i.pic, buf := b, conc := conc && !hidden, degraded := u.degraded || hash
                                                    replayed := u.replayed, capture := u.capture }] }
    let c := mk c
    let c := if clean then c.vdeClean v x else c
    let q := c.vctx v x
    let c := c.setVctx v x { q with dropRasl := if i.rap then st != 2 else q.dropRasl
                                    refs := i.kept
                                    keys := (if hidden then [i.pic] else []) ++ (q.keys.filter (fun p => i.kept.contains p)) }
    let c := i.outputs.foldl (fun c o => match (c.vctx v x).pics.find? (fun p => p.pic = o) with
      | some p => c.vdeOut v x k { p with conc := p.conc || (i.shows = some o && conc) } (if i.shows = some o then u.capture else p.capture)
      | none => c) c
    let q := c.vctx v x
    let waiting := (q.pics.map (fun p => p.pic)).filter (fun p => !(i.outputs.contains p))
    let c := c.setVctx v x { q with pics := keepPics q.pics i.kept waiting i.outputs }
    c.setF (rg2 .VDE_CTX_STATE v x) 20 16 i.kept.length

/-- PICTURE_DECODED: the released unit finishes decoding, the one with the decoder's earliest deadline (R194 to R198). A halted context discards units until a random-access
point that fits, decoded with no lost data; an OWNERSHIP halt, which any refused access of the context's own causes, until a cancel (R191). Nothing is decoded for a
partition that does not run (R128, R130). -/
def execPictureDecoded (v x : Nat) (info : PicInfo) (s : State) : Host.Outcome State Fault Refusal :=
  run s (fun c => match c.vdeCon v x, (c.vctx v x).units with
    | some k, u :: _ =>
      match u.released with
      | none => c
      | some t =>
        let st := c.vdeState v x
        let halt := c.rdF (rg2 .VDE_CTX_STATE v x) 27 24
        let fits := envelopeOk k info
        let lost := u.gap || u.part || u.bad || info.syntaxErr || info.poisoned
        let drop := st = 4 && (halt = 2 || !(info.rap && fits) || lost)
        let buf := drop || u.bad || info.shows.isSome || (c.vdeBuf k (c.vctx v x)).isSome
        if !c.partActive k.sub || c.vdeNext v != some x || !buf then c else
        let p := c.vdePeriod v x k
        let c := if t + p + 10000 < c.mono then c.addSat (rg2 .VDE_CTX_LATE v x) 15 0 1 else c
        let c :=
          if drop then c
          else if !fits && info.shows.isNone then c.vdeHalt v x 1 5
          else
            let r := if u.bad then (c, 0) else c.vdeFetch v x k u info
            if vdeRefused r.2 then r.1.vdeHalt v x 2 7
            else if st = 4 && r.2 = 3 then r.1.vdeEvt v x 7
            else r.1.vdeDecode v x k u info (info.poisoned || r.2 = 3)
        c.vdeEnd v x k u
    | _, _ => c)

end Sys2Proof.Machine
end

