-- ==== Sys2Proof/Machine/Net.lean ====
section
/-! DEFINITION. Network intake (R184, R185, R188, R192): sequence extension, capture times, losses, ST 2110-20 frames and the
access units of compressed payloads. Where a packet's payload falls in a frame or unit is the packet's own header, by its
payload format's standard, and an operand here. -/

namespace Sys2Proof.Machine

open Sys2Proof

/-- The extension of a 16-bit sequence number s (R184): the number, a 32-bit one with 2^32 added so that it does not run below zero, and
whether it is ahead. -/
def extSeq (started : Bool) (ext s : Nat) : Nat × Bool :=
  if !started then (4294967296 + s % 65536, true)
  else
    let d := (s % 65536 + 65536 - ext % 65536) % 65536
    if d < 32768 then (ext + d, true) else (ext - (65536 - d), false)

/-- The 64-bit extension of an RTP timestamp near the arrival in ticks (R185). -/
def extStamp (arrival t : Nat) : Nat :=
  let t := t % 4294967296
  let base := arrival / 4294967296 * 4294967296 + t
  if base + 2147483648 < arrival then base + 4294967296
  else if arrival + 2147483648 ≤ base ∧ 4294967296 ≤ base then base - 4294967296 else base

/-- Capture time of a timestamp, and whether it is the arrival time for want of a report (R185). -/
def Core.rtpCapture (c : Core) (st2110 ptp : Bool) (r : Option (Nat × Nat)) (ts : Nat) : Nat × Bool :=
  let arrival := c.ns * 90000 / 1000000000
  if st2110 || ptp then (extStamp arrival ts * 1000000000 / 90000, false)
  else match r with
    | none => (c.ns, true)
    | some (rt, t) =>
      let d := (ts % 4294967296 + 4294967296 - rt % 4294967296) % 4294967296
      if d < 2147483648 then (t + d * 1000000000 / 90000, false)
      else (t - (4294967296 - d) * 1000000000 / 90000, false)

/-- A count of a port crosses 256: source 924 + n, until software clears NET_STREAM_LOSS (R188; log entry 208). -/
def crossed (a b : Nat) : Bool := decide (a ≤ 256 ∧ 256 < b)

def Core.netCount (c : Core) (n which k : Nat) : Core :=
  let key := 2 * n + which
  let old := kget 0 c.netCnt key
  let c := { c with netCnt := kset 0 c.netCnt key (old + k) }
  if crossed old (old + k) then c.setLvl (924 + n) true else c

/-- Packets given up as lost (R184). -/
def Core.netLoss (c : Core) (n k : Nat) : Core :=
  if k = 0 then c else
  let old := c.rdF (rg .NET_STREAM_LOSS n) 15 0
  let c := c.addSat (rg .NET_STREAM_LOSS n) 15 0 k
  if crossed old (old + k) then c.setLvl (924 + n) true else c

/-- NET_STREAM_LOSS cleared by software: the port's counts begin again, source 924 + n is released (R188; log entry 208). -/
def Core.netClear (c : Core) (n : Nat) : Core :=
  if c.rdF (rg .NET_STREAM_LOSS n) 15 0 ≠ 0 then c
  else ({ c with netCnt := kset 0 (kset 0 c.netCnt (2 * n) 0) (2 * n + 1) 0 } : Core).setLvl (924 + n) false

/-- The slots a packet belongs to: port, UDP port, SSRC (0 accepts any) (R179). -/
def Core.netSlots (c : Core) (n udp : Nat) (ssrc : W32) : List (Nat × Contract) :=
  (c.adm.live.filter (fun x => x.kind = kSOURCE && x.f 7 3 0 = 1 && x.f 9 1 0 = n && x.f 9 31 16 = udp &&
    (x.w 10 == 0 || x.w 10 == ssrc))).map (fun x => (x.unit, x))

/-- The decoder context fed by a slot. -/
def Core.vdeOfSlot (c : Core) (n : Nat) : Option (Nat × Nat × Contract) :=
  ((c.adm.live.filter (fun y => y.kind = kDECODE && y.f 8 9 0 = n)).getLast?).map (fun y => (y.unit, y.f 4 15 8, y))

/-- Network intake as a client of memory: class 5, port 31, Shared Store port 6 (R109, R133, R141). -/
def netClient (n : Nat) (x : Contract) : Client := { tag := ownerOf x.sub, cls := 5, no := n, port := 31, ss := 6 }

/-- A complete unit written to the context's ring, or dropped for want of room: gap in the next, VDE_EVT 4; a refused write stops the
context (R191, R192). -/
def Core.netUnit (c : Core) (slot v x : Nat) (k : Contract) (bs : List Byte) (gap part deg : Bool) (cap first last : Nat) : Core :=
  let s := c.slot slot
  let w := c.rdN (rg2 .VDE_CTX_WPTR v x)
  let size := ceilDiv (32 + bs.length) 64 * 64
  let used := ringUsed (k.n 9) (c.rdN (rg2 .VDE_CTX_RPTR v x)) w
  if c.vdeState v x = 0 then c
  else if k.n 9 ≤ used + size then
    (c.setSlot slot { s with net := { s.net with gapNext := true } }).vdeEvt v x 4
  else
    let gap := gap || s.net.gapNext
    let fl := (if gap then 1 else 0) + (if part then 2 else 0) + (if deg then 4 else 0)
    let hd := leBytes 4 bs.length ++ leBytes 4 fl ++ leBytes 8 cap ++ leBytes 4 first ++ leBytes 4 last ++ leBytes 8 0
    let r := c.ringWrite (netClient slot k) k w (hd ++ bs)
    if vdeRefused r.2 then r.1.vdeHalt v x 2 7
    else
      let c := r.1.setSlot slot { s with net := { s.net with gapNext := false } }
      let c := c.wr (rg2 .VDE_CTX_WPTR v x) (w32 ((w + size) % k.n 9))
      c.vdePush v x { at_ := w, size := size, bad := false, gap := gap, part := part, degraded := deg, replayed := false, capture := cap }

/-- Numbers given up that no frame or unit needs any more and that lie beyond 64 places. -/
def NetStream.prune (q : NetStream) : NetStream :=
  { q with lost := q.lost.filter (fun l => decide (q.done < l ∨ q.ext ≤ l + 64)) }

/-- A unit's end put among the others in the order of their numbers. -/
def insertEnd (x : Nat × Nat × Bool) : List (Nat × Nat × Bool) → List (Nat × Nat × Bool)
  | [] => [x]
  | y :: ys => if x.1 < y.1 then x :: y :: ys else y :: insertEnd x ys

/-- The units whose packets have all come or been given up, oldest first (R192). -/
def Core.netAssemble (c : Core) (slot : Nat) : Nat → Core
  | 0 => c
  | fuel + 1 =>
    let s := c.slot slot
    let q := s.net
    match q.ends with
    | [] => c
    | (e, cap, deg) :: es =>
      if q.gaps.any (fun g => decide (g.1 ≤ e)) then c
      else
        let mine : List (Nat × List Byte) := q.pieces.filter (fun p => decide (p.1 ≤ e))
        let first := match mine with | p :: _ => p.1 | [] => e
        let gap := q.lost.any (fun l => decide (q.done < l ∧ l < first))
        let part := q.lost.any (fun l => decide (first < l ∧ l < e))
        let c := c.setSlot slot { s with net := ({ q with ends := es, pieces := q.pieces.filter (fun p => decide (e < p.1)), done := e } : NetStream).prune }
        let c := match c.vdeOfSlot slot with
          | some (v, x, k) => c.netUnit slot v x k (mine.flatMap Prod.snd) gap part deg cap first e
          | none => c
        c.netAssemble slot fuel

/-- The bytes of `[at, top)` that no range of a list covers. -/
def holesOf (top : Nat) : Nat → KMap Nat → List (Nat × Nat)
  | p, [] => if p < top then [(p, top - p)] else []
  | p, (o, n) :: r => (if p < min o top then [(p, min o top - p)] else []) ++ holesOf top (max p (o + n)) r

/-- What no packet of a frame brought keeps the content of the previous buffer (R185). -/
def Core.netKeep (c : Core) (slot : Nat) (x : Contract) (f : NetFrame) (b : Nat) : Core :=
  let cur := (c.slot slot).cur
  if cur.stamp = [] then c
  else (holesOf (x.n 14) 0 f.cover).foldl (fun (c : Core) r =>
    let y := c.unitRead (netClient slot x) (cur.addr + r.1) r.2
    (y.1.unitWrite (netClient slot x) (x.n64 12 + b * x.n 14 + r.1) y.2.1).1) c

/-- The frame in receipt is published, its packets being those up to number `last`; a missing packet marks it degraded (R185). A frame for
which no buffer was free is a refused publish. -/
def Core.netPublish (c : Core) (slot : Nat) (x : Contract) (last : Nat) (cut : Bool) : Core :=
  let s := c.slot slot
  let q := s.net
  match q.frame with
  | none => c
  | some f =>
    let mine (n : Nat) : Bool := decide (f.first ≤ n ∧ n ≤ last)
    let bad := cut || f.lead || q.gaps.any (fun g => mine g.1) || q.lost.any mine
    let c := c.setSlot slot { s with buf := f.buf.getD s.buf, net := ({ q with frame := none, done := last } : NetStream).prune }
    match f.buf with
    | none => (c.pubRefuse slot 2).1
    | some b =>
      let c := if bad then c.netKeep slot x f b else c
      (c.publish slot (x.n64 12 + b * x.n 14) b f.cap (if bad then 8 else 0) none).1

/-- A new frame starts in the next buffer with the packet numbered `e` at offset `off` (R179, R185). -/
def Core.netFrame (c : Core) (slot : Nat) (x : Contract) (ts e off cap : Nat) : Core :=
  let s := c.slot slot
  let first := if s.net.done = 0 then e else s.net.done + 1
  c.setSlot slot { s with net := { s.net with frame := some { ts := ts, buf := c.nextBuf slot x, cap := cap, first := first, lead := off != 0 } } }

/-- A packet of an ST 2110-20 stream: the first packet of a new frame publishes the one before it, whose marker is lost; the marker packet
publishes its own; a packet of a frame already published is of no more use (R185). `before` is the highest number received before it. -/
def Core.rtpFrame (c : Core) (e before ts off : Nat) (ahead marker : Bool) (cap : Nat) (data : List Byte) (slot : Nat) (x : Contract) : Core :=
  let c := match (c.slot slot).net.frame with
    | some f => if f.ts ≠ ts && ahead then c.netPublish slot x (if off = 0 then e - 1 else before) true else c
    | none => c
  let c := if (c.slot slot).net.frame = none ∧ (c.slot slot).net.done < e then c.netFrame slot x ts e off cap else c
  match (c.slot slot).net.frame with
  | none => c
  | some f =>
    if f.ts ≠ ts then c
    else
      let fits := decide (off + data.length ≤ x.n 14)
      let c := match f.buf with
        | some b => if fits then (c.unitWrite (netClient slot x) (x.n64 12 + b * x.n 14 + off) data).1 else c
        | none => c
      let s := c.slot slot
      let f := { f with lead := f.lead && off != 0, cover := if fits then kset 0 f.cover off (max (kget 0 f.cover off) data.length) else f.cover }
      let c := c.setSlot slot { s with net := { s.net with frame := some f } }
      if marker then c.netPublish slot x e false else c

/-- One packet for one slot: late beyond 64 places or 2 ms out of order; a number that has come before is of no use (R184, R185). -/
def Core.rtpOne (c : Core) (n seq ts : Nat) (marker ptp : Bool) (off : Nat) (data : List Byte) (slot : Nat) (x : Contract) : Core :=
  let s := c.slot slot
  let q := s.net
  let r := extSeq q.started q.ext seq
  let e := r.1
  let top := if r.2 then e else q.ext
  let open_ (g : Nat × Nat) : Bool := decide (top ≤ g.1 + 64 ∧ c.mono ≤ g.2 + 2000000)
  let expired := q.gaps.filter (fun g => !(open_ g))
  let gaps := q.gaps.filter open_
  let fresh := r.2 && !(q.started && e = q.ext)
  let early := decide (e < q.start)
  let late := !r.2 && (decide (e + 64 < q.ext) || q.lost.contains e || expired.any (fun g => g.1 = e) ||
    (early && decide (q.startAt + 2000000 < c.mono)))
  let useful := fresh || early || gaps.any (fun g => g.1 = e)
  let newGaps := if r.2 && q.started then (List.range (e - q.ext - 1)).map (fun i => (q.ext + 1 + i, c.mono)) else []
  let cap := c.rtpCapture (x.f 9 3 2 = 2) ptp q.report ts
  let q : NetStream := { q with started := true, ext := top, start := if q.started then q.start else e
                                startAt := if q.started then q.startAt else c.mono
                                gaps := gaps.filter (fun g => g.1 != e) ++ newGaps, lost := q.lost ++ expired.map (fun g => g.1) }
  let before := s.net.ext
  let c := (c.setSlot slot { s with net := q.prune }).netLoss n expired.length
  if late then c.netCount n 0 1
  else if !useful then c
  else if x.f 9 3 2 = 2 then c.rtpFrame e before ts off r.2 marker cap.1 data slot x
  else if e ≤ q.done then c
  else
    let s := c.slot slot
    let c := c.setSlot slot { s with net := { s.net with pieces := kset [] s.net.pieces e data
                                                         ends := if marker then insertEnd (e, cap.1, cap.2) s.net.ends else s.net.ends } }
    c.netAssemble slot ((c.slot slot).net.ends.length + 1)

/-- RTP_PACKET on port `n`: `marker` ends a frame or an access unit; `off` is where the payload falls in an ST 2110-20 frame
buffer. A packet of no bound stream is counted (R184, R185, R188). -/
def execRtpPacket (n udp : Nat) (ssrc : W32) (seq ts : Nat) (marker ptp : Bool) (off : Nat) (data : List Byte) (s : State) :
    Host.Outcome State Fault Refusal :=
  run s (fun c =>
    if n ≥ c.counts.net || !c.rdB (rg .NET_PORT_CTRL n) 0 || !c.domOn 19 then c else
    match c.netSlots n udp ssrc with
    | [] => c.netCount n 1 1
    | l => l.foldl (fun c x => if c.partActive x.2.sub then c.rtpOne n seq ts marker ptp off data x.1 x.2 else c) c)

/-- RTCP_SENDER_REPORT: RTP time `rtp` is PTP time `t` for the stream (R185). -/
def execRtcpSenderReport (n udp : Nat) (ssrc : W32) (rtp t : Nat) (s : State) : Host.Outcome State Fault Refusal :=
  run s (fun c =>
    if n ≥ c.counts.net || !c.rdB (rg .NET_PORT_CTRL n) 0 || !c.domOn 19 then c else
    (c.netSlots n udp ssrc).foldl (fun c x =>
      let s := c.slot x.1
      c.setSlot x.1 { s with net := { s.net with report := some (rtp, t) } }) c)

end Sys2Proof.Machine
end

