-- ==== Sys2Proof/Machine/Layers.lean ====
section
/-! DEFINITION. Layers (R200 to R224): the envelope of a layer block, pixel formats, occlusion and visible spans, blending, and
the substitution of stale and lost content with its rind (R261 to R269). -/

namespace Sys2Proof.Machine

open Sys2Proof

/-! ### Layer blocks -/

def Core.head (c : Core) (h : Nat) : Head := kget {} c.heads h
def Core.setHead (c : Core) (h : Nat) (x : Head) : Core := { c with heads := kset {} c.heads h x }

/-- A register as a snapshot of registers holds it. -/
def snapRd (v : Variant) (l : List (Reg × W32)) (r : Reg) : W32 := kget (regReset v r) l r
def snapF (v : Variant) (l : List (Reg × W32)) (r : Reg) (hi lo : Nat) : Nat := fld (snapRd v l r) hi lo

/-- The registers of a head that have a pending and an active set (R204). -/
def composed (f : Fam) : Bool :=
  match f with
  | .LAYER_CTRL | .LAYER_CROP_POS | .LAYER_CROP_SIZE | .LAYER_DST_POS | .LAYER_DST_SIZE | .LAYER_PITCH0 | .LAYER_PITCH1
  | .LAYER_PLANE1 | .LAYER_PLANE2 | .LAYER_BLEND | .LAYER_CSC | .LAYER_OPQ_POS | .LAYER_OPQ_SIZE | .HD_COMP_RING
  | .HD_BGCOLOR => true
  | _ => false

/-- The pending set of a head; `p` chooses the slots. -/
def Core.pendingSet (c : Core) (h : Nat) (p : Reg → Bool) : List (Reg × W32) :=
  c.regs.filter (fun x => composed x.1.fam && x.1.i = h && p x.1)

/-- The live LAYER contract of a slot. -/
def Core.layerCon (c : Core) (h s : Nat) : Option Contract :=
  (c.adm.live.filter (fun x => x.kind = kLAYER && x.unit = h && x.f 4 15 8 = s)).getLast?

/-- The LAYER contract in force at a head's slot since its last head tick (R51). -/
def Core.layerNow (c : Core) (h s : Nat) : Option Contract := kget none (kget ({} : Head) c.heads h).lays s

/-- Horizontal and vertical sub-sampling of a format (R212). -/
def subH (fmt : Nat) : Bool := (fmt ≤ 7) || fmt = 0x18 || fmt = 0x19
def subV (fmt : Nat) : Bool := fmt ≤ 3

/-- A signed 14-bit coordinate of LAYER_DST_POS. -/
def sx14 (n : Nat) : Int := if n < 8192 then (n : Int) else (n : Int) - 16384

/-- The envelope of R210 for a block whose register `r` would read `v`: the conditions that this register enters, so that a write answers
for what it carries and not for what another register already holds (R42). The ratio tests need sizes that are not zero. -/
def Core.envelopeOk (c : Core) (h s : Nat) (r : Reg) (v : W32) : Bool :=
  match c.layerCon h s with
  | none => true
  | some x =>
    let at_ (f : Fam) : W32 := if r.fam = f then v else c.rd (rg2 f h s)
    let pos := at_ .LAYER_CROP_POS
    let cw := fld (at_ .LAYER_CROP_SIZE) 13 0
    let ch := fld (at_ .LAYER_CROP_SIZE) 29 16
    let dw := fld (at_ .LAYER_DST_SIZE) 13 0
    let dh := fld (at_ .LAYER_DST_SIZE) 29 16
    let ws := x.f 5 31 16
    let hs := x.f 5 15 0
    let wd := x.f 6 31 16
    let hd := x.f 6 15 0
    let fmt := x.f 4 7 0
    let even (n : Nat) : Bool := n % 2 = 0
    let ratios := (dh = 0 || ch = 0 || decide (ch * hd ≤ dh * max hd hs)) && (dw = 0 || cw = 0 || decide (cw * wd ≤ dw * max wd ws))
    match r.fam with
    | .LAYER_CROP_SIZE => decide (cw ≤ ws) && decide (ch ≤ hs) && ratios && (!subH fmt || even cw) && (!subV fmt || even ch)
    | .LAYER_DST_SIZE => decide (dw ≤ wd) && decide (dh ≤ hd) && ratios
    | .LAYER_CROP_POS => (!subH fmt || even (fld pos 12 0)) && (!subV fmt || even (fld pos 28 16))
    | _ => true

/-- Journal entry of a discarded write (R42, R210, R233). -/
def Core.discarded (c : Core) (ag : Agent) (a : Nat) (v : W32) : Core :=
  c.faultFrom (c.origin ag) (w32 a) 0x11 v.toNat

/-- A write to a layer block (R204, R209, R210, R223): the pending set changes, or the write is discarded; an accepted write of
a protected block's LAYER_CTRL arms it. -/
def Core.layerWrite (c : Core) (ag : Agent) (r : Reg) (v : W32) : Core :=
  if !c.envelopeOk r.i r.j r v then c.discarded ag r.addr v
  else
    let c := c.set r ((c.rd r &&& ~~~(w32 r.fam.info.rw)) ||| (v &&& w32 r.fam.info.rw))
    if r.fam = .LAYER_CTRL ∧ 30 ≤ r.j then
      let x := c.head r.i
      c.setHead r.i { x with armed := (x.armed.filter (fun y => y.1.j != r.j)) ++ c.pendingSet r.i (fun q => q.j = r.j)
                             arming := r.j :: x.arming.filter (fun j => j != r.j) }
    else c

/-! ### Views of the layers in a frame -/

/-- The destination rectangle of a view meets lines `a` to `b`, and the columns it has on screen of `w`. -/
def LayView.meets (v : LayView) (a b w : Nat) : Bool :=
  decide (0 < v.w ∧ 0 < v.h ∧ v.x < (w : Int) ∧ 0 < v.x + v.w ∧ v.y < (b : Int) ∧ (a : Int) < v.y + v.h)
def LayView.covers (v : LayView) (x y : Nat) : Bool :=
  decide (v.x ≤ (x : Int) ∧ (x : Int) < v.x + v.w ∧ v.y ≤ (y : Int) ∧ (y : Int) < v.y + v.h)
/-- The opaque rectangle, relative to the destination, clipped to it. -/
def LayView.inOpq (v : LayView) (x y : Nat) : Bool :=
  v.covers x y && decide (v.x + v.ox ≤ (x : Int) ∧ (x : Int) < v.x + v.ox + v.ow ∧ v.y + v.oy ≤ (y : Int) ∧ (y : Int) < v.y + v.oy + v.oh)
/-- The layer occludes what lies below it at a pixel (R218). -/
def LayView.occludes (v : LayView) (x y : Nat) : Bool :=
  if v.mode = 0 then v.covers x y else v.galpha = 255 && v.inOpq x y
/-- The rectangle over which it occludes. -/
def LayView.occRect (v : LayView) : Option (Int × Int × Nat × Nat) :=
  if v.mode = 0 then some (v.x, v.y, v.w, v.h)
  else if v.galpha = 255 ∧ v.ow ≠ 0 ∧ v.oh ≠ 0 then some (v.x + v.ox, v.y + v.oy, min v.ow (v.w - v.ox), min v.oh (v.h - v.oy)) else none

/-! ### Visible spans (R219) -/

abbrev Span := Int × Int

/-- A span without the columns of another. -/
def cutSpan (c : Span) : List Span → List Span
  | [] => []
  | s :: ss =>
    let l : List Span := if s.1 < min s.2 c.1 then [(s.1, min s.2 c.1)] else []
    let r : List Span := if max s.1 c.2 < s.2 then [(max s.1 c.2, s.2)] else []
    (if c.1 < s.2 ∧ s.1 < c.2 then l ++ r else [s]) ++ cutSpan c ss

/-- The columns that occluders of higher slots cover on every line of `[a, b)` on which the layer is on screen: the columns each
single line leaves are joined (R219). -/
def lineSpans (v : LayView) (above : List LayView) (w y : Nat) : List Span :=
  above.foldl (fun l o => match o.occRect with
    | some (ox, oy, ow, oh) => if decide (oy ≤ (y : Int) ∧ (y : Int) < oy + oh) then cutSpan (ox, ox + ow) l else l
    | none => l) [(max 0 v.x, min (w : Int) (v.x + v.w))]

/-- Spans joined: sorted by start, overlapping or touching ones merged. -/
def insSpan (s : Span) : List Span → List Span
  | [] => [s]
  | t :: ts =>
    if s.2 < t.1 then s :: t :: ts
    else if t.2 < s.1 then t :: insSpan s ts
    else insSpan (min s.1 t.1, max s.2 t.2) ts

/-- The two spans with the smallest gap merged. -/
def mergeClosest (l : List Span) : List Span :=
  let gaps := (l.zip l.tail).map (fun p => p.2.1 - p.1.2)
  match gaps.min? with
  | none => l
  | some g =>
    let i := (gaps.findIdx? (fun x => x = g)).getD 0
    match l.drop i with
    | a :: b :: r => l.take i ++ (a.1, b.2) :: r
    | _ => l

def mergeTo16 : Nat → List Span → List Span
  | 0, l => l
  | k + 1, l => if l.length ≤ 16 then l else mergeTo16 k (mergeClosest l)

/-- The visible destination spans of a layer in lines `[a, b)` (R219). -/
def visibleSpans (v : LayView) (above : List LayView) (w a b : Nat) : List Span :=
  let ys := (List.range (b - a)).filter (fun i => decide (v.y ≤ ((a + i : Nat) : Int) ∧ ((a + i : Nat) : Int) < v.y + v.h))
  let l := ys.foldl (fun acc i => (lineSpans v above w (a + i)).foldl (fun acc s => if s.1 < s.2 then insSpan s acc else acc) acc) []
  mergeTo16 l.length l

/-! ### Fetches (R211, R212, R219, R220) -/

/-- A plane: offset, pitch, bytes per pixel as a ratio, and whether it has half the lines. -/
structure Plane where
  off : Nat
  pitch : Nat
  num : Nat
  den : Nat
  half : Bool
  deriving DecidableEq, Repr

/-- The planes of a format (R212); none for KTC. -/
def planesOf (fmt p0 p1 o1 o2 : Nat) : List Plane :=
  let one (n d : Nat) : List Plane := [⟨0, p0, n, d, false⟩]
  match fmt with
  | 0 => [⟨0, p0, 1, 1, false⟩, ⟨o1, p1, 1, 1, true⟩]
  | 1 => [⟨0, p0, 2, 1, false⟩, ⟨o1, p1, 2, 1, true⟩]
  | 5 => [⟨0, p0, 1, 1, false⟩, ⟨o1, p1, 1, 1, false⟩]
  | 6 => [⟨0, p0, 2, 1, false⟩, ⟨o1, p1, 2, 1, false⟩]
  | 7 => one 4 1
  | 8 => [⟨0, p0, 1, 1, false⟩, ⟨o1, p1, 1, 1, false⟩, ⟨o2, p1, 1, 1, false⟩]
  | 9 => [⟨0, p0, 2, 1, false⟩, ⟨o1, p1, 2, 1, false⟩, ⟨o2, p1, 2, 1, false⟩]
  | 0x10 | 0x11 | 0x12 => one 4 1
  | 0x13 | 0x18 => one 2 1
  | 0x19 => one 5 2
  | 0x1A => one 3 1
  | 0x1B => one 5 4
  | 0x1C => one 3 2
  | _ => []

/-- Source columns of a destination span: widened by 4 source pixels when scaled, kept in the crop (R219). -/
def srcSpan (s : Span) (x : Int) (cw dw : Nat) : Nat × Nat :=
  let a := (s.1 - x).toNat
  let b := (s.2 - x).toNat
  if cw = dw then (a, min b cw)
  else (a * cw / max 1 dw - 4, min cw (ceilDiv (b * cw) dw + 4))

/-- 64-byte bursts that columns `[a, b)` of a source line of a plane touch: the first address and the bytes. -/
def lineBursts (base : Nat) (p : Plane) (line a b : Nat) : Nat × Nat :=
  let l := base + p.off + p.pitch * (if p.half then line / 2 else line)
  let lo := (l + a * p.num / p.den) / 64 * 64
  let hi := ceilDiv (l + ceilDiv (b * p.num) p.den) 64 * 64
  (lo, hi - lo)

/-- Source lines of destination lines `[a, b)` of a layer (R220's example: consecutive strips share none). -/
def srcLines (a b ch dh : Nat) : List Nat :=
  let lo := a * ch / max 1 dh
  let hi := min ch (b * ch / max 1 dh)
  (List.range (hi - lo)).map (fun i => lo + i)

/-! ### Colour (R216, R217) -/

/-- A colour as numerators over one denominator of full scale 4095, so that nothing is rounded before the ring. -/
structure Col where
  r : Nat
  g : Nat
  b : Nat
  d : Nat
  deriving DecidableEq, Repr

/-- Bit replication of an `n`-bit component to 12 bits. -/
def rep12 (n v : Nat) : Nat :=
  match n with
  | 8 => v * 16 + v / 16
  | 10 => v * 4 + v / 256
  | 5 => v * 128 + v * 4 + v / 8
  | 6 => v * 64 + v
  | 2 => v * 1365
  | _ => v

/-- Rounded to 10 bits by full scale (log entry 40). -/
def to10 (n d : Nat) : Nat := sat 1023 ((2 * n * 1023 + d * 4095) / (2 * d * 4095))

/-- The ring word of a colour (R201). -/
def Col.word (c : Col) : W32 := w32 (to10 c.r c.d * 1048576 + to10 c.g c.d * 1024 + to10 c.b c.d)
/-- A 10-bit RGB word as a colour. -/
def colOf (v : W32) : Col := ⟨rep12 10 (fld v 29 20), rep12 10 (fld v 19 10), rep12 10 (fld v 9 0), 1⟩

/-- A source pixel: 12-bit RGB and alpha. -/
abbrev Pix := Nat × Nat × Nat × Nat

/-- The pixel of an RGB format from its bytes; none for a format whose conversion the spec does not give to the bit (R216). -/
def rgbPixel (fmt n : Nat) : Option Pix :=
  let f (hi lo : Nat) : Nat := n / 2 ^ lo % 2 ^ (hi - lo + 1)
  match fmt with
  | 0x10 => some (rep12 8 (f 23 16), rep12 8 (f 15 8), rep12 8 (f 7 0), rep12 8 (f 31 24))
  | 0x11 => some (rep12 8 (f 23 16), rep12 8 (f 15 8), rep12 8 (f 7 0), 4095)
  | 0x12 => some (rep12 10 (f 29 20), rep12 10 (f 19 10), rep12 10 (f 9 0), rep12 2 (f 31 30))
  | 0x13 => some (rep12 5 (f 15 11), rep12 6 (f 10 5), rep12 5 (f 4 0), 4095)
  | 0x1A => some (rep12 8 (f 23 16), rep12 8 (f 15 8), rep12 8 (f 7 0), 4095)
  | _ => none

/-- The blend of R217 over a lower colour. -/
def blend (mode ga : Nat) (opq : Bool) (s : Pix) (d : Col) : Col :=
  let a := (if opq then 4095 else s.2.2.2) * ga
  let k := 4095 * 255
  match mode with
  | 0 => ⟨s.1, s.2.1, s.2.2.1, 1⟩
  | 1 =>
    let f (cs cd : Nat) : Nat := cs * ga * 4095 * d.d + cd * (k - a)
    ⟨f s.1 d.r, f s.2.1 d.g, f s.2.2.1 d.b, d.d * k⟩
  | _ =>
    let f (cs cd : Nat) : Nat := cs * a * d.d + cd * (k - a)
    ⟨f s.1 d.r, f s.2.1 d.g, f s.2.2.1 d.b, d.d * k⟩

/-! ### Substitution and rind (R261 to R269) -/

/-- The stale formula of R261 on 10-bit components at (x, y). -/
def stalePix (x y r g b : Nat) : Nat × Nat × Nat :=
  let l := (218 * r + 732 * g + 74 * b + 512) / 1024
  if (x + 16 * y - y) % 16 < 2 then (384, 384, 384) else (l / 4, l / 4, l / 4)

def rgbWord (p : Nat × Nat × Nat) : W32 := w32 (p.1 % 1024 * 1048576 + p.2.1 % 1024 * 1024 + p.2.2 % 1024)

/-- The colours of R266: 1 LIVE, 2 DEGRADED, 3 STALE, 4 LOST, 5 INTERRUPTED. -/
def rindColour : Nat → Nat × Nat × Nat
  | 1 => (0, 768, 0)
  | 2 => (896, 896, 0)
  | 3 => (1023, 560, 0)
  | 4 => (960, 0, 0)
  | _ => (1023, 0, 1023)

/-- A rind pixel (R266). -/
def rindPix (st x y : Nat) (p : Bool) : W32 :=
  if decide ((x + y) % 32 < 16) != p then rgbWord (rindColour st) else 0

/-- A pixel lies in the rind of a view: within 4 pixels of a side that clipping to the active area did not create (R265). -/
def LayView.inRind (v : LayView) (w h x y : Nat) : Bool :=
  v.covers x y &&
    ((0 ≤ v.x && decide ((x : Int) < v.x + 4)) || (0 ≤ v.y && decide ((y : Int) < v.y + 4)) ||
     (decide (v.x + v.w ≤ (w : Int)) && decide (v.x + v.w - 4 ≤ (x : Int))) ||
     (decide (v.y + v.h ≤ (h : Int)) && decide (v.y + v.h - 4 ≤ (y : Int))))

/-- The label's text (R263): codes of characters; age in ns. -/
def digits (n k : Nat) : List Nat := ((List.range k).map (fun i => 48 + n / 10 ^ i % 10)).reverse
def nDigits (n : Nat) : Nat := if n < 10 then 1 else if n < 100 then 2 else if n < 1000 then 3 else 4
def labelText (state age : Nat) (replayed : Bool) : List Nat :=
  match state with
  | 3 =>
    let t := ceilDiv age 100000000
    let s := ceilDiv age 1000000000
    if t ≤ 9999 then digits (t / 10) (nDigits (t / 10)) ++ [46, 48 + t % 10, 32, 115]
    else if s ≤ 9999 then digits s 4 ++ [32, 115]
    else [62, 57, 57, 57, 57, 32, 115]
  | 4 => [76, 79, 83, 84]
  | 2 => if replayed then [82, 69, 80, 76, 65, 89] else []
  | _ => []

/-- The label box of a view covers a pixel (R263): 104 × 32 at (8, 8) of the on-screen rectangle, which is at least 120 × 48. -/
def LayView.labelAt (v : LayView) (w h x y : Nat) : Option (Nat × Nat) :=
  let x0 := max 0 v.x
  let y0 := max 0 v.y
  let x1 := min (w : Int) (v.x + v.w)
  let y1 := min (h : Int) (v.y + v.h)
  let dx := (x : Int) - x0 - 8
  let dy := (y : Int) - y0 - 8
  if v.label ≠ [] ∧ 120 ≤ x1 - x0 ∧ 48 ≤ y1 - y0 ∧ 0 ≤ dx ∧ dx < 104 ∧ 0 ≤ dy ∧ dy < 32 then some (dx.toNat, dy.toNat) else none

end Sys2Proof.Machine
end

