-- ==== Sys2Proof/Machine/Heads.lean ====
section
/-! DEFINITION. Display heads: timing, the latch instant, the composition of strips with the freshness decision, underruns
(R200 to R276). Lines, region signatures and the exported windows stand in HeadLine.lean. -/

namespace Sys2Proof.Machine

open Sys2Proof

/-! ### Timing (R231, R232) -/

/-- The live HEAD contract of a head. -/
def Core.headCon (c : Core) (h : Nat) : Option Contract := headOf c.adm.live h
/-- The head scans: HD_STATUS.scanning (R235). -/
def Core.scanning (c : Core) (h : Nat) : Bool := c.rdB (rg .HD_STATUS h) 30
/-- The line the head is on. -/
def Core.headLine (c : Core) (h : Nat) : Nat := c.rdF (rg .HD_STATUS h) 12 0

/-- `i` line times in ps under a HEAD contract. -/
def Core.linesPs (c : Core) (k : Contract) (i : Nat) : Nat :=
  let p := headPix c.fM k
  i * k.hTotal * 1000000000000 * p.2 / max 1 p.1
/-- Pixels to ns. -/
def Core.pixNs (c : Core) (k : Contract) (n : Nat) : Nat :=
  let p := headPix c.fM k
  n * 1000000000 * p.2 / max 1 p.1

/-- Strips of a frame and lines of strip `k` (R203). -/
def stripCount (k : Contract) : Nat := ceilDiv k.vActive k.hStrip
def stripEnd (x : Contract) (k : Nat) : Nat := min x.vActive ((k + 1) * x.hStrip)

/-- A direct plane is bound (R238). -/
def isDirect (k : Contract) : Bool := bit (k.w 10) 31

/-- DSC is on for the head's stream. -/
def Core.dscOn (c : Core) (h : Nat) : Bool :=
  let v := c.rd (rg2 .DPT_STREAM (h / 2) (h % 2))
  bit v 31 && bit v 30

/-- t_out of a strip, PTP ns (R253). -/
def Core.tOut (c : Core) (h : Nat) (x : Contract) (k : Nat) : Nat :=
  c.ptpOf ((c.head h).line0 + c.linesPs x (stripEnd x k) + 4000000 + (if c.dscOn h then c.linesPs x 2 else 0))

/-- The conditions of a start: contract live and HD_CTRL.en (R235); when they came to hold. -/
def Core.headCond (c : Core) (h : Nat) : Core :=
  let x := c.head h
  if c.scanning h then c
  else if (c.headCon h).isSome && c.rdB (rg .HD_CTRL h) 0 then
    (if x.bothAt.isNone then c.setHead h { x with bothAt := some c.now } else c)
  else c.setHead h { x with bothAt := none }

/-- HD_CTRL written (R235). -/
def Core.headCtrl (c : Core) (h : Nat) (v : W32) : Core := (c.set (rg .HD_CTRL h) (v &&& 1)).headCond h

/-- HD_HSYNC or HD_VSYNC written: discarded when the porch and width do not fit (R233). -/
def Core.syncWrite (c : Core) (ag : Agent) (r : Reg) (v : W32) : Core :=
  let bad : Bool := match c.headCon r.i with
    | none => false
    | some x =>
      if r.fam = .HD_HSYNC then decide (x.hTotal - x.hActive < fld v 29 16 + fld v 13 0)
      else decide (x.vTotal - x.vActive < fld v 28 16 + fld v 12 0) ||
        (x.hMode = 3 && decide (x.vTotal - x.vActive < fld v 28 16 + x.hStrip))
  if bad then c.discarded ag r.addr v else c.wr r (v &&& w32 r.fam.info.rw)

/-- HD_ADAPT_GO (R234). -/
def Core.adaptGo (c : Core) (h : Nat) (v : W32) : Core :=
  if bit v 0 && c.rdF (rg .HD_ADAPT h) 31 30 = 2 then let x := c.head h; c.setHead h { x with trig := true } else c

/-- HD_RIND_EN written: bits 29:0 by the owner, bits 31:30 by the secure world only (R276). -/
def Core.rindWrite (c : Core) (h : Nat) (t : Owner) (v : W32) : Core :=
  let m : W32 := if c.isSecure t then (if sameOwner t (c.owner 1 h) || t.world then 0xFFFFFFFF else 0xC0000000) else 0x3FFFFFFF
  c.wr (rg .HD_RIND_EN h) ((c.rd (rg .HD_RIND_EN h) &&& ~~~m) ||| (v &&& m))

/-! ### Engines (R200, R227, R228) -/

def Core.leState (c : Core) (n : Nat) : Nat := c.rdF (rg .LE_STATUS n) 1 0
def Core.setLeState (c : Core) (n st : Nat) : Core := c.setF (rg .LE_STATUS n) 1 0 st

/-- Engines that some head's group holds. -/
def Core.grouped (c : Core) (n : Nat) : Bool :=
  (List.range 16).any (fun h => (groupMask c.adm.live h).testBit n || (c.head h).group.contains n)

/-- The lowest spare of an owner: in no group, LE_CTRL.spare, not faulted (R227). -/
def Core.spareFor (c : Core) (o : Owner) : Option Nat :=
  (List.range c.counts.le).find? (fun n =>
    !c.grouped n && c.rdB (rg .LE_CTRL n) 0 && c.leState n != 2 && sameOwner o (c.owner 2 n))

/-- The group of a head shown in its registers and in the engines' (R228, R229). -/
def Core.showGroup (c : Core) (h : Nat) (g : List Nat) : Core :=
  let old := (c.head h).group
  let x := c.head h
  let c := c.setHead h { x with group := g }
  let m := g.foldl (fun m n => m + 2 ^ n) 0
  let c := c.wrPair (rg .HD_LE_GROUP_LO h) (rg .HD_LE_GROUP_HI h) m
  let c := c.setF (rg .HD_COMP_STATUS h) 13 8 g.length
  let c := old.foldl (fun c n => if g.contains n then c else c.setF (rg .LE_STATUS n) 7 2 0) c
  g.foldl (fun c n => c.setF (rg .LE_STATUS n) 7 2 (h * 4 + 2)) c

/-- A unit reset of an engine: LE_FAULT cleared, idle, out of every group (R417). -/
def Core.leReset (c : Core) (n : Nat) : Core :=
  let c := ((c.set (rg .LE_FAULT n) 0).setLeState n 0).setF (rg .LE_STATUS n) 7 2 0
  { c with leResets := kset false c.leResets n false
           heads := c.heads.map (fun y => (y.1, { y.2 with group := y.2.group.filter (fun k => k != n) })) }

/-- The resets that wait for this head's latch. -/
def Core.leResetsAt (c : Core) (h : Nat) : Core :=
  (c.leResets.filter (fun e => (c.head h).group.contains e.1 || (groupMask c.adm.live h).testBit e.1)).foldl (fun d e => d.leReset e.1) c

/-- The group at a latch: the contracts' engines, each faulted one replaced by a spare, or left out (R227). -/
def Core.regroup (c : Core) (h : Nat) : Core :=
  let c := c.leResetsAt h
  let mask := (c.head h).lays.foldl (fun m p => match p.2 with | some y => m ||| y.n64 8 | none => m) 0
  let own := c.owner 1 h
  let base := (List.range 64).filter (fun n => mask.testBit n &&
    !(List.range 16).any (fun g => g != h && (c.head g).group.contains n))
  let spares := ((c.head h).group.filter (fun n => c.leState n != 2 && c.rdB (rg .LE_CTRL n) 0 &&
    !(List.range 16).any (fun g => (groupMask c.adm.live g).testBit n))).take (base.filter (fun n => c.leState n = 2)).length
  base.foldl (fun (c : Core) n =>
    if c.leState n != 2 then c
    else
      let x := c.head h
      let short := decide ((x.group.filter (fun m => c.leState m != 2)).length < base.length)
      if !short then c
      else match c.spareFor own with
        | some m =>
          let c := c.showGroup h ((x.group.filter (fun k => k != n)) ++ [m])
          (c.setB (rg .HD_COMP_STATUS h) 1 true).fault (224 + n) m h
        | none => c) (c.showGroup h (base.filter (fun n => c.leState n != 2) ++ spares))

/-- ENGINE_FAULT: the engine stops, its band of the current strip is missing; source 224 + n follows LE_FAULT (R227). -/
def execEngineFault (n : Nat) (check : Bool) (s : State) : Host.Outcome State Fault Refusal :=
  run s (fun c =>
    if n ≥ c.counts.le then c else
    let c := ((c.setB (rg .LE_FAULT n) (if check then 1 else 0) true).addSat (rg .LE_ERR_CNT n) 15 0 1).setLeState n 2
    let c := c.fault (224 + n) (if check then 2 else 1) 0
    { c with heads := c.heads.map (fun y =>
        if y.2.group.contains n then (y.1, { y.2 with next := y.2.next.map (fun r => { r with broken := true }) }) else y) })

/-! ### The latch instant (R201, R203 to R205, R223, R264) -/

/-- The label area lies in a bank of the secure world (partition 0 on the N series) (R264). -/
def Core.labelArea (c : Core) (h : Nat) : Nat := c.rdF (rg .HD_FRESH_LABEL h) 24 14 * 16384
def Core.labelOk (c : Core) (h : Nat) : Bool :=
  let o := c.owner 8 (c.labelArea h / 0x100000)
  decide (c.labelArea h < 0x2000000) && c.isSecure o

/-- The source slots a head shows: by layer slot, the direct plane as slot 0. -/
def Core.headSources (c : Core) (h : Nat) (x : Contract) : List (Nat × Nat) :=
  let l := (List.range 32).filterMap (fun s => (c.layerNow h s).map (fun y => (s, y.f 7 15 0)))
  if isDirect x then (0, x.f 10 9 0) :: l.filter (fun p => p.1 != 0) else l

/-- A line ring: one buffer of a camera slot (R225). -/
def isRing (x : Contract) : Bool := x.f 7 3 0 = 0 && x.f 15 7 0 = 1

/-- t_change and seq_last of a layer for a stamp evaluated now (R254). -/
def freshen (r : FreshRec) (drawn : Bool) (q : W32) (now : Nat) : FreshRec :=
  if !drawn || r.seqLast != q || q == 0 || r.state = 4 then { r with seqLast := q, tChange := now } else r

/-- The record of a slot that an export took for the frame of this latch instant: a locked head at the reference head's rate
latches the same one (R387). -/
def Core.snapOf (c : Core) (h slot : Nat) : Option SrcRec :=
  match (c.head h).con with
  | none => none
  | some k => (List.range 16).findSome? (fun x =>
      let e : RglExp := kget {} c.rgl.exps x
      let ref := c.rdF (rg .RGL_EXP_CTRL x) 27 24
      let same := match (c.head ref).con with
        | some y => decide (k.hMode = 1 ∧ y.hMode = 1 ∧ k.hN = y.hN ∧ k.hD = y.hD)
        | none => false
      if c.rdB (rg .RGL_EXP_CTRL x) 30 && c.rdF (rg .RGL_EXP_CTRL x) 9 0 = slot && same && e.snap.stamp != []
        && decide (c.mono < e.snapAt + c.linesPs k (2 * k.hStrip + 1) / 1000) then some e.snap else none)

/-- The surface and stamp of one layer latched (R205, R387). -/
def Core.latchOne (c : Core) (h : Nat) (p : Nat × Nat) : Core :=
  let s := c.slot p.2
  let r := (c.snapOf h p.2).getD s.held
  let (c, good) : Core × Bool := if r.stamp = [] then (c, false) else c.recRead p.2 r
  let x := c.head h
  let was := (kget {} x.latched p.1).part
  let en := snapF c.var (if p.1 < 30 then x.act else x.protAct) (rg2 .LAYER_CTRL h p.1) 0 0 = 1
  let f : FreshRec := kget {} x.fresh p.1
  let f := if !en then ({} : FreshRec) else if good then freshen f (was && f.tChange != 0) (stampSeq r.stamp) c.ns else f
  c.setHead h { x with latched := kset {} x.latched p.1 { part := true, addr := r.addr, stamp := r.stamp, ok := good }
                       fresh := kset {} x.fresh p.1 { f with future := false, black := false, label := [] } }

/-- LATCH_INSTANT: at line V_total − S the frame's active set, surfaces and stamps are latched; strip 0 is due (R203 to R205,
R223, R227). -/
def Core.latch (c : Core) (h : Nat) (k : Contract) : Core :=
  let x := c.head h
  let ring := snapF c.var c.regs (rg .HD_COMP_RING h) 24 7 * 128
  let own := c.owner 1 h
  let bad := !isDirect k && !c.inBanks own ring (2 * k.hActive * k.hStrip * 4)
  let lab := c.rdB (rg .HD_FRESH_LABEL h) 0
  let late := k.vTotal - k.hStrip
  let delay := decide (late < k.vActive) || decide (c.linesPs k (late - k.vActive) < 1000000)
  let prot := (x.protAct.filter (fun y => !x.arming.contains y.1.j)) ++ x.armed
  let x := { x with act := c.pendingSet h (fun q => q.j < 30), protAct := prot, armed := [], arming := []
                    line0 := x.lineAt + c.linesPs k k.hStrip, ringBad := bad, labels := lab && c.labelOk h
                    latched := [], fetched := [], whey := [], due := some 0, next := none, inUse := true }
  let old := (c.head h).latched
  let c := c.setHead h x
  let c := if bad then c.setB (rg .HD_COMP_STATUS h) 0 true else c
  let c := if lab && !c.labelOk h then c.setB (rg .HD_FRESH_STATUS h) 0 true else c
  let c := c.setB (rg .HD_COMP_STATUS h) 2 delay
  let c := c.regroup h
  let srcs := c.headSources h k
  let c := srcs.foldl (fun c p =>
    let x := c.head h
    let c := c.setHead h { x with latched := kset {} x.latched p.1 (kget {} old p.1) }
    c.latchOne h p) c
  let x := c.head h
  c.setHead h { x with fresh := x.fresh.filter (fun f => srcs.any (fun p => p.1 = f.1)) }

def execLatchInstant (h : Nat) (s : State) : Host.Outcome State Fault Refusal :=
  run s (fun c => match (c.head h).con with
    | some k =>
      if c.scanning h ∧ c.headLine h = k.vTotal - k.hStrip ∧ (c.head h).line0 ≠ (c.head h).lineAt + c.linesPs k k.hStrip
      then c.latch h k else c
    | none => c)

/-! ### Views and states (R254 to R259) -/

/-- The slot is fed over Rogar (R187). -/
def Core.isRogar (c : Core) (slot : Nat) : Bool := match c.slotSrc slot with | some z => z.f 7 3 0 = 3 | none => false

/-- The enabled import of a Rogar-bound slot. -/
def Core.impOf (c : Core) (slot : Nat) : Option Nat :=
  (List.range 16).find? (fun i => c.rdB (rg .RGL_IMP_CFG i) 31 && c.rdF (rg .RGL_IMP_CFG i) 9 0 = slot)

/-- Strip `n` of a Rogar-bound slot as it came complete within the last frame (R389, R390). -/
def Core.rogarStrip (c : Core) (k : Contract) (slot n : Nat) : Option RStrip :=
  match c.impOf slot with
  | none => none
  | some i =>
    let m : RglImp := kget {} c.rgl.imps i
    match kget none m.strips n with
    | some r => if c.mono < r.at_ + c.linesPs k k.vTotal / 1000 then some r else none
    | none => none

/-- Bytes of a line of a plane, and the pitch an import gives it (R389). -/
def planeBytes (p : Plane) (w : Nat) : Nat := ceilDiv (w * p.num) p.den
def planePitch (p : Plane) (w : Nat) : Nat := ceilDiv (planeBytes p w) 64 * 64
/-- Lines of a plane for the source lines from `first` to `last`. -/
def planeLines (p : Plane) (first last : Nat) : Nat := if p.half then last / 2 + 1 - first / 2 else last + 1 - first

/-- Where each plane of an imported strip begins in its slot: 64-byte aligned, one after the other (R389). -/
def planeOffs (first last w : Nat) : Nat → List Plane → List Nat
  | _, [] => []
  | o, p :: ps => o :: planeOffs first last w (ceilDiv (o + planePitch p w * planeLines p first last) 64 * 64) ps

/-- A layer fed over Rogar takes its crop, its vertical placement and its pitches from the import (R389). -/
def Core.rogarView (c : Core) (k : Contract) (strip : Nat) (v : LayView) : LayView :=
  if !c.isRogar v.src then v else
  let m : RglImp := kget {} c.rgl.imps ((c.impOf v.src).getD 16)
  let r := c.rogarStrip k v.src strip
  let hd := match r with | some r => r.hdr | none => m.last
  if hd.hDst = 0 then v else
  let ps := planesOf v.fmt 0 0 0 0
  let pitch (j : Nat) : Nat := match ps[j]? with | some p => planePitch p hd.w | none => 0
  let offs := planeOffs hd.first hd.last hd.w 0 ps
  let rel (j : Nat) : Nat := match ps[j]? with
    | some p => offs.getD j 0 + pitch 0 * hd.first - pitch j * (if p.half then hd.first / 2 else hd.first)
    | none => 0
  { v with y := hd.yDst, h := hd.hDst, cx := 0, cy := 0, cw := hd.w, ch := hd.h, p0 := pitch 0, p1 := pitch 1, o1 := rel 1, o2 := rel 2,
           addr := (match r with | some r => r.base | none => 0) - pitch 0 * hd.first }

/-- A layer of the frame as its active set and contract give it; none when it is not drawn. -/
def Core.mkView (c : Core) (h : Nat) (k : Contract) (strip s : Nat) : Option LayView :=
  let x := c.head h
  let l := kget {} x.latched s
  let a := if s < 30 then x.act else x.protAct
  let f (r : Fam) (hi lo : Nat) : Nat := snapF c.var a (rg2 r h s) hi lo
  if !l.part || f .LAYER_CTRL 0 0 = 0 then none
  else if isDirect k && s = 0 then
    some { slot := 0, x := 0, y := 0, w := k.hActive, h := k.vActive, mode := 0, galpha := 255, ox := 0, oy := 0, ow := 0, oh := 0
           state := 0, src := k.f 10 9 0, addr := l.addr, p0 := f .LAYER_PITCH0 19 0, p1 := f .LAYER_PITCH1 19 0
           o1 := f .LAYER_PLANE1 31 0, o2 := f .LAYER_PLANE2 31 0, fmt := k.f 10 23 16, cw := k.hActive, ch := k.vActive
           full := f .LAYER_CSC 2 2 = 1 }
  else match c.layerNow h s with
    | none => none
    | some y =>
      let sl := c.slot (y.f 7 15 0)
      let ring := match c.slotSrc (y.f 7 15 0) with | some z => isRing z | none => false
      let p := pitchOf sl.lineLen
      let prot := decide (30 ≤ s)
      some <| c.rogarView k strip
           { slot := s, x := sx14 (f .LAYER_DST_POS 13 0), y := sx14 (f .LAYER_DST_POS 29 16), w := f .LAYER_DST_SIZE 13 0,
             h := f .LAYER_DST_SIZE 29 16, mode := f .LAYER_BLEND 9 8, galpha := f .LAYER_BLEND 7 0,
             ox := f .LAYER_OPQ_POS 12 0, oy := f .LAYER_OPQ_POS 28 16, ow := f .LAYER_OPQ_SIZE 13 0, oh := f .LAYER_OPQ_SIZE 29 16,
             state := 0, src := y.f 7 15 0, addr := if ring then sl.cur.addr else l.addr,
             p0 := if ring then p else f .LAYER_PITCH0 19 0, p1 := f .LAYER_PITCH1 19 0, o1 := f .LAYER_PLANE1 31 0,
             o2 := f .LAYER_PLANE2 31 0, fmt := y.f 4 7 0, cx := f .LAYER_CROP_POS 12 0, cy := f .LAYER_CROP_POS 28 16,
             cw := f .LAYER_CROP_SIZE 13 0, ch := f .LAYER_CROP_SIZE 29 16, mh := !prot && f .LAYER_CTRL 6 6 = 1,
             mv := !prot && f .LAYER_CTRL 7 7 = 1, full := f .LAYER_CSC 2 2 = 1,
             lockR := if ring then (match c.slotSrc (y.f 7 15 0) with | some z => ringLines (z.n 14) p | none => 0) else 0,
             lockRows := if sl.tooSmall then 0 else sl.rows }

/-- The address ranges a view fetches in lines `[a, b)` over the given destination spans (R219); of a KTC surface the burst its header
area begins with, the rest depending on the surface's width, which no register or contract of the layer gives (R213; log entry 230). -/
def LayView.fetches (v : LayView) (spans : List Span) (a b : Nat) : List (Nat × Nat) :=
  if decide (2 ≤ v.fmt ∧ v.fmt ≤ 4) then (if spans.isEmpty then [] else [(v.addr / 64 * 64, 64)]) else
  let ya := ((a : Int) - v.y).toNat
  let yb := min v.h ((b : Int) - v.y).toNat
  let lines := srcLines ya yb v.ch v.h
  (planesOf v.fmt v.p0 v.p1 v.o1 v.o2).flatMap (fun p =>
    lines.flatMap (fun l =>
      let y0 := v.cy + (if v.mv then v.ch - 1 - l else l)
      let y := if v.lockR = 0 then y0 else y0 % v.lockR
      if (p.half && l % 2 = 1) || (v.lockR != 0 && decide (v.lockRows ≤ y0)) then []
      else spans.map (fun s =>
        let q := srcSpan s v.x v.cw v.w
        let (i, j) : Nat × Nat := if v.mh then (v.cw - q.2, v.cw - q.1) else q
        lineBursts v.addr p y (v.cx + i) (v.cx + j))))

def sumBytes (l : List (Nat × Nat)) : Nat := (l.map (fun p => p.2)).sum

/-- Who fetches for a head (R133, R141, R202, R222, R240): the head itself for protected layers, under the secure world's tag; its engines,
on the port of the first of the group (log entry 210); the head on port h for a direct plane. -/
def Core.headClient (c : Core) (h : Nat) : Client := { tag := { c.owner 1 h with granted := true }, cls := 2, no := h, port := h, ss := 0 }
def Core.protClient (c : Core) (h : Nat) : Client := { tag := { granted := true, world := c.secure }, cls := 2, no := h, port := h, ss := 0 }
def Core.leClient (c : Core) (h : Nat) : Client :=
  { tag := { c.owner 1 h with granted := true }, cls := 2, no := h, port := 16 + ((c.head h).group.head?.getD 0) / 16, ss := 1 }

/-- Ranges fetched: whether one is refused or returns poisoned data (R211). -/
def Core.fetchAll (c : Core) (u : Client) (l : List (Nat × Nat)) : Core × Bool :=
  l.foldl (fun (r : Core × Bool) p =>
    let y := r.1.unitRead u p.1 p.2
    (y.1, r.2 || y.2.2 != 0)) (c, false)

/-- The owner of a source slot or of a head is being reset or stopped (R256). -/
def Core.ownerStopped (c : Core) (win : Nat) : Bool :=
  win != 64 && (let s := c.rdF (rg .PART_STATE win) 31 28; s = 1 || s = 3)

/-- The stamp a layer is judged by: latched, the current record of a line ring, or the one a Rogar strip brought (R254, R274). -/
def Core.judgedStamp (c : Core) (h : Nat) (k : Contract) (strip : Nat) (v : LayView) : List W32 × Bool :=
  if c.isRogar v.src then match c.rogarStrip k v.src strip with
    | some r => (r.hdr.stamp, true)
    | none => ([], false)
  else if v.lockR ≠ 0 || (match c.slotSrc v.src with | some z => isRing z | none => false) then
    let r := (c.slot v.src).cur
    (r.stamp, stampOk r.stamp)
  else let l := kget {} (c.head h).latched v.slot; (l.stamp, l.ok)

/-- The causes of LOST that hold at a strip's start (R256). -/
def Core.lostCause (c : Core) (h : Nat) (v : LayView) (good : Bool) : Bool :=
  let st := c.slotState v.src
  let own := match c.slotSrc v.src with | some z => c.ownerStopped z.sub | none => true
  st != 2 || own || c.ownerStopped (winOf (c.owner 1 h)) || !good ||
    (decide (30 ≤ v.slot) && decide (0x2000000 < v.addr + v.p0 * v.h))

/-- The decision of R255 on a layer that is not LOST: state, frozen, age in ns, future. -/
def judgeFresh (st : List W32) (t tChange : Nat) (degraded : Bool) : Nat × Bool × Nat × Bool :=
  let future := decide (t + 1000000 < stampCapture st)
  let age := t - stampCapture st
  let frozen := decide (stampFreeze st * stampPeriod st * 1000 < t - tChange)
  if stampAge st * 1000 < age ∨ frozen then (3, frozen, age, future)
  else if degraded || future then (2, false, age, future)
  else (1, false, age, future)

/-- The other causes of DEGRADED (R257). -/
def Core.degradedCause (c : Core) (v : LayView) (st : List W32) (black : Bool) : Bool :=
  let fl := stampFlags st
  let cur := (c.slot v.src).cur
  let intake := match c.slotSrc v.src with | some z => z.f 7 3 0 | none => 0
  let tk := c.rdF (rg0 .TKG_STATUS) 1 0
  fl / 8 % 2 = 1 || fl / 4 % 2 = 1 || (cur != (c.slot v.src).held && stampFlags cur.stamp % 2 = 1) || black ||
    ((intake = 1 || intake = 3) && decide (tk < 2))

/-- A layer's state recorded: HD_FRESH_STATE, HD_FRESH_AGE, entry counts and the stale event (R258, R259, R275). -/
def Core.freshRecord (c : Core) (h s state : Nat) (frozen : Bool) (age : Nat) (future : Bool) : Core :=
  let x := c.head h
  let f : FreshRec := kget {} x.fresh s
  let r := rg2 .HD_FRESH_STATE h (s / 8)
  let j := s % 8 * 4
  let c := c.wr r (setFld (setBit (c.rd r) (j + 3) (state = 3 && frozen)) (j + 2) j state)
  let c := c.wr (rg2 .HD_FRESH_AGE h s) (w32 (if state = 4 then 0 else sat 0xFFFFFFFF (age / 1000)))
  let c := if future && !f.future then
      (c.addSat (rg .HD_FUTURE_CNT h) 15 0 1).setB (rg .HD_FRESH_STATUS h) 2 true else c
  let c := if state ≥ 3 && f.state != state then
      ((c.addSat (rg (if state = 3 then .HD_STALE_CNT else .HD_LOST_CNT) h) 15 0 1).setB (rg .HD_EVT h) 4 true).faultOnce
        (2 ^ 84 + h) blockOrigin (w32 (96 + 8 * h + 4)) (w32 state) (w32 (2 ^ (s % 32)))
    else c
  let x := c.head h
  c.setHead h { x with fresh := kset {} x.fresh s { f with state := state, future := f.future || future } }

/-- One layer judged at the start of a strip, its fetches counted and checked (R211, R220, R225, R255, R262). -/
def Core.judgeLayer (c : Core) (h : Nat) (k : Contract) (above : List LayView) (v : LayView) (strip a b : Nat) : Core × LayView :=
  let t := c.tOut h k strip
  let js := c.judgedStamp h k strip v
  let lock := match c.slotSrc v.src with | some z => isRing z | none => false
  let x := c.head h
  let f : FreshRec := kget {} x.fresh v.slot
  let f : FreshRec := if lock && js.2 then freshen f (f.tChange != 0) (stampSeq js.1) c.ns else f
  let rows := srcLines ((a : Int) - v.y).toNat (min v.h ((b : Int) - v.y).toNat) v.ch v.h
  let black := f.black || (lock && rows.any (fun l => decide (v.lockRows ≤ v.cy + (if v.mv then v.ch - 1 - l else l))))
  let c := c.setHead h { x with fresh := kset {} x.fresh v.slot { f with black := black } }
  let c := if js.1 ≠ [] ∧ !js.2 then (c.recRead v.src { stamp := js.1 }).1 else c
  let prot := decide (30 ≤ v.slot)
  let spans := visibleSpans v (if isDirect k && v.slot = 0 then [] else above) k.hActive a b
  let full := v.fetches [(max 0 v.x, min (k.hActive : Int) (v.x + v.w))] a b
  let part := v.fetches spans a b
  let lost := c.lostCause h v js.2
  let ya := ((a : Int) - v.y).toNat
  let r : Core × Bool := if lost then (c, false)
    else if prot then c.fetchAll (c.protClient h) [(v.addr + v.p0 * ya, v.p0 * (min v.h ((b : Int) - v.y).toNat - ya))]
    else c.fetchAll (if isDirect k && v.slot = 0 then c.headClient h else c.leClient h) part
  let c := r.1
  let lost := lost || r.2
  let tch := if c.isRogar v.src then (match c.rogarStrip k v.src strip with | some r => r.hdr.tChange | none => 0) else f.tChange
  let d := if lost then (4, false, 0, false) else judgeFresh js.1 t tch (c.degradedCause v js.1 black)
  let c := c.freshRecord h v.slot d.1 d.2.1 d.2.2.1 d.2.2.2
  let x := c.head h
  let ktc := decide (2 ≤ v.fmt ∧ v.fmt ≤ 4)
  let (fetched, whey) : Nat × Nat := if lost || prot then (0, 0)
    else if ktc then ((Config.freeWord c.free).toNat % 4294967296, (Config.freeWord (c.free + 1)).toNat % 4294967296)
    else (sumBytes part, sumBytes full - sumBytes part)
  let lab := labelText d.1 d.2.2.1 (stampFlags js.1 / 4 % 2 = 1)
  let f : FreshRec := kget {} x.fresh v.slot
  let first := decide ((max 0 v.y) + 8 < (b : Int)) && decide ((a : Int) ≤ (max 0 v.y) + 8)
  let f := if first then { f with label := lab } else f
  let c := c.setHead h { x with fetched := kset 0 x.fetched v.slot (kget 0 x.fetched v.slot + fetched)
                                whey := kset 0 x.whey v.slot (kget 0 x.whey v.slot + whey)
                                fresh := kset {} x.fresh v.slot f }
  ({ c with free := if ktc then c.free + 2 else c.free }, { v with state := d.1, label := if prot then [] else f.label })

/-! ### Pixels -/

/-- The source pixel of a view at a head pixel: exact for RGB formats and full-range RAW shown 1:1, a free value where the spec
gives no result to the bit (log entry 41). -/
def Core.viewPixel (c : Core) (v : LayView) (x y salt : Nat) : Pix :=
  let i := ((x : Int) - v.x).toNat
  let j := ((y : Int) - v.y).toNat
  let sx := v.cx + (if v.mh then v.cw - 1 - i else i)
  let sy := v.cy + (if v.mv then v.ch - 1 - j else j)
  let line := if v.lockR = 0 then sy else sy % v.lockR
  let w := Config.freeWord (c.free + salt)
  let free : Pix := (w.toNat % 4096, w.toNat / 4096 % 4096, w.toNat / 16777216 % 4096, 4095)
  let srcLine := v.cy + (if v.mv then v.ch - 1 - j * v.ch / max 1 v.h else j * v.ch / max 1 v.h)
  if v.lockR ≠ 0 ∧ v.lockRows ≤ srcLine then (0, 0, 0, 4095)
  else if v.cw ≠ v.w ∨ v.ch ≠ v.h then free
  else
    let at_ (n d k : Nat) : Nat := c.load (v.addr + v.p0 * line + sx / d * n) k
    match v.fmt with
    | 0x10 | 0x11 | 0x12 => (rgbPixel v.fmt (at_ 4 1 4)).getD free
    | 0x13 => (rgbPixel v.fmt (at_ 2 1 2)).getD free
    | 0x1A => (rgbPixel v.fmt (at_ 3 1 3)).getD free
    | 0x1B =>
      if v.full then
        let g := at_ 5 4 5
        let l := rep12 10 (g / 256 ^ (sx % 4) % 256 * 4 + g / 2 ^ (32 + 2 * (sx % 4)) % 4)
        (l, l, l, 4095)
      else free
    | 0x1C =>
      if v.full then
        let g := at_ 3 2 3
        let l := rep12 10 (g / 256 ^ (sx % 2) % 256 * 4 + g / 2 ^ (16 + 4 * (sx % 2)) % 16 / 4)
        (l, l, l, 4095)
      else free
    | _ => free

/-- The pixel the engines compose: HD_BGCOLOR under the drawn layers of slots 0 to 29, lowest first (R206, R217). -/
def Core.composePixel (c : Core) (bg : W32) (vs : List LayView) (w x y : Nat) : W32 :=
  (vs.foldl (fun (p : Col) v =>
    if v.slot < 30 && v.state != 4 && v.covers x y then
      blend v.mode v.galpha (v.inOpq x y) (c.viewPixel v x y ((y * w + x) * 32 + v.slot)) p
    else p) (colOf bg)).word

/-- A line of the strip ring: base, slot k mod 2, line within the strip (R201). -/
def ringLineAddr (base : Nat) (x : Contract) (y : Nat) : Nat :=
  base + y / x.hStrip % 2 * (x.hActive * x.hStrip * 4) + y % x.hStrip * x.hActive * 4

/-- The composed strip stored in its ring slot. -/
def Core.composeStrip (c : Core) (h : Nat) (x : Contract) (vs : List LayView) (a b : Nat) : Core :=
  let act := (c.head h).act
  let base := snapF c.var act (rg .HD_COMP_RING h) 24 7 * 128
  let bg := snapRd c.var act (rg .HD_BGCOLOR h)
  let d := (List.range (b - a)).foldl (fun (d : Core) i =>
    (d.unitWrite (c.leClient h) (ringLineAddr base x (a + i))
      ((List.range x.hActive).flatMap (fun p => leBytes 4 (c.composePixel bg vs x.hActive p (a + i)).toNat))).1) c
  { d with free := c.free + 32 * x.hActive * b }

/-- The label masks of the strip rendered into the label area, 512 bytes a slot; their glyphs are free values (R263, R264; log
entry 42). -/
def Core.renderLabels (c : Core) (h : Nat) (vs : List LayView) (a b : Nat) : Core :=
  if !(c.head h).labels then c else
  vs.foldl (fun c v =>
    let top := (max 0 v.y) + 8
    if v.label ≠ [] ∧ (a : Int) ≤ top ∧ top < (b : Int) then
      let c := (c.unitWrite (c.protClient h) (c.labelArea h + 512 * v.slot)
        ((List.range 416).map (fun i => BitVec.ofNat 8 (Config.freeWord (c.free + i)).toNat))).1
      { c with free := c.free + 416 }
    else c) c

/-- The frame's last strip composed: LAYER_FETCH, LAYER_WHEY and the totals (R220). -/
def Core.fetchTotals (c : Core) (h : Nat) : Core :=
  let x := c.head h
  let c := (List.range 30).foldl (fun c s =>
    (c.wr (rg2 .LAYER_FETCH h s) (w32 (sat 0xFFFFFFFF (kget 0 x.fetched s)))).wr (rg2 .LAYER_WHEY h s)
      (w32 (sat 0xFFFFFFFF (kget 0 x.whey s)))) c
  let tf := (x.fetched.map (fun p => p.2)).sum
  let tw := (x.whey.map (fun p => p.2)).sum
  let c := c.wrPair (rg .HD_FETCH_TOTAL_LO h) (rg .HD_FETCH_TOTAL_HI h) ((c.rdPair (rg .HD_FETCH_TOTAL_LO h) (rg .HD_FETCH_TOTAL_HI h) + tf) % 2 ^ 64)
  let c := c.wrPair (rg .HD_WHEY_TOTAL_LO h) (rg .HD_WHEY_TOTAL_HI h) ((c.rdPair (rg .HD_WHEY_TOTAL_LO h) (rg .HD_WHEY_TOTAL_HI h) + tw) % 2 ^ 64)
  c.setHead h { x with inUse := false }

/-- Views judged from the lowest slot up, each with the views above it. -/
def Core.judgeAll (c : Core) (h : Nat) (k : Contract) (all : List LayView) (strip a b : Nat) : Core × List LayView :=
  all.foldl (fun (r : Core × List LayView) v =>
    if v.meets a b k.hActive then
      let q := r.1.judgeLayer h k (all.filter (fun o => decide (v.slot < o.slot))) v strip a b
      (q.1, r.2 ++ [q.2])
    else r) (c, [])

/-- The composition of a strip begins (R203, R207, R255): every layer that meets it is judged, the strip composed into the ring.
A direct plane's lines are judged with no composition (R239). -/
def Core.composeStart (c : Core) (h : Nat) (k : Contract) (strip : Nat) : Core :=
  let a := strip * k.hStrip
  let b := stripEnd k strip
  let all := (List.range 32).filterMap (c.mkView h k strip)
  let r := c.judgeAll h k all strip a b
  let c := r.1
  let x := c.head h
  let c := c.setHead h { x with due := none, next := some { k := strip, lines := b - a, views := r.2, begun := c.now, labels := x.labels } }
  let c := c.renderLabels h r.2 a b
  let c := if isDirect k || x.ringBad then c else c.composeStrip h k r.2 a b
  let c := x.group.foldl (fun c n => if c.leState n = 2 then c else c.setLeState n 1) c
  if strip + 1 = stripCount k then c.fetchTotals h else c

/-- STRIP_COMPOSITION_START: of the strip that is due (R203, R255). -/
def execStripCompositionStart (h strip : Nat) (s : State) : Host.Outcome State Fault Refusal :=
  run s (fun c => match (c.head h).con with
    | some k => if c.scanning h ∧ (c.head h).due = some strip ∧ strip < stripCount k then c.composeStart h k strip else c
    | none => c)

/-! ### Line numbers and times -/

/-- Registers in force since the last vertical-blanking start: 0 HSYNC, 1 VSYNC, 2 OUT, 3 QUIET, 4 LINE_MATCH. -/
def Head.inForce (x : Head) (i : Nat) : W32 := x.sync.getD i 0
/-- Line at which the minimum front porch ends (R234). -/
def fpEnd (k : Contract) (x : Head) : Nat := k.vActive + fld (x.inForce 1) 28 16
/-- The most lines a frame may have at f_min (R234). -/
def Core.maxLines (c : Core) (k : Contract) : Nat :=
  let p := headPix c.fM k
  p.1 * 1000 / max 1 (p.2 * k.hTotal * k.n 8)

/-- The line that follows: its number, the extension lines so far, and whether it is one (R234). -/
def Core.nextLine (c : Core) (h : Nat) (k : Contract) : Nat × Nat × Bool :=
  let x := c.head h
  let cur := c.headLine h
  let wasExt := c.rdB (rg .HD_STATUS h) 28
  let e := fpEnd k x
  let cand := if wasExt then e else if cur + 1 = k.vTotal then 0 else cur + 1
  if k.hMode = 3 ∧ cand = e ∧ !x.trig ∧ k.vTotal + x.ext + 1 ≤ c.maxLines k then (e, x.ext + 1, true) else (cand, x.ext, false)

/-- Lines from the vertical-blanking start to the start of a line. -/
def sinceBlank (k : Contract) (line ext : Nat) (isExt : Bool) : Nat :=
  if line < k.vActive then k.vTotal - k.vActive + ext + line else line - k.vActive + ext - (if isExt then 1 else 0)

/-! ### Scan-out and underrun (R203, R242, R243) -/

/-- The underrun of a frame at a line (R243); a second cause adds nothing. -/
def Core.underrun (c : Core) (h line : Nat) : Core :=
  let x := c.head h
  if x.under.isSome then c else
  let c := c.setHead h { x with under := some line, due := none, next := none, inUse := false }
  let c := x.group.foldl (fun c n => if c.leState n = 1 then c.setLeState n 0 else c) c
  let c := (c.setB (rg .HD_EVT h) 3 true).addSat (rg .HD_UNDERRUN h) 15 0 1
  let c := c.wr (rg .HD_UNDERRUN_INFO h) (w32 (c.rdN (rg .HD_FRAME h) % 65536 * 65536 + line % 8192))
  let c := c.setB (rg .HD_STATUS h) 26 true
  c.fault (96 + 8 * h + 3) (c.rdN (rg .HD_FRAME h)) line

/-- The clocks of the strip just composed: free values up to the head's strip load divided among its engines (R206, R228). -/
def Core.leClocks (c : Core) (h : Nat) (g : List Nat) : Core :=
  let most := ceilDiv (leLoad (c.adm.live.map (fun y => (y, none))) h) (max 1 g.length)
  g.foldl (fun c n =>
    let v := w32 ((Config.freeWord c.free).toNat % (most + 1))
    let c := ((c.tick.wr (rg .LE_LASTCYC n) v))
    let c := if (c.rd (rg .LE_PEAKCYC n)).toNat < v.toNat then c.wr (rg .LE_PEAKCYC n) v else c
    if c.leState n = 1 then c.setLeState n 0 else c) c

/-- STRIP_SCANOUT_START: the first line of strip `strip` is about to begin; complete, the strip is scanned and the next one's
composition is due; not composed, with a band missing, or not `complete`, it is an underrun (R203, R242). HEAD_LINE_START of that
line follows. -/
def execStripScanoutStart (h strip : Nat) (complete : Bool) (s : State) : Host.Outcome State Fault Refusal :=
  run s (fun c => match (c.head h).con with
    | some k =>
      let x := c.head h
      let q := c.nextLine h k
      if !c.scanning h ∨ q.1 ≠ strip * k.hStrip ∨ q.2.2 ∨ strip ≥ stripCount k ∨ x.under.isSome ∨ (x.unlatched ∧ x.line0 = 0) then c
      else
        let c := c.upTo (x.blankAt + c.linesPs k (sinceBlank k q.1 x.ext false))
        match x.next with
        | some r =>
          if complete && r.k = strip && !r.broken && !x.ringBad then
            let c := c.leClocks h x.group
            let x := c.head h
            c.setHead h { x with scan := some r, next := none, due := if strip + 1 < stripCount k then some (strip + 1) else none }
          else c.underrun h q.1
        | none => c.underrun h q.1
    | none => c)

end Sys2Proof.Machine
end

