-- ==== Sys2Proof/Machine/Wit.lean ====
section
/-! DEFINITION. The witness recorder (R291 to R294): records, segments, sealing, the staging ring. -/

namespace Sys2Proof.Machine

open Sys2Proof

/-! ### Records -/

/-- A record as the body holds it: header, payload padded to 8 bytes (R292). -/
def WRec.bytes (r : WRec) : List Byte :=
  leBytes 1 r.kind ++ leBytes 1 r.stream ++ leBytes 2 r.flags ++ leBytes 4 r.payload.length ++ leBytes 8 r.time ++ r.payload
    ++ List.replicate ((8 - r.payload.length % 8) % 8) 0

/-- The witness records: WIT_CTRL.en, on a part that has encoders, since one without records no witness of its own (R8). -/
def Core.witOn (c : Core) : Bool := decide (0 < c.counts.vee) && c.rdB (rg0 .WIT_CTRL) 31

/-- The namespace of a submitter's streams: its own for partitions 1 to 63, else the device witness. -/
def nsOf (win : Nat) : Nat := if win < 64 then win else 0

/-- A record waiting for the staging ring. -/
def Core.witPut (c : Core) (ns : Nat) (r : WRec) : Core :=
  if c.witOn then { c with wit := { c.wit with queue := c.wit.queue ++ [(ns, r)] } } else c

/-- A record of its own data made now. -/
def Core.witNow (c : Core) (ns kind stream flags : Nat) (payload : List Byte) : Core :=
  c.witPut ns { kind := kind, stream := stream, flags := flags, time := c.ns, payload := payload }

/-! ### The staging ring (R293) -/

/-- Bytes a segment adds to its body: header, tag, signature. -/
def segExtra : Nat := 368

/-- Bytes held in the staging ring: open, closed and offered segments, and those the cave has not committed (R303). -/
def Core.staged (c : Core) : Nat :=
  (c.wit.segs.map (fun s => s.2.body.length + segExtra)).sum + (c.wit.closed.map (fun s => s.body.length + segExtra)).sum
    + (c.wit.offered.map (fun s => s.bytes.length)).sum
    + ((c.cave.segs.filter (fun s => !s.done && decide (s.ns < 64))).map (fun s => s.len)).sum

def Core.stageSize (c : Core) : Nat := c.rdF (rg0 .WIT_STAGE_SIZE) 11 0 * 1048576

/-- WIT_STATUS. -/
def Core.witShow (c : Core) : Core :=
  let full := c.wit.gaps.any (fun g => g.2.open_)
  let fill := sat 255 (if c.stageSize = 0 then 0 else c.staged * 256 / c.stageSize)
  let key := kget 0 c.wit.keys (c.rdF (rg0 .WIT_CTRL) 1 0) = 0
  let v := setFld (setBit (setBit (setBit (c.rd (rg0 .WIT_STATUS)) 31 c.witOn) 30 full) 29 (c.witOn && key)) 7 0 fill
  c.wr (rg0 .WIT_STATUS) v

/-- A record laid into the open segment of a namespace, opening one when there is none. -/
def Core.segAppend (c : Core) (ns : Nat) (r : WRec) : Core :=
  let w := c.wit
  let g : WSeg := match w.segs.find? (fun p => p.1 = ns) with
    | some p => p.2
    | none => { ns := ns, tStart := c.ns, key := c.rdF (rg0 .WIT_CTRL) 1 0 }
  let g := { g with records := g.records + 1, body := g.body ++ r.bytes }
  { c with wit := { w with segs := kset { ns := 99 } w.segs ns g } }

/-- A gap record (type 0x05): start, end and the record types lost, bit k type k. -/
def gapRec (g : WGap) : WRec :=
  { kind := 5, stream := 0, flags := 0, time := g.t0, payload := leBytes 8 g.t0 ++ leBytes 8 g.t1 ++ leBytes 8 g.kinds }

/-- WITNESS_RECORD's effect: a record enters the staging ring, or is dropped, counted and covered by one gap record (R293). -/
def Core.witAdd (c : Core) (ns : Nat) (r : WRec) : Core :=
  let g := kget {} c.wit.gaps ns
  let fresh := (c.wit.segs.find? (fun p => p.1 = ns)).isNone
  let need := r.bytes.length + (if fresh then segExtra else 0) + (if g.open_ then (gapRec g).bytes.length else 0)
  if c.stageSize < c.staged + need then
    let h : WGap := { open_ := true, t0 := if g.open_ then g.t0 else r.time, t1 := r.time
                      kinds := g.kinds % 2 ^ r.kind + 2 ^ r.kind + g.kinds / 2 ^ (r.kind + 1) * 2 ^ (r.kind + 1) }
    let c : Core := { c with wit := { c.wit with gaps := kset {} c.wit.gaps ns h } }
    ((c.addSat (rg0 .WIT_GAP_CNT) 15 0 1).raise 369).witShow
  else
    let c := if g.open_ then
        ({ c with wit := { c.wit with gaps := kset {} c.wit.gaps ns {} } } : Core).segAppend ns (gapRec g) else c
    (c.segAppend ns r).witShow

/-- The journal entries next to record: up to 128 consecutive ones. -/
def Core.jnlRec (c : Core) : Option (WRec × W32) :=
  let w := c.rd (rg0 .JNL_WSEQ)
  let wait := (w - c.wit.jnext).toNat
  let start := if 65536 < wait then w - w32 65536 else c.wit.jnext
  let n := min 128 (w - start).toNat
  if n = 0 then none
  else
    let es := (List.range n).map (fun i => kget {} c.jnl.ring ((start + w32 i).toNat % 65536))
    some ({ kind := 4, stream := 0, flags := 0, time := (es.getD 0 {}).time.toNat, payload := es.flatMap JEntry.bytes }, start + w32 n)

/-- WITNESS_RECORD: the oldest waiting record enters the ring; with none, waiting journal entries do. -/
def execWitnessRecord (s : State) : Host.Outcome State Fault Refusal :=
  run s (fun c =>
    match c.wit.queue with
    | (ns, r) :: rest => ({ c with wit := { c.wit with queue := rest } } : Core).witAdd ns r
    | [] =>
      if c.witOn && c.rdB (rg0 .WIT_CTRL) 30 then
        match c.jnlRec with
        | some (r, n) => ({ c with wit := { c.wit with jnext := n } } : Core).witAdd 0 r
        | none => c
      else c)

/-- WIT_CTRL written: recording begins with the journal entries still to come. -/
def Core.witCtrl (c : Core) (v : W32) : Core :=
  let on := bit v 31 && !c.witOn
  let c := c.wr (rg0 .WIT_CTRL) (v &&& 0xE000FFFF)
  let c : Core := if on then { c with wit := { c.wit with jnext := c.rd (rg0 .JNL_WSEQ) } } else c
  c.witShow

/-! ### Segments (R291, R293) -/

def witPeriod (c : Core) : Nat :=
  let m := c.rdF (rg0 .WIT_CTRL) 15 2
  (if 100 ≤ m ∧ m ≤ 10000 then m else 1000) * 1000000

/-- A hold of the namespace covers the segment number (R295). -/
def Core.heldBy (c : Core) (ns num : Nat) : Bool :=
  (List.range 16).any (fun j =>
    let n := 16 * ns + j
    c.rdB (rg .WIT_HOLD_CTL n) 29 && decide (c.rdPair (rg .WIT_HOLD_FIRST_LO n) (rg .WIT_HOLD_FIRST_HI n) ≤ num) &&
      decide (num ≤ c.rdPair (rg .WIT_HOLD_LAST_LO n) (rg .WIT_HOLD_LAST_HI n)))

/-- The open segment of a namespace closed: it takes the next number. -/
def Core.segClose (c : Core) (ns : Nat) (bySize : Bool) : Core :=
  match c.wit.segs.find? (fun p => p.1 = ns) with
  | none => c
  | some p =>
    let num := c.rdPair (rg .WIT_SEG_LO ns) (rg .WIT_SEG_HI ns)
    let g := { p.2 with number := num, tEnd := c.ns, bySize := bySize, held := c.heldBy ns num, first := !kget false c.wit.begun ns }
    let c : Core := { c with wit := { c.wit with segs := kdel c.wit.segs ns, closed := c.wit.closed ++ [g]
                                                 begun := kset false c.wit.begun ns true } }
    (c.wrPair (rg .WIT_SEG_LO ns) (rg .WIT_SEG_HI ns) (num + 1)).witShow

/-- SEGMENT_CLOSE: at the next PTP multiple of seg_ms, or at once when the body has reached 64 MiB. -/
def execSegmentClose (ns : Nat) (bySize : Bool) (s : State) : Host.Outcome State Fault Refusal :=
  run s (fun c =>
    match c.wit.segs.find? (fun p => p.1 = ns) with
    | none => c
    | some p =>
      if bySize then (if 67108864 ≤ p.2.body.length then c.segClose ns true else c)
      else
        let q := witPeriod c
        (c.upTo (c.psOf ((p.2.tStart / q + 1) * q))).segClose ns false)

/-- The 256-byte header. -/
def WSeg.header (g : WSeg) (device : Nat) (prev : BitVec 384) : List Byte :=
  let fl := (if g.held then 1 else 0) + (if g.bySize then 2 else 0) + (if g.first then 4 else 0)
  leBytes 4 0x57545331 ++ leBytes 2 1 ++ leBytes 2 fl ++ leBytes 8 g.number ++ leBytes 2 device ++ leBytes 1 g.ns
    ++ leBytes 1 g.key ++ leBytes 4 g.records ++ leBytes 8 g.tStart ++ leBytes 8 g.tEnd ++ leBytes 4 g.body.length
    ++ leBytes 4 0 ++ (if g.number = 0 then List.replicate 48 0 else (leBytes 48 prev.toNat).reverse) ++ List.replicate 160 0

/-- A segment sealed: header, ciphertext, tag, signature of their SHA-384. -/
def sealSeg (key signKey device : Nat) (prev : BitVec 384) (g : WSeg) : List Byte :=
  let h := g.header device prev
  let nonce := g.number % 2 ^ 64 * 2 ^ 32 + device * 2 ^ 16 + g.ns
  let ct := (List.range (g.body.length + 16)).map (Config.aesGcm key nonce h g.body)
  let d := Config.sha384 (h ++ ct)
  h ++ ct ++ (List.range 96).map (Config.ecdsaSign signKey d)

/-- The witness recorder as a requester: the secure world's, partition 0's on the N series, on port 24 (R8, R293, R452). -/
def Core.witClient (c : Core) : Client := { tag := { granted := true, world := c.secure }, cls := 5, no := 24, port := 24, ss := 9 }

/-- Where the next `n` bytes of the staging ring lie: up to its end, then from its start. -/
def Core.stagePlace (c : Core) (n : Nat) : List (Nat × Nat) :=
  let size := c.stageSize
  let base := c.rdPair (rg0 .WIT_STAGE_BASE_LO) (rg0 .WIT_STAGE_BASE_HI)
  if size = 0 then [] else
  let at_ := c.wit.stageAt % size
  [(base + at_, min n (size - at_)), (base, n - (size - at_))].filter (fun p => p.2 != 0)

/-- Bytes laid into those places through the memory map. -/
def Core.stageStore (c : Core) (bs : List Byte) : Core :=
  let size := c.stageSize
  let r := (c.stagePlace bs.length).foldl (fun (r : Core × List Byte) p =>
    ((r.1.unitWrite c.witClient p.1 (r.2.take p.2)).1, r.2.drop p.2)) (c, bs)
  { r.1 with wit := { c.wit with stageAt := if size = 0 then c.wit.stageAt else (c.wit.stageAt + bs.length) % size } }

/-- SEGMENT_HANDOFF: the oldest closed segment signed and offered to the cave; without its keys it waits, with source 373. -/
def execSegmentHandoff (s : State) : Host.Outcome State Fault Refusal :=
  run s (fun c =>
    match c.wit.closed with
    | [] => c
    | g :: rest =>
      let key := kget 0 c.wit.keys g.key
      if key = 0 ∨ c.wit.signKey = 0 then (c.raise 373).witShow
      else
        let bs := sealSeg key c.wit.signKey c.devAddr (kget 0 c.wit.prevs g.ns) g
        let w := { c.wit with closed := rest, offered := c.wit.offered ++ [{ ns := g.ns, number := g.number, bytes := bs, stage := c.stagePlace bs.length }]
                              prevs := kset 0 c.wit.prevs g.ns (Config.sha384 bs) }
        ((({ c with wit := w } : Core).stageStore bs).raise 368).witShow)

end Sys2Proof.Machine
end

