-- ==== Sys2Proof/Machine/Vee.lean ====
section
/-! DEFINITION. Video encoders (R277 to R290): the witness tap and the input ring, picture tokens, CTU rows, the motion search and its
window, the cap rule, dropped rows, faults. The bytes a CTU takes are the content's: commands carry them. Filtered and coded samples
are free values, the spec giving no filter coefficients and no encoder decisions. -/

namespace Sys2Proof.Machine

open Sys2Proof

def Core.enc (c : Core) (e x : Nat) : EncStream := kget {} c.encs (8 * e + x)
def Core.setEnc (c : Core) (e x : Nat) (q : EncStream) : Core := { c with encs := kset {} c.encs (8 * e + x) q }
/-- The live ENCODE contract of a stream. -/
def Core.encCon (c : Core) (e x : Nat) : Option Contract :=
  c.adm.live.find? (fun y => y.kind = kENCODE && y.unit = e && y.f 9 2 0 = x)
def encRemote (y : Contract) : Bool := bit (y.w 7) 5
def encRows (y : Contract) : Nat := ceilDiv (y.f 5 15 0) 64
def encCols (y : Contract) : Nat := ceilDiv (y.f 5 31 16) 64
def Core.encState (c : Core) (e x : Nat) : Nat := c.rdF (rg2 .VEE_STR_STATE e x) 31 28
def Core.setEncState (c : Core) (e x st : Nat) : Core := c.setF (rg2 .VEE_STR_STATE e x) 31 28 st
/-- The picture period in ns: 1000 s over the contract's rate in mHz (R279). -/
def encPeriod (y : Contract) : Nat := 1000000000000 / max 1 (y.n 6)
def Core.veeEvt (c : Core) (e i : Nat) : Core := c.setB (rg .VEE_EVT e) i true

/-- The row the encoder codes next: ready rows of all its streams, earliest deadline first (R286). -/
def Core.encNext (c : Core) (e : Nat) : Option (Nat × CtuRow) :=
  (List.range 8).foldl (fun (r : Option (Nat × CtuRow)) x =>
    match (c.enc e x).pics.head? with
    | none => r
    | some p => match p.ready.head? with
      | none => r
      | some w => match r with
        | some (_, v) => if w.deadline < v.deadline then some (x, w) else r
        | none => some (x, w)) none

/-- VEE_STATUS: busy and the stream coding. -/
def Core.encShow (c : Core) (e : Nat) : Core :=
  match c.encNext e with
  | some (x, _) => (c.setB (rg .VEE_STATUS e) 8 true).setF (rg .VEE_STATUS e) 2 0 x
  | none => (c.setB (rg .VEE_STATUS e) 8 false).setF (rg .VEE_STATUS e) 2 0 0

/-- A stream record (type 0x06): identifier, size, profile and orientation, rate, head timing; flag bit 0 start. -/
def Core.streamRecord (c : Core) (e x : Nat) (y : Contract) (start : Bool) : Core :=
  let hd := headOf c.adm.live (y.f 4 7 0)
  let t := match hd with | some k => [k.w 5, k.w 6] | none => [0, 0]
  c.witNow (nsOf y.sub) 6 (8 * e + x) (if start then 1 else 0)
    ((y.id :: y.w 5 :: y.w 7 :: y.w 6 :: t).flatMap (fun w => leBytes 4 w.toNat))

/-- Source 372 follows the remote streams that are without rows (R290). -/
def Core.encIdle (c : Core) (e x : Nat) (b : Bool) : Core :=
  if (c.enc e x).idle = b then c else
  let c := c.setEnc e x { c.enc e x with idle := b }
  c.setLvl 372 (c.encs.any (fun p => p.2.idle))

/-- A stream begins with its contract: token present, first picture an IDR (R279, R283). Pictures of the contract before it are still
coded (R294). -/
def Core.encBegin (c : Core) (e x : Nat) (y : Contract) : Core :=
  let c := c.setEnc e x { token := true, tokenAt := c.mono + encPeriod y, pics := (c.enc e x).pics }
  let c := c.wr (rg2 .VEE_STR_STATE e x) (w32 (268435456 + y.f 4 3 0 * 16777216 + (if encRemote y then 8388608 else 0)))
  c.streamRecord e x y true

/-- A stream ends with its contract, after its last taken picture (R294). -/
def Core.encEnd (c : Core) (e x : Nat) (y : Contract) : Core :=
  let c := c.encIdle e x false
  if c.encState e x = 3 then (c.setEnc e x {}).wr (rg2 .VEE_STR_STATE e x) 0
  else match (c.enc e x).pics.reverse with
    | [] => ((c.streamRecord e x y false).setEnc e x {}).wr (rg2 .VEE_STR_STATE e x) 0
    | p :: older => c.setEnc e x { c.enc e x with token := false, pics := older.reverse ++ [{ p with last := true }] }

/-- A stream stopped at a partition reset's T0 (R294). -/
def Core.encStop (c : Core) (e x : Nat) (y : Contract) : Core :=
  let c := c.encIdle e x false
  (((c.streamRecord e x y false).setEnc e x { tokenAt := c.mono }).setEncState e x 3).encShow e

/-- ENCODE_TOKEN_REFILL: the token is there again, a period after the last refill. A remote stream without a picture in that
period waits, with source 372 until its next row (R290). -/
def execEncodeTokenRefill (e x : Nat) (s : State) : Host.Outcome State Fault Refusal :=
  run s (fun c => match c.encCon e x with
    | none => c
    | some y =>
      if c.encState e x = 0 ∨ c.encState e x = 3 then c else
      let q := c.enc e x
      let c := c.upTo (q.tokenAt * 1000)
      let idle := encRemote y && q.token
      let c := c.setEnc e x { q with token := true, tokenAt := q.tokenAt + encPeriod y }
      if idle then (c.setEncState e x 1).encIdle e x true else c)

/-- A picture taken (R279, R283): an IDR first, and every gop-th picture after it. -/
def Core.encTake (c : Core) (e x : Nat) (y : Contract) (frame t0 flags : Nat) : Core :=
  let q := c.enc e x
  let pos := c.rdF (rg2 .VEE_STR_STATE e x) 15 0
  let idr := q.idrNext || decide (y.f 7 31 16 ≤ pos + 1)
  let qp := y.f 7 13 8
  let p : EncPic := { frame := frame, t0 := t0, idr := idr, flags := flags, con := y, qp := if idr then qp - 3 else qp }
  let c := c.setEnc e x { q with token := false, idrNext := false, pics := q.pics ++ [p] }
  (c.setEncState e x 2).setF (rg2 .VEE_STR_STATE e x) 15 0 (if idr then 0 else pos + 1)

/-- Line 0 of a frame of head `h`: every running stream on it that holds its token takes the frame. -/
def Core.veeLine0 (c : Core) (h : Nat) : Core :=
  c.adm.live.foldl (fun c y =>
    let e := y.unit
    let x := y.f 9 2 0
    if y.kind = kENCODE && !encRemote y && y.f 4 7 0 == h && (c.enc e x).token && c.encState e x != 3 && c.encState e x != 0 then
      c.encTake e x y (c.rdN (rg .HD_FRAME h)) (c.ptpOf (c.head h).lineAt) 0
    else c) c

/-! ### The witness tap (R277, R278) -/

/-- An encoder as a requester: its contract's owner, port 24 or 25, Shared Store port 7 (R133, R141). -/
def veeClient (e : Nat) (y : Contract) : Client := { tag := ownerOf y.sub, cls := 3, no := 8 + e, port := 24 + e / 2, ss := 7 }

/-- Main 10: 10-bit samples in 16-bit containers. -/
def encDeep (y : Contract) : Bool := bit (y.w 7) 0
def sampleBytes (y : Contract) : Nat := if encDeep y then 2 else 1

/-- A sample in its container; 10 bits stand in bits 15:6, as in P010 (log entry 218). -/
def sampleOut (y : Contract) (v : Nat) : List Byte := if encDeep y then leBytes 2 (v % 1024 * 64) else leBytes 1 v

/-- BT.709 limited-range luma of a 10-bit RGB pixel, rounded to the nearest value of the profile's depth. -/
def lumaOf (deep : Bool) (p : W32) : Nat :=
  let s := 2126 * fld p 29 20 + 7152 * fld p 19 10 + 722 * fld p 9 0
  let d := 10000 * 1023
  if deep then 64 + (876 * s * 2 + d) / (2 * d) else 16 + (219 * s * 2 + d) / (2 * d)

/-- Scaled lines of `hs` that head lines 0 to `v` complete out of `hh`: line `j` lies at head line (j + 0.5) hh / hs - 0.5, with two taps
after it unless the ratio is 1 (R215, R277). -/
def scaledDone (hh hs v : Nat) : Nat :=
  if hh ≤ v + 1 then hs
  else if hh = hs then v + 1
  else (List.range hs).countP (fun j => decide (((2 * j + 1) * hh - hs) / (2 * hs) + 2 ≤ v))

/-- The address of a row's slot in the input ring (R278). -/
def encSlot (y : Contract) (row : Nat) : Nat :=
  y.f 10 24 7 * 128 + row % max 1 (y.f 10 3 0) * (64 * y.f 5 31 16 * 3 / 2 * sampleBytes y)

/-- One scaled line into the ring: luma, and with every odd line the chroma line of its pair (log entry 218). The head's own luma where
the ratio is 1 both ways; all filtered samples are free values. -/
def Core.tapScaled (c : Core) (e : Nat) (y : Contract) (k : Contract) (out : List W32) (j : Nat) : Core :=
  let w := y.f 5 31 16
  let b := sampleBytes y
  let at_ := encSlot y (j / 64)
  let exact := decide (k.hActive = w ∧ k.vActive = y.f 5 15 0)
  let free (c : Core) (n : Nat) : List Nat := (List.range n).map (fun i => (Config.freeWord (c.free + i)).toNat)
  let ys := if exact then out.map (lumaOf (encDeep y)) else free c w
  let c := (({ c with free := c.free + w } : Core).unitWrite (veeClient e y) (at_ + j % 64 * w * b) (ys.flatMap (sampleOut y))).1
  if j % 2 = 0 then c else
  (({ c with free := c.free + w } : Core).unitWrite (veeClient e y) (at_ + 64 * w * b + j % 64 / 2 * w * b) ((free c w).flatMap (sampleOut y))).1

/-- The witness tap of an active line `v` of head `h`, after the rind: every picture taken from this frame gets the scaled lines that the
line completes (R277, R278). -/
def Core.witTap (c : Core) (h : Nat) (k : Contract) (v : Nat) (out : List W32) : Core :=
  (List.range 32).foldl (fun c i =>
    let q := c.enc (i / 8) (i % 8)
    match q.pics.reverse with
    | [] => c
    | p :: older =>
      let y := p.con
      if encRemote y || y.f 4 7 0 != h || p.frame != c.rdN (rg .HD_FRAME h) then c else
      let n := scaledDone k.vActive (y.f 5 15 0) v
      let c := c.setEnc (i / 8) (i % 8) { q with pics := older.reverse ++ [{ p with lines := max p.lines n }] }
      (List.range (n - p.lines)).foldl (fun c j => c.tapScaled (i / 8) y k out (p.lines + j)) c) c

/-- Streams of a head that stops scanning wait (R279). -/
def Core.veeIdle (c : Core) (h : Nat) : Core :=
  c.adm.live.foldl (fun c y =>
    if y.kind = kENCODE && !encRemote y && y.f 4 7 0 == h && c.encState y.unit (y.f 9 2 0) = 2 then c.setEncState y.unit (y.f 9 2 0) 1
    else c) c

/-- The frame's flags of R292 as the head stands: interrupted, sink_bad, a layer not LIVE. -/
def Core.frameFlags (c : Core) (h : Nat) : Nat :=
  let x := c.head h
  (if x.under.isSome then 8 else 0) + (if c.rdB (rg .HD_STATUS h) 27 then 16 else 0)
    + (if x.fresh.any (fun f => decide (2 ≤ f.2.state)) then 32 else 0)

/-- A row that came over Rogar into the ring: its samples are the origin's (R290). -/
def Core.remoteRow (c : Core) (e : Nat) (y : Contract) (row : Nat) : Core :=
  let r := c.drawBytes (64 * y.f 5 31 16 * 3 / 2 * sampleBytes y)
  (r.1.unitWrite { veeClient e y with ss := 6 } (encSlot y row) r.2).1

/-- CTU_ROW_READY: the next row of the newest picture is in the ring, its last scaled line written, with its deadline (R286); the first
row of a remote picture brings its frame number, time and flags (R290). -/
def execCtuRowReady (e x row deadline frame t0 flags : Nat) (s : State) : Host.Outcome State Fault Refusal :=
  run s (fun c => match c.encCon e x with
    | none => c
    | some y =>
      let c := if encRemote y && c.encState e x != 3 then c.encIdle e x false else c
      let c := if encRemote y && row = 0 && (c.enc e x).token && c.encState e x != 3 then c.encTake e x y frame t0 (flags % 64 / 8 * 8) else c
      let q := c.enc e x
      match q.pics.reverse with
      | [] => c
      | p :: older =>
        let y := p.con
        if row ≠ p.made + p.ready.length ∨ encRows y ≤ row then c
        else if !encRemote y && decide (p.lines < min (y.f 5 15 0) (64 * (row + 1))) then c
        else
          let fl := if encRemote y then p.flags else
            if c.rdN (rg .HD_FRAME (y.f 4 7 0)) = p.frame then p.flags ||| c.frameFlags (y.f 4 7 0) else p.flags
          let p := { p with ready := p.ready ++ [{ row := row, deadline := deadline }], flags := fl }
          let c := c.setEnc e x { q with pics := older.reverse ++ [p] }
          (if encRemote y then c.remoteRow e y row else c).encShow e)

/-! ### Motion search and the window cache (R284, R285) -/

/-- A vector held inside the search range of ±256 × ±128 pixels. -/
def inRange (v : Int × Int) : Int × Int := (max (-256) (min 256 v.1), max (-128) (min 128 v.2))

/-- An offset of a search stage, at most `lim` either way: which one is best is content. -/
def searchOff (n lim : Nat) : Int := (((Config.freeWord n).toNat % (2 * lim + 1) : Nat) : Int) - lim

/-- The search of a CTU (R284), from the merge candidates in quarter pixels: four level-2 candidates and the merge candidates, each refined
by ±4 pixels at level 1 and by ±2 at full resolution; the best goes to quarter-pel. `n` is the first free value it draws. -/
def searchCtu (n : Nat) (merge : List (Int × Int)) : Int × Int :=
  let far := (List.range 4).map (fun i => (4 * searchOff (n + 2 * i) 64, 4 * searchOff (n + 2 * i + 1) 32))
  let cands := far ++ merge.map (fun v => (v.1 / 4, v.2 / 4))
  let near := cands.zipIdx.map (fun p =>
    inRange (p.1.1 + 2 * searchOff (n + 8 + 2 * p.2) 4, p.1.2 + 2 * searchOff (n + 9 + 2 * p.2) 4))
  let full := near.zipIdx.map (fun p =>
    inRange (p.1.1 + searchOff (n + 24 + 2 * p.2) 2, p.1.2 + searchOff (n + 25 + 2 * p.2) 2))
  let v := full.getD ((Config.freeWord (n + 40)).toNat % max 1 full.length) (0, 0)
  (4 * v.1 + searchOff (n + 41) 3, 4 * v.2 + searchOff (n + 42) 3)

/-- The merge candidates of the next CTU of a picture: left, above, and the co-located one of the reference. -/
def mergeOf (cols : Nat) (mvs ref : List (Int × Int)) : List (Int × Int) :=
  let i := mvs.length
  (if i % cols = 0 then [] else (mvs[i - 1]?).toList) ++ (if i < cols then [] else (mvs[i - cols]?).toList) ++ (ref[i]?).toList

/-- The vectors of a row's CTUs: a fallback CTU takes merge candidate 0 (R284, R287). -/
def searchRow (n cols : Nat) (ref : List (Int × Int)) : List Bool → List (Int × Int) → List (Int × Int)
  | [], mvs => mvs
  | fb :: r, mvs =>
    let m := mergeOf cols mvs ref
    searchRow (n + 43) cols ref r (mvs ++ [if fb then m.headD (0, 0) else searchCtu n m])

/-- Address of a reference buffer (R280). -/
def refBuf (y : Contract) (second : Bool) : Nat :=
  let size := ceilDiv (y.f 5 31 16 * y.f 5 15 0 * 3 / 2 * sampleBytes y) 4096 * 4096
  (y.w 12).toNat + (y.w 13).toNat * 4294967296 + (if second then size else 0)

/-- The reference rows that the window of CTU row `r` covers: from row to below row (R285). -/
def winRows (y : Contract) (r : Nat) : Nat × Nat := (64 * r - 128, min (y.f 5 15 0) (64 * r + 192))

/-- The ranges of a reference that hold columns 64 `k` to 64 `k` + 63 of rows `r0` to `r1`: luma and chroma lines (log entry 220). -/
def blockRanges (y : Contract) (base k r0 r1 : Nat) : List (Nat × Nat) :=
  let w := y.f 5 31 16
  let b := sampleBytes y
  let n := min 64 (w - 64 * k) * b
  let chroma := base + w * y.f 5 15 0 * b
  (List.range (r1 - r0)).map (fun i => (base + (r0 + i) * w * b + 64 * k * b, n)) ++
    (List.range ((r1 - r0) / 2)).map (fun i => (chroma + (r0 / 2 + i) * w * b + 64 * k * b, n))

/-- A column block read into the window; its decimated levels are computed as it loads, by a filter the spec does not give. -/
def Core.loadBlock (c : Core) (e : Nat) (y : Contract) (base r k : Nat) : Core × RefBlock :=
  let rows := winRows y r
  let x := (blockRanges y base k rows.1 rows.2).foldl (fun (a : Core × List Byte) p =>
    let z := a.1.unitRead (veeClient e y) p.1 p.2
    (z.1, a.2 ++ z.2.1)) (c, [])
  let n := min 64 (y.f 5 31 16 - 64 * k) * (rows.2 - rows.1)
  let l1 := x.1.drawBytes (n / 4 * sampleBytes y)
  let l2 := l1.1.drawBytes (n / 16 * sampleBytes y)
  (l2.1, { col := k, bytes := x.2, level1 := l1.2, level2 := l2.2 })

def Core.encCache (c : Core) (e : Nat) : EncCache := kget {} c.encCaches e
def Core.setEncCache (c : Core) (e : Nat) (q : EncCache) : Core := { c with encCaches := kset {} c.encCaches e q }

/-- The window stepped to CTU column `col` of row `r`: loaded whole at column 0, else one block dropped and one read (R285). -/
def Core.winStep (c : Core) (e x : Nat) (y : Contract) (base r col : Nat) : Core :=
  let q := c.encCache e
  let last := min (encCols y - 1) (col + 4)
  let keep := if col = 0 then [] else q.blocks.filter (fun b => decide (col ≤ b.col + 4))
  let need := (List.range (last + 1)).filter (fun k => decide (col ≤ k + 4) && !keep.any (fun b => b.col = k))
  let z := need.foldl (fun (a : Core × List RefBlock) k =>
    let v := a.1.loadBlock e y base r k
    (v.1, a.2 ++ [v.2])) (c, keep)
  z.1.setEncCache e { q with stream := some x, row := r, col := col, blocks := z.2 }

/-- At a picture's start the cache is flushed when the head's owner is not the last picture's (R126, R285). -/
def Core.winFlush (c : Core) (e : Nat) (y : Contract) : Core :=
  let o := if encRemote y then ownerOf y.sub else c.owner 1 (y.f 4 7 0)
  if (c.encCache e).owner = some o then c else c.setEncCache e { owner := some o }

/-- The samples of a coded row into the reference buffer that the picture is written to; they are the content's. -/
def Core.reconRow (c : Core) (e : Nat) (y : Contract) (base r : Nat) : Core :=
  let w := y.f 5 31 16
  let h := y.f 5 15 0
  let b := sampleBytes y
  let n := min 64 (h - 64 * r)
  let l := c.drawBytes (n * w * b)
  let c := (l.1.unitWrite (veeClient e y) (base + 64 * r * w * b) l.2).1
  let m := c.drawBytes (n / 2 * w * b)
  (m.1.unitWrite (veeClient e y) (base + w * h * b + 32 * r * w * b) m.2).1

/-- The memory work of a row: the window of a P picture, column by column, and the reconstructed samples. -/
def Core.encMemory (c : Core) (e x : Nat) (p : EncPic) (buf : Bool) : Core :=
  let y := p.con
  let c := if p.made = 0 then c.winFlush e y else c
  let c := if p.idr then c else (List.range (encCols y)).foldl (fun c col => c.winStep e x y (refBuf y !buf) p.made col) c
  c.reconRow e y (refBuf y buf) p.made

/-- The cap rule over the CTUs of a row (R287): byte count, spent, whether a fallback CTU stands in the row. `left` counts the
CTUs from this one to the picture's end. -/
def capRow (cap f : Nat) : Nat → Nat → Bool → Bool → List Nat → List Nat → Nat × Bool × Bool
  | _, b, spent, fb, [], _ => (b, spent, fb)
  | left, b, spent, fb, s :: ss, fs =>
    let s' := min f (fs.headD f)
    if spent || decide (cap ≤ b + left * f) then capRow cap f (left - 1) (b + s') true true ss fs.tail
    else if 102 * cap < 100 * (b + s + (left - 1) * f) then capRow cap f (left - 1) (b + s') true true ss fs.tail
    else capRow cap f (left - 1) (b + s) false fb ss fs.tail

/-- Which CTUs of a row are coded in fallback, by the same rule. -/
def capFalls (cap f : Nat) : Nat → Nat → Bool → List Nat → List Nat → List Bool
  | _, _, _, [], _ => []
  | left, b, spent, s :: ss, fs =>
    let s' := min f (fs.headD f)
    if spent || decide (cap ≤ b + left * f) || decide (102 * cap < 100 * (b + s + (left - 1) * f)) then
      true :: capFalls cap f (left - 1) (b + s') true ss fs.tail
    else false :: capFalls cap f (left - 1) (b + s) false ss fs.tail

/-- A picture whose last row is coded: counters, the picture event, its record, and the end of its stream when it was the last of its
contract (R287, R292, R294). -/
def Core.encDone (c : Core) (e x : Nat) (p : EncPic) : Core :=
  let y := p.con
  let fb := p.bitmap != 0
  let c := (c.addWrap (rg2 .VEE_STR_PICS e x) 1).wr (rg2 .VEE_STR_BYTES e x) (w32 p.bytes)
  let c := if fb then c.addSat (rg2 .VEE_STR_FALLBACK e x) 15 0 1 else c
  let c := c.veeEvt e 0
  let c := if p.spent then c.veeEvt e 1 else c
  let origin := if encRemote y then y.f 9 31 16 else c.devAddr
  let nal := c.drawBytes p.bytes
  let c := nal.1.witPut (nsOf y.sub)
    { kind := 1, stream := 8 * e + x
      flags := (if p.idr then 1 else 0) + (if fb then 2 else 0) + (if p.dropped then 4 else 0) + p.flags
      time := p.t0
      payload := leBytes 4 p.frame ++ leBytes 1 (y.f 4 7 0) ++ leBytes 2 origin ++ leBytes 1 0 ++ leBytes 8 p.t0 ++ leBytes 16 p.bitmap ++ nal.2 }
  if !p.last then c else
  let c := c.streamRecord e x y false
  if (c.encCon e x).isNone then (c.setEnc e x {}).wr (rg2 .VEE_STR_STATE e x) 0 else c

/-- A row coded: `sizes` are the bytes its CTUs take coded normally, `fallback` those in fallback, `head` the bytes of parameter
sets and slice header before it; a dropped row is all fallback (R287, R289). -/
def Core.encRow (c : Core) (e x : Nat) (drop : Bool) (head : Nat) (sizes fallback : List Nat) : Core :=
  match (c.enc e x).pics with
  | [] => c
  | p :: later =>
    let y := p.con
    let cols := encCols y
    let left := (encRows y - p.made) * cols
    let f := if p.idr then 96 else 2
    let ss := (List.range cols).map (fun i => sizes.getD i 0)
    let r := capRow (y.n 8) f left (p.bytes + head) (p.spent || drop) false ss fallback
    let c := c.encMemory e x p (c.enc e x).buf
    let q := c.enc e x
    let falls := capFalls (y.n 8) f left (p.bytes + head) (p.spent || drop) ss fallback
    let mvs := if p.idr then List.replicate ((p.made + 1) * cols) (0, 0) else searchRow c.free cols q.refMvs falls p.mvs
    let c : Core := { c with free := c.free + 43 * cols }
    let p := { p with bytes := r.1, spent := if drop then p.spent else r.2.1, dropped := p.dropped || drop, mvs := mvs
                      bitmap := if r.2.2 then p.bitmap + 2 ^ p.made else p.bitmap, made := p.made + 1, ready := p.ready.tail }
    let c := if drop then (c.addSat (rg2 .VEE_STR_DROP e x) 15 0 1).veeEvt e 2 else c
    let c := if p.made = encRows y then (c.setEnc e x { q with pics := later, buf := !q.buf, refMvs := mvs }).encDone e x p
      else c.setEnc e x { q with pics := p :: later }
    c.encShow e

/-- CTU_ROW_CODED: of the ready row with the earliest deadline (R286). -/
def execCtuRowCoded (e x head : Nat) (sizes fallback : List Nat) (s : State) : Host.Outcome State Fault Refusal :=
  run s (fun c => match c.encNext e with
    | some (k, _) => if k = x then c.encRow e x false head sizes fallback else c
    | none => c)

/-- ROW_DEADLINE: a row not coded by its deadline, in ns, is dropped (R289); of a row that never became ready the deadline is the
command's time. -/
def execRowDeadline (e x row : Nat) (fallback : List Nat) (s : State) : Host.Outcome State Fault Refusal :=
  run s (fun c => match (c.enc e x).pics with
    | p :: _ =>
      let at_ := match p.ready.head? with | some w => w.deadline * 1000 | none => c.now
      if p.made = row then (c.upTo at_).encRow e x true 0 [] fallback else c
    | [] => c)

/-- ENCODER_FAULT: no picture in progress is finished; each stream writes a GAP record and restarts with an IDR (R289). -/
def execEncoderFault (e : Nat) (s : State) : Host.Outcome State Fault Refusal :=
  run s (fun c =>
    if c.counts.vee ≤ e then c else
    let c := ((c.veeEvt e 3).fault (352 + 4 * e + 3) e 0).setEncCache e {}
    let c := (List.range 8).foldl (fun c x => match c.encCon e x with
      | none => match (c.enc e x).pics.getLast? with
        | some p => ((c.streamRecord e x p.con false).setEnc e x {}).wr (rg2 .VEE_STR_STATE e x) 0
        | none => c
      | some y =>
        let q := c.enc e x
        let t0 := (q.pics.map (fun p => p.t0)).foldl min c.ns
        let c := c.setEnc e x { q with pics := [], idrNext := true, refMvs := [] }
        c.witNow (nsOf y.sub) 5 (8 * e + x) 0 (leBytes 8 t0 ++ leBytes 8 c.ns ++ leBytes 8 2)) c
    c.encShow e)

end Sys2Proof.Machine
end

