-- ==== Sys2Proof/Machine/HeadLine.lean ====
section
/-! DEFINITION. A head line by line: the raster and its events, substitution, protected layers, region signatures, the rind,
starts and stops (R231 to R245, R260 to R272). -/

namespace Sys2Proof.Machine

open Sys2Proof

/-! ### Vertical-blanking start -/

/-- Time in ps of a locked head's tick `j`; one that falls on a master boundary falls on it exactly (R30, R232). -/
def Core.lockedTick (c : Core) (k : Contract) (x : Head) (j : Nat) : Nat :=
  let t := x.base + (j - x.baseIdx) * k.hD * c.rdN (rg0 .TKG_MASTER_DEN) * 1000000000000 / max 1 (k.hN * c.rdN (rg0 .TKG_MASTER_NUM))
  let b := c.psOf (c.boundaryNs (c.nextBoundaryAt (c.ptpOf t)))
  if b < t + 1000 ∧ t < b + 1000 then b else t

/-- Time in ps of the head's next vertical-blanking start: a locked head's next tick, else the last start and the frame's lines, on an
adaptive head not before 1/f_max (R30). -/
def Core.nextBlankPs (c : Core) (k : Contract) (x : Head) : Nat :=
  let whole := c.linesPs k (k.vTotal + x.ext)
  if k.hMode = 1 then c.lockedTick k x (x.tickIdx + 1)
  else x.blankAt + (if k.hMode = 3 then max whole (ceilDiv 1000000000000000 (k.n 9)) else whole)

/-! ### Latency tolerance (R151, R244) -/

/-- Start in ps of line 0 of the frame that comes next. -/
def Core.nextLine0 (c : Core) (h : Nat) (k : Contract) : Nat :=
  let x := c.head h
  let v := k.vTotal - k.vActive
  if c.now < x.line0 then x.line0
  else if c.headLine h < k.vActive then c.nextBlankPs k x + c.linesPs k v
  else x.blankAt + c.linesPs k (v + x.ext)

/-- t_wait in ps of a composed head: the scan-out of the first strip not complete, less the time that what is left of its R43 load takes its
group; a strip being composed is complete when the clocks since its start reach its load (R244; log entry 44). -/
def Core.stripWait (c : Core) (h : Nat) (k : Contract) : Nat :=
  let x := c.head h
  let w := leLoad (c.adm.live.map (fun y => (y, none))) h
  let rate := x.group.length * (plFreq c.level).2.2.1
  let whole (t : Nat) : Nat := t - c.now - w * 1000000 / max 1 rate
  let strip (j : Nat) : Nat := x.line0 + c.linesPs k (j * k.hStrip)
  if x.under.isSome then whole (c.nextLine0 h k)
  else match x.next, x.due with
    | some r, _ =>
      let spent := (c.now - r.begun) * rate / 1000000
      if spent < w then strip r.k - c.now - (w - spent) * 1000000 / max 1 rate
      else whole (if r.k + 1 < stripCount k then strip (r.k + 1) else c.nextLine0 h k)
    | none, some j => whole (strip j)
    | none, none => whole (c.nextLine0 h k)

/-- t_wait in ps of a direct plane: until the head needs the first byte beyond the 64 KiB that its fetch buffer holds ahead (R240, R244). -/
def Core.planeWait (c : Core) (h : Nat) (k : Contract) : Nat :=
  let x := c.head h
  let line := ceilDiv (k.hActive * bpp4 (k.f 10 23 16)) 4
  let active := decide (c.headLine h < k.vActive)
  let pix := min k.hActive ((c.now - x.lineAt) * k.hTotal / max 1 (c.linesPs k 1))
  let need := (if active then c.headLine h * line + pix * line / max 1 k.hActive else 0) + 65536
  let y := need / max 1 line
  if x.under.isSome ∨ k.vActive ≤ y then c.nextLine0 h k - c.now
  else (if active then x.lineAt + c.linesPs k (y - c.headLine h) else c.nextLine0 h k + c.linesPs k y)
    + need % max 1 line * k.hActive / max 1 line * c.linesPs k 1 / max 1 k.hTotal - c.now

/-- The tolerance of a scanning head in ns: max(0, t_wait - 500 ns), in the register's 24 bits. -/
def Core.tolerance (c : Core) (h : Nat) : Nat :=
  match (c.head h).con with
  | some k => sat 0xFFFFFF ((if isDirect k then c.planeWait h k else c.stripWait h k) / 1000 - 500)
  | none => 0xFFFFFF

/-- DMC_HEAD_TOL as it reads (R151). -/
def Core.headTolView (c : Core) (h : Nat) : W32 :=
  if c.scanning h then w32 (2147483648 + c.tolerance h) else 0x00FFFFFF

/-- The smallest tolerance among scanning heads in ns. -/
def Core.headTol (c : Core) : Nat :=
  (List.range c.counts.heads).foldl (fun m h => if c.scanning h then min m (c.tolerance h) else m) 0xFFFFFF

/-- The contract's timing shown (R252); the pixel clock in kHz (R232). -/
def Core.showTiming (c : Core) (h : Nat) (k : Contract) : Core :=
  let p := headPix c.fM k
  let c := (c.wr (rg .HD_TIMING_H h) (w32 (k.hTotal * 65536 + k.hActive))).wr (rg .HD_TIMING_V h) (w32 (k.vTotal * 65536 + k.vActive))
  let c := c.wr (rg .HD_PIXCLK h) (if k.hMode = 1 then w32 (p.1 / max 1 (p.2 * 1000)) else k.w 4)
  c.setB (rg .HD_STATUS h) 29 (isDirect k)

/-- Region mode of a unit at its head's vertical-blanking start (R168, R169). -/
def Core.crcBlank (c : Core) (h : Nat) (k : Contract) (n : Nat) : Core :=
  let x := c.crc n
  let c := if x.rOn && fld x.rHead 3 0 = h && x.rLines != 0 && !x.rNew then c.crcErr n 5 else c
  let x := { c.crc n with rDone := false }
  let mine := c.rdF (rg .CRC_REGION_HEAD n) 3 0 = h
  if x.rNew && mine && c.crcRegion n then
    let pos := c.rd (rg .CRC_REGION_POS n)
    let size := c.rd (rg .CRC_REGION_SIZE n)
    let own := c.owner 5 n
    let bad := fld size 12 0 = 0 || fld size 28 16 = 0 || decide (k.hActive < fld pos 12 0 + fld size 12 0) ||
      decide (k.vActive < fld pos 28 16 + fld size 28 16) || !(own.world || sameOwner own (c.owner 1 h))
    let c := c.setCrc n { x with rNew := false, rOn := !bad, rPos := pos, rSize := size, rHead := w32 h, rLines := 0 }
    if bad then c.crcErr n 4 else c.crcInit n
  else if x.rOn && fld x.rHead 3 0 = h then (c.setCrc n { x with rLines := 0, rOn := !(x.rNew && !mine) }).crcInit n
  else c

/-- A head stops within the active lines of a frame: units whose rectangle it has not scanned whole miss it (R169). -/
def Core.crcMissed (c : Core) (h : Nat) : Core :=
  let active : Bool := match (c.head h).con with | some k => c.scanning h && decide (c.headLine h < k.vActive) | none => false
  if !active then c
  else (List.range 128).foldl (fun c n =>
    let x := c.crc n
    if x.rOn && fld x.rHead 3 0 = h && !x.rNew && !x.rDone then (c.crcErr n 5).setCrc n { c.crc n with rLines := 0, rDone := true } else c) c

/-- CSI_TRIG of the ports that follow the head (R183). -/
def Core.trigBlank (c : Core) (h : Nat) : Core :=
  (List.range 8).foldl (fun (c : Core) p =>
    let v := c.rd (rg .CSI_TRIG p)
    let old := kget 0 c.trig p
    if fld v 29 26 = h ∨ (bit old 31 ∧ fld old 29 26 = h) then { c with trig := kset 0 c.trig p (if fld v 29 26 = h then v else 0) } else c) c

/-- The pulses that begin with a line of the head: their start and their end, a width of 0 as 1 (R183). -/
def Core.trigLine (c : Core) (h line : Nat) : Core :=
  let at_ := (c.head h).lineAt
  { c with pulses := (List.range 8).foldl (fun m p =>
      let v := kget 0 c.trig p
      if bit v 31 ∧ fld v 29 26 = h ∧ fld v 25 13 = line then kset (0, 0) m p (at_, at_ + max 1 (fld v 7 0) * 1000000) else m) c.pulses }

/-- The level of pin CSI_TRIGp: active while a pulse lasts, active low with the polarity bit (R183). -/
def Core.trigPin (c : Core) (p : Nat) : Bool :=
  let u := kget (0, 0) c.pulses p
  decide (u.1 ≤ c.now ∧ c.now < u.2) != bit (kget 0 c.trig p) 30

/-- The lengths of the windows in ns, extension lines included, 0 for a window that is not present (R245). -/
def Core.windows (c : Core) (h : Nat) (k : Contract) : Core :=
  let x := c.head h
  let q := x.inForce 3
  let g := fld q 7 0
  let line := if 2 * g < k.hTotal - k.hActive then c.pixNs k (k.hTotal - k.hActive - 2 * g) else 0
  let n := k.vTotal + x.ext - fld q 31 24 - (k.vActive + fld q 23 16)
  c.setHead h { x with winLine := line, winFrame := c.linesPs k n / 1000 }

/-- The raster stops (R235). -/
def Core.headStop (c : Core) (h : Nat) : Core :=
  let x := c.head h
  let c := c.setHead h { x with con := none, bothAt := none, due := none, next := none, scan := none, inUse := false, under := none
                                winLine := 0, winFrame := 0, ext := 0, trig := false, doneDue := false }
  let c := c.wr (rg .HD_STATUS h) (c.rd (rg .HD_STATUS h) &&& 0xA8000000)
  let c := { c with trig := c.trig.filter (fun t => fld t.2 29 26 != h) }
  (c.veeIdle h).headCond h

/-- New timing of a locked head from this vertical-blanking start on: the blanking is extended, at line V_active, until the next
vertical-blanking start falls on a master boundary (R235). -/
def Core.retime (c : Core) (h : Nat) (k : Contract) : Core :=
  let x := c.head h
  let due := x.blankAt + c.linesPs k k.vTotal
  let b := c.nextBoundaryAt (c.ptpOf due)
  let t := c.psOf (c.boundaryNs b)
  let j := b * k.hN / k.hD
  c.setHead h { x with con := some k, blankAt := x.blankAt + (t - due), base := t, baseIdx := j, tickIdx := j - 1 }

/-- Vertical-blanking start of a scanning head (R233, R235, R241): the frame count, the event, the head tick; a stop or new
timing; the registers that take effect here. -/
def Core.blankStart (c : Core) (h : Nat) : Core :=
  let c := (c.addWrap (rg .HD_FRAME h) 1).setB (rg .HD_EVT h) 0 true
  let c := c.setB (rg .HD_STATUS h) 26 false
  let x := c.head h
  let c := c.setHead h { x with under := none, rindBad := 0, tickDue := true, tickPs := x.blankAt }
  match c.headCon h with
  | none => c.headStop h
  | some k =>
    if !c.rdB (rg .HD_CTRL h) 0 then c.headStop h else
    let x := c.head h
    let fresh := x.con.map (fun y => y.id) != some k.id
    let c := if fresh && x.con.isSome && k.hMode = 1 then c.retime h k
      else c.setHead h { x with con := some k }
    let c := if fresh then c.setF (rg .HD_STATUS h) 12 0 k.vActive else c
    let x := c.head h
    let c := c.setHead h { x with sync := [.HD_HSYNC, .HD_VSYNC, .HD_OUT, .HD_QUIET, .HD_LINE_MATCH].map (fun f => c.rd (rg f h)) }
    let c := c.showTiming h k
    let c := (List.range 128).foldl (fun c n => c.crcBlank h k n) c
    (c.trigBlank h).windows h k

/-! ### Pixels after the ring -/

/-- The views of a frame that the engines no longer judge, in their last states. -/
def Core.staleViews (c : Core) (h : Nat) (k : Contract) : List LayView :=
  let x := c.head h
  (List.range 32).filterMap (fun s => (c.mkView h k (c.headLine h / k.hStrip) s).map (fun v =>
    let f : FreshRec := kget {} x.fresh s
    { v with state := f.state, label := if s < 30 then f.label else [] }))

/-- The layers of a frame that was not latched after the raster began, all LOST (R235). -/
def Core.lostViews (c : Core) (h : Nat) (k : Contract) : List LayView :=
  let x := c.head h
  let d := c.setHead h { x with act := c.pendingSet h (fun q => q.j < 30)
                                latched := (List.range 32).map (fun s => (s, { part := true })) }
  (List.range 32).filterMap (fun s => (d.mkView h k (c.headLine h / k.hStrip) s).map (fun v => { v with state := 4 }))

/-- A pixel lies in the region of a layer of slots 0 to 29: its rectangle less the occluders above (R261). -/
def inRegion (vs : List LayView) (v : LayView) (x y : Nat) : Bool :=
  v.covers x y && !vs.any (fun o => decide (v.slot < o.slot ∧ o.slot < 30) && o.occludes x y)

/-- Substitution over a composed pixel (R261, R262). -/
def substitute (vs : List LayView) (x y : Nat) (p : W32) : W32 :=
  let in_ (st : Nat) : Bool := vs.any (fun v => decide (v.slot < 30) && v.state == st && inRegion vs v x y)
  if in_ 4 then 0
  else if in_ 3 then rgbWord (stalePix x y (fld p 29 20) (fld p 19 10) (fld p 9 0))
  else p

/-- The age labels over the substituted pixel (R263, R264). -/
def Core.labelled (c : Core) (h : Nat) (k : Contract) (vs : List LayView) (x y : Nat) (p : W32) : W32 :=
  vs.foldl (fun p v =>
    match v.labelAt k.hActive k.vActive x y with
    | some (dx, dy) =>
      if v.slot < 30 && inRegion vs v x y then
        let i := dy * 104 + dx
        if (c.byte (c.labelArea h + 512 * v.slot + i / 8)).toNat.testBit (i % 8) then rgbWord (rindColour v.state) else 0
      else p
    | none => p) p

/-- A protected layer over the pixel (R222, R224, R260 to R262), and whether its coverage is nonzero. -/
def Core.overProt (c : Core) (late : Bool) (v : LayView) (x y salt : Nat) (d : Col × Bool) : Col × Bool :=
  if !v.covers x y then d
  else if late || v.state = 4 then (⟨0, 0, 0, 1⟩, true)
  else
    let s := c.viewPixel v x y salt
    let q : Pix := if v.state = 3 then
        let t := stalePix x y (to10 s.1 1) (to10 s.2.1 1) (to10 s.2.2.1 1)
        (rep12 10 t.1, rep12 10 t.2.1, rep12 10 t.2.2, s.2.2.2)
      else s
    let cover := decide (0 < v.galpha) && (v.mode = 0 || v.inOpq x y || decide (0 < s.2.2.2))
    (blend v.mode v.galpha (v.inOpq x y) q d.1, d.2 || cover || v.mode = 0)

/-- The rind over a pixel (R265 to R269, R271, R272): the highest severity among the layers whose rind holds it. `forced` is a
state that every rind takes, `other` the severity a disagreeing copy gives. -/
def rindOver (vs : List LayView) (en : W32) (w h : Nat) (forced other : Nat) (beat lostOnly cover : Bool) (frame : Bool) (x y : Nat) (p : W32) : W32 :=
  let sev := vs.foldl (fun m v =>
    if bit en v.slot && v.state != 0 && v.inRind w h x y && (decide (30 ≤ v.slot) || !cover)
    then max m (if forced = 0 then v.state else forced) else m) 0
  let edge := frame && (decide (x < 4) || decide (w ≤ x + 4) || decide (h ≤ y + 4))
  let sev := if edge then 5 else sev
  if sev = 0 then p else rindPix (if lostOnly then 4 else max sev other) x y beat

/-- The region-signature tap of a line (R168, R169). -/
def Core.tapLine (c : Core) (h y : Nat) (tap : List W32) : Core :=
  (List.range 128).foldl (fun c n =>
    let x := c.crc n
    let y0 := fld x.rPos 28 16
    let hh := fld x.rSize 28 16
    if !x.rOn || fld x.rHead 3 0 != h || x.rNew || decide (y < y0) || decide (y0 + hh ≤ y) then c
    else
      let px := (tap.drop (fld x.rPos 12 0)).take (fld x.rSize 12 0)
      let reg := px.foldl (fun r v => (leBytes 4 v.toNat).foldl (fun r b => c.crcAbsorb n r b.toNat) r) x.reg
      let c := c.setCrc n { x with reg := reg, rLines := x.rLines + 1 }
      if y + 1 < y0 + hh then c
      else if x.rLines + 1 ≠ hh then (c.crcErr n 5).setCrc n { x with rLines := 0, rDone := true }
      else
        let m := 2 ^ c.crcW n
        let out := c.crcOut n reg
        let a := out = c.rdPair (rg .CRC_REF0_LO n) (rg .CRC_REF0_HI n) % m
        let b := c.rdB (rg .CRC_REGION_HEAD n) 8 && out = c.rdPair (rg .CRC_REF1_LO n) (rg .CRC_REF1_HI n) % m
        let c := if a ∨ b then (c.setB (rg .CRC_STATUS n) 0 true).setB (rg .CRC_STATUS n) 7 (!a && b)
          else (c.setB (rg .CRC_STATUS n) 0 false).crcErr n 1
        let c := c.wr (rg .CRC_FRAME n) (c.rd (rg .HD_FRAME h))
        (c.setCrc n { c.crc n with rLines := 0, rDone := true }).crcInit n) c

/-- The views that an active line shows: the scanned strip's, or what R235 and R243 leave. -/
def Core.lineViews (c : Core) (h : Nat) (k : Contract) : List LayView :=
  let x := c.head h
  if x.unlatched then c.lostViews h k else if x.under.isSome then c.staleViews h k
  else match x.scan with | some r => r.views | none => []

/-- What the strip ring gives at a pixel of an active line; a direct plane's pixel in its place (R201, R239). -/
def Core.ringPixel (c : Core) (h : Nat) (k : Contract) (vs : List LayView) (i y : Nat) : W32 :=
  if isDirect k then
    match vs.find? (fun v => v.slot = 0) with
    | some v => if v.state = 4 then 0 else (blend 0 255 false (c.viewPixel v i y (y * k.hActive + i)) ⟨0, 0, 0, 1⟩).word
    | none => 0
  else w32 (c.load (ringLineAddr (snapF c.var (c.head h).act (rg .HD_COMP_RING h) 24 7 * 128) k y + 4 * i) 4)

/-- A pixel at the signature tap: ring or direct plane, substitution, labels, protected layers; and whether a protected layer covers
it (R236). -/
def Core.tapPixel (c : Core) (h : Nat) (k : Contract) (vs : List LayView) (late : Bool) (i y : Nat) : Col × Bool :=
  let x := c.head h
  let dark := x.unlatched || x.under.isSome
  let ring := if dark then 0 else c.ringPixel h k vs i y
  let s := if dark then ring else substitute vs i y ring
  let s := if x.labels && !dark then c.labelled h k vs i y s else s
  (vs.filter (fun v => decide (30 ≤ v.slot))).foldl (fun d v => c.overProt late v i y ((y * k.hActive + i) * 2 + v.slot) d) (colOf s, false)

/-- A tapped pixel under the rind (R265 to R269). After copies that disagreed on a state it takes the higher severity, which of the two
is wrong and what it says being unknown (R272). -/
def Core.outPixel (c : Core) (h : Nat) (k : Contract) (vs : List LayView) (bad : Nat) (q : Col × Bool) (i y : Nat) : W32 :=
  let x := c.head h
  let forced := if x.under.isSome then 5 else if c.rdB (rg .HD_STATUS h) 27 then 4 else 0
  let other := if bad = 1 then (Config.freeWord (c.free + 4 * k.hActive + i)).toNat % 6 else 0
  rindOver vs (c.rd (rg .HD_RIND_EN h)) k.hActive k.vActive forced other x.phase (bad = 2) q.2 x.under.isSome i y q.1.word

/-! ### Output conversion (R237) -/

/-- Weights of red and blue in luma, in ten-thousandths, by HD_OUT.matrix; code 0b11 names none. -/
def lumaWeights : Nat → Option (Nat × Nat)
  | 0 => some (2990, 1140)
  | 1 => some (2126, 722)
  | 2 => some (2627, 593)
  | _ => none

/-- A quotient of integers to the nearest integer, held in 10 bits. -/
def near10 (n d : Int) : Nat := min 1023 ((2 * n + d) / (2 * d)).toNat

/-- A 10-bit RGB pixel as 10-bit YCbCr, rounded to nearest (log entry 221). -/
def yccOf (full : Bool) (wr wb : Nat) (p : W32) : Nat × Nat × Nat :=
  let r : Int := fld p 29 20
  let g : Int := fld p 19 10
  let b : Int := fld p 9 0
  let y : Int := wr * r + (10000 - wr - wb) * g + wb * b
  let chroma (v : Int) (w : Int) : Nat :=
    near10 (512 * (1023 * 2 * (10000 - w)) + (if full then 1023 else 896) * (10000 * v - y)) (1023 * 2 * (10000 - w))
  (near10 ((if full then 0 else 64 * 10230000) + (if full then 1023 else 876) * y) 10230000, chroma b wb, chroma r wr)

/-- A line after the output conversion. `before` is the line above it. Components are 10-bit codes until the reduction to 8 bits, which rounds,
or with dither goes to one of the two codes around the value, the pattern being the implementation's. -/
def convLine (o : W32) (free y : Nat) (line before : List W32) : List (Nat × Option (Nat × Nat)) :=
  let fmt := fld o 1 0
  let any (i : Nat) : Nat := (Config.freeWord (free + i)).toNat
  let cut (i v : Nat) : Nat := if bit o 2 then v else if bit o 6 then min 255 (v / 4 + (if v % 4 = 0 then 0 else any i % 2)) else min 255 ((v + 2) / 4)
  let ycc (i : Nat) (p : W32) : Nat × Nat × Nat := match lumaWeights (fld o 4 3) with
    | some w => yccOf (bit o 5) w.1 w.2 p
    | none => (any i % 1024, any (i + 1) % 1024, any (i + 2) % 1024)
  (List.range line.length).map (fun i =>
    let p := line.getD i 0
    let q := ycc (4 * i) p
    let out (a b c : Nat) : Nat × Option (Nat × Nat) := (cut (4 * i) a, some (cut (4 * i + 1) b, cut (4 * i + 2) c))
    let pair (l : List W32) : Nat × Nat :=
      let a := ycc (4 * i) (l.getD i 0)
      let b := ycc (4 * i) (l.getD (i + 1) 0)
      (a.2.1 + b.2.1, a.2.2 + b.2.2)
    if fmt = 0 then out (fld p 29 20) (fld p 19 10) (fld p 9 0)
    else if fmt = 1 then out q.1 q.2.1 q.2.2
    else if i % 2 = 1 then (cut (4 * i) q.1, none)
    else if fmt = 2 then out q.1 (((pair line).1 + 1) / 2) (((pair line).2 + 1) / 2)
    else if y % 2 = 0 then (cut (4 * i) q.1, none)
    else out q.1 (((pair line).1 + (pair before).1 + 2) / 4) (((pair line).2 + (pair before).2 + 2) / 4))

/-- An active line leaves the head (R236): ring or direct plane, substitution, protected layers, tap, rind, witness tap, output
conversion. -/
def Core.activeLine (c : Core) (h : Nat) (k : Contract) (y : Nat) (protLate : Bool) (rindChk : Nat) : Core :=
  let x := c.head h
  let vs := c.lineViews h k
  let w := k.hActive
  let late := protLate && vs.any (fun v => decide (30 ≤ v.slot) && decide (v.y ≤ (y : Int) ∧ (y : Int) < v.y + v.h))
  let px := (List.range w).map (fun i => c.tapPixel h k vs late i y)
  let c := if isDirect k || x.unlatched || x.under.isSome then c
    else (c.unitRead (c.headClient h) (ringLineAddr (snapF c.var x.act (rg .HD_COMP_RING h) 24 7 * 128) k y) (4 * w)).1
  let c : Core := { c with free := c.free + 2 * w * k.vActive + 64 }
  let tap := px.map (fun p => p.1.word)
  let c := if late then ((c.addSat (rg .HD_COMP_STATUS h) 23 16 1).setB (rg .HD_EVT h) 5 true) else c
  let c := c.tapLine h y tap
  let first := rindChk ≠ 0 ∧ x.rindBad = 0
  let c := if first then ((c.setB (rg .HD_FRESH_STATUS h) 1 true).setB (rg .HD_EVT h) 5 true).fault (96 + 8 * h + 5) (c.rdN (rg .HD_FRAME h)) y
    else c
  let bad := if first then rindChk else x.rindBad
  let out := (px.zip (List.range w)).map (fun q => c.outPixel h k vs bad q.1 q.2 y)
  let x := c.head h
  let conv := convLine (x.inForce 2) c.free y out x.out
  let c : Core := { c with free := c.free + 5 * w }
  (c.setHead h { x with tap := tap, out := out, conv := conv, rindBad := bad }).witTap h k y out

/-! ### The commands -/

/-- HEAD_LINE_START: the head's next line begins. `ringLate` tells that its ring data did not come in time, `protLate` that a
protected layer's did not, `rindChk` that the rind copies disagree (1) or disagree on the beat alone (2). -/
def execHeadLineStart (h : Nat) (ringLate protLate : Bool) (rindChk : Nat) (s : State) : Host.Outcome State Fault Refusal :=
  run s (fun c => match (c.head h).con with
    | none => c
    | some k =>
      if !c.scanning h then c else
      let q := c.nextLine h k
      let x := c.head h
      let firstExt := q.2.2 && !c.rdB (rg .HD_STATUS h) 28
      let blank := q.1 = k.vActive && (!q.2.2 || firstExt) && !c.rdB (rg .HD_STATUS h) 28
      let blankAt := if blank then c.nextBlankPs k x else x.blankAt
      let ext := if blank then (if q.2.2 then 1 else 0) else q.2.1
      let at_ := if blank then blankAt else blankAt + c.linesPs k (sinceBlank k q.1 ext q.2.2)
      let c := c.upTo at_
      let c := (c.setF (rg .HD_STATUS h) 12 0 q.1).setB (rg .HD_STATUS h) 28 q.2.2
      let used := q.1 = fpEnd k x && !q.2.2
      let c := c.setHead h { x with lineAt := at_, blankAt := blankAt, ext := ext, trig := x.trig && !used
                                    tickIdx := if blank then x.tickIdx + 1 else x.tickIdx, doneDue := x.doneDue || blank }
      let c := if blank then c.blankStart h else c
      if !c.scanning h then c else
      let x := c.head h
      let m := x.inForce 4
      let c := if bit m 31 && fld m 12 0 = q.1 && (!q.2.2 || firstExt) && !(q.1 = fpEnd k x && !q.2.2 && decide (0 < ext))
        then c.setB (rg .HD_EVT h) 1 true else c
      let c := if !q.2.2 || firstExt then c.trigLine h q.1 else c
      let c := if q.2.2 then c.windows h k else c
      if q.1 < k.vActive then
        let x := c.head h
        let c := if q.1 = 0 then
            let j := x.tickIdx
            let p := if k.hMode = 1 then j % 2 = 1 else c.rdN (rg .HD_FRAME h) % 2 = 1
            (c.setHead h { x with phase := p, unlatched := x.unlatched && x.line0 = 0 }).veeLine0 h
          else c
        let y := c.head h
        let c := if (ringLate || (!isDirect k && !y.unlatched && y.scan.map (fun r => r.k) != some (q.1 / k.hStrip))) && !y.unlatched
          then c.underrun h q.1 else c
        c.activeLine h k q.1 protLate rindChk
      else c)

/-- RASTER_START: both conditions hold; a locked head begins at the first master boundary at least 1 ms later, any other within
1 ms (R235). It begins at line V_active. -/
def execRasterStart (h : Nat) (s : State) : Host.Outcome State Fault Refusal :=
  run s (fun c => match (c.head h).bothAt, c.headCon h with
    | some t, some k =>
      if c.scanning h ∨ !c.rdB (rg .HD_CTRL h) 0 then c else
      let b := c.nextBoundaryAt (c.ptpOf (t + 999) + 1000000)
      let at_ := if k.hMode = 1 then c.psOf (c.boundaryNs b) else max c.now t
      let c := c.upTo at_
      let j := if k.hMode = 1 then b * k.hN / k.hD else 0
      let x := c.head h
      let c := c.setHead h { x with con := some k, bothAt := none, lineAt := at_, blankAt := at_, base := at_, baseIdx := j, tickIdx := j
                                    line0 := 0, unlatched := true, ext := 0, trig := false, doneDue := false, scan := none, next := none
                                    due := none, fresh := [], latched := [] }
      let c := (c.setB (rg .HD_STATUS h) 30 true).setF (rg .HD_STATUS h) 12 0 k.vActive
      (c.blankStart h).trigLine h k.vActive
    | _, _ => c)

/-- FRAME_DONE: the frame's last pixel has left the output conversion, at most 4 µs after the blanking began (R241); its
TEST_CRC values, over converted pixels, are free values (R251). -/
def execFrameDone (h : Nat) (s : State) : Host.Outcome State Fault Refusal :=
  run s (fun c =>
    let x := c.head h
    if !x.doneDue then c else
    let f (i : Nat) : Nat := (Config.freeWord (c.free + i)).toNat % 65536
    let c := c.setHead h { x with doneDue := false, frames := x.frames + 1, crcs := ([f 0, f 1, f 2] :: x.crcs).take 15 }
    ({ c with free := c.free + 3 } : Core).setB (rg .HD_EVT h) 2 true)

/-! ### Channel power (R150) -/

/-- CHANNEL_POWER_DOWN: a channel with nothing queued or due, once it has been idle for its time, enters POWER-DOWN or SELF-REFRESH when
enabled and its exit time fits every tolerance (R150). -/
def execChannelPowerDown (ch : Nat) (selfRefresh : Bool) (s : State) : Host.Outcome State Fault Refusal :=
  run s (fun c =>
    let exit := if selfRefresh then 600 else 30
    let busy := c.dmc.reqs.any (fun r => (c.reqChans r).contains ch) || c.dmc.training == some ch || c.dmc.corrQ.any (fun a => c.chan a = ch)
    let en := c.rdB (rg0 .DMC_PD_CFG) (if selfRefresh then 17 else 16)
    if ch < c.counts.dram ∧ (c.chState ch = 1 ∨ (selfRefresh ∧ c.chState ch = 2)) ∧ !busy ∧ en ∧ exit ≤ c.headTol ∧ exit ≤ c.halfTarget
    then (c.upTo (kget 0 c.dmc.lastUse ch + c.idleFor selfRefresh)).setChState ch (if selfRefresh then 3 else 2) else c)

/-- A head reset (R417): the raster stops at once; registers not set by contracts return to reset values; HD_FRAME and the layer
blocks stay; it restarts under R235. -/
def Core.headReset (c : Core) (h : Nat) : Core :=
  let c := c.crcMissed h
  let c := c.headStop h
  let fs : List Fam := [.HD_CTRL, .HD_HSYNC, .HD_VSYNC, .HD_ADAPT, .HD_LINE_MATCH, .HD_OUT, .HD_QUIET, .HD_EVT, .HD_UNDERRUN,
    .HD_UNDERRUN_INFO, .HD_RIND_EN, .HD_FRESH_LABEL, .HD_FRESH_STATUS, .HD_STALE_CNT, .HD_LOST_CNT, .HD_FUTURE_CNT,
    .HD_COMP_RING, .HD_BGCOLOR, .HD_COMP_STATUS, .HD_WHEY_TOTAL_LO, .HD_WHEY_TOTAL_HI, .HD_FETCH_TOTAL_LO, .HD_FETCH_TOTAL_HI]
  let keep := c.rdB (rg .HD_FRESH_STATUS h) 3
  let c := fs.foldl (fun c f => c.set (rg f h) (regReset c.var (rg f h))) c
  let c := (List.range 32).foldl (fun c s => c.wr (rg2 .HD_FRESH_AGE h s) 0) c
  let c := (List.range 4).foldl (fun c i => c.wr (rg2 .HD_FRESH_STATE h i) 0) c
  let c := (c.setB (rg .HD_STATUS h) 27 false).setB (rg .HD_FRESH_STATUS h) 3 keep
  let x := c.head h
  c.setHead h { x with fresh := [], latched := [], misses := 0, bothAt := none }

end Sys2Proof.Machine
end

