-- ==== Sys2Proof/Machine/Dpt.lean ====
section
/-! DEFINITION. DisplayPort transmitters (R246 to R251): training, link loss, the payload check, AUX, sink CRC readback. -/

namespace Sys2Proof.Machine

open Sys2Proof

def Core.dpt (c : Core) (t : Nat) : Dpt := kget {} c.dpts t
def Core.setDpt (c : Core) (t : Nat) (x : Dpt) : Core := { c with dpts := kset {} c.dpts t x }
def Core.dptPresent (c : Core) (t : Nat) : Bool := decide (2 * t < c.counts.heads)
def Core.trained (c : Core) (t : Nat) : Bool := c.rdB (rg .DPT_STATUS t) 29

/-- Streams that software requests in the mode set (DPT_CTRL.mode, DPT_STREAM.en). -/
def Core.wanted (c : Core) (t : Nat) : List Nat :=
  let m := c.rdF (rg .DPT_CTRL t) 6 5
  ([0, 1].filter (fun s => m = 2 || m = s)).filter (fun s => c.rdB (rg2 .DPT_STREAM t s) 31)

/-- Bits per second of a stream, times 16 (R247). -/
def Core.streamBits (c : Core) (t s : Nat) : Nat :=
  let h := 2 * t + s
  match c.headCon h with
  | none => 0
  | some k =>
    let p := headPix c.fM k
    let st := c.rd (rg2 .DPT_STREAM t s)
    let o := c.rd (rg .HD_OUT h)
    let bpc := if bit o 2 then 10 else 8
    let b16 := if bit st 30 then fld st 25 16 else match fld o 1 0 with | 2 => 32 * bpc | 3 => 24 * bpc | _ => 48 * bpc
    ceilDiv (p.1 * b16) p.2

/-- Link rates in Mb/s per lane. -/
def linkMbps : Nat → Nat
  | 1 => 1620 | 2 => 2700 | 3 => 5400 | 4 => 8100 | 8 => 10000 | 9 => 13500 | 10 => 20000 | _ => 0

/-- Payload of the trained link in bits per second, times 16 (R247). -/
def Core.payload (c : Core) (t : Nat) : Nat :=
  let v := c.rd (rg .DPT_STATUS t)
  let rate := fld v 28 25
  let raw := linkMbps rate * fld v 24 22 * 16
  let p := if rate < 8 then raw * 800000 * (if bit v 21 then 976 else 1000) / 1000 else raw * 967100
  if c.rdF (rg .DPT_CTRL t) 6 5 = 2 then p * 63 / 64 else p

/-- What a stream asks for lies outside the table of R246: DSC beyond its slice heights and targets, MST in eDP mode (log entry 222). -/
def Core.unsupported (c : Core) (t s : Nat) : Bool :=
  let st := c.rd (rg2 .DPT_STREAM t s)
  let bpc := if c.rdB (rg .HD_OUT (2 * t + s)) 2 then 10 else 8
  let dsc := match c.headCon (2 * t + s) with
    | some k => fld st 12 0 < 8 || k.vActive % fld st 12 0 != 0 || fld st 25 16 < 128 || decide (48 * bpc ≤ fld st 25 16)
    | none => false
  (bit st 30 && dsc) || (c.rdB (rg .DPT_CTRL t) 4 && c.rdF (rg .DPT_CTRL t) 6 5 = 2)

/-- The check of R247, stream by stream: those enabled, and the errors of those that stay off. -/
def Core.streamCheck (c : Core) (t : Nat) : Core :=
  if !c.trained t || !c.rdB (rg .DPT_CTRL t) 0 then let x := c.dpt t; c.setDpt t { x with on := [] }
  else
    let r := (c.wanted t).foldl (fun (r : Core × Nat × List (Nat × Bool)) s =>
      let (c, used, on) := r
      let dsc := c.rdB (rg2 .DPT_STREAM t s) 30
      let coded := decide (8 ≤ c.rdF (rg .DPT_STATUS t) 28 25)
      let adaptive := match c.headCon (2 * t + s) with | some k => k.hMode = 3 | none => false
      let cap := c.unsupported t s || (dsc && !coded && !c.rdB (rg .DPT_STATUS t) 21) || (adaptive && !(c.dpt t).sinkMsa)
      let need := used + c.streamBits t s
      if cap then (((c.setB (rg .DPT_STATUS t) 4 true).setB (rg .HD_EVT (2 * t + s)) 7 true), used, on)
      else if c.payload t < need then (((c.setB (rg .DPT_STATUS t) 3 true).setB (rg .HD_EVT (2 * t + s)) 7 true), used, on)
      else (c, need, on ++ [(s, true)])) (c, 0, [])
    let x := r.1.dpt t
    r.1.setDpt t { x with on := r.2.2 }

/-- Training begins (R248). -/
def Core.dptTrain (c : Core) (t : Nat) : Core :=
  if c.dptPresent t && c.rdB (rg .DPT_CTRL t) 0 then
    let x := c.dpt t
    ((c.setDpt t { x with training := true, on := [] }).setB (rg .DPT_STATUS t) 29 false)
  else c

/-- DPT_CTRL written. -/
def Core.dptCtrl (c : Core) (t : Nat) (v : W32) : Core :=
  let c := c.wr (rg .DPT_CTRL t) (v &&& 0x79)
  if bit v 1 then c.dptTrain t else c.streamCheck t

/-- LINK_TRAIN: cause 0 a request already written, 1 hot-plug detect rose, 2 loss of lock reported (R248). -/
def execLinkTrain (t cause : Nat) (s : State) : Host.Outcome State Fault Refusal :=
  run s (fun c =>
    if !c.dptPresent t then c
    else if cause = 1 then (c.setB (rg .DPT_STATUS t) 30 true).dptTrain t
    else c.dptTrain t)

/-- The link is lost (R249): link_lost, bit 7 of each head whose stream it carries, the journal. -/
def Core.linkLost (c : Core) (t : Nat) : Core :=
  let x := c.dpt t
  let carried := (c.wanted t).map (fun s => 2 * t + s)
  let c := (c.setB (rg .DPT_STATUS t) 2 true).setB (rg .DPT_STATUS t) 29 false
  let c := carried.foldl (fun c h => c.setB (rg .HD_EVT h) 7 true) c
  let c := c.setDpt t { x with training := false, on := [] }
  c.fault (96 + 16 * t + 7) t 0

/-- LINK_TRAINING_DONE: `rate` 0 for no configuration; while the starter runs, link 0's failure shows as tt_fail (R414). Without fallback only the first configuration tried may stand. -/
def execLinkTrainingDone (t rate lanes : Nat) (fec lttpr : Bool) (sinkRate sinkLanes : Nat) (sinkCrc sinkMsa : Bool) (s : State) :
    Host.Outcome State Fault Refusal :=
  run s (fun c =>
    let x := c.dpt t
    if !x.training then c else
    let r0 := min (c.rdF (rg .DPT_LINK t) 3 0) sinkRate
    let l0 := min (c.rdF (rg .DPT_LINK t) 6 4) sinkLanes
    let good := linkMbps rate ≠ 0 ∧ rate ≤ r0 ∧ lanes ≤ l0 ∧ (lanes = 1 ∨ lanes = 2 ∨ lanes = 4) ∧
      (c.rdB (rg .DPT_CTRL t) 3 ∨ (rate = r0 ∧ lanes = l0))
    let c := c.setDpt t { x with training := false, sinkCrc := sinkCrc, sinkMsa := sinkMsa }
    if good then
      let v := setFld (setFld (c.rd (rg .DPT_STATUS t)) 28 25 rate) 24 22 lanes
      let v := setBit (setBit (setBit v 29 true) 21 (fec && decide (rate < 8))) 20 lttpr
      (c.set (rg .DPT_STATUS t) v).streamCheck t
    else
      let c := if t = 0 && c.boot.starter then c.setB (rg0 .SYS_BOOT_STATUS) 27 true else c
      (c.setB (rg .DPT_STATUS t) 1 true).linkLost t)

/-- HPD_LOSS: hot-plug detect low for more than 2 ms. -/
def execHpdLoss (t : Nat) (s : State) : Host.Outcome State Fault Refusal :=
  run s (fun c => if c.dptPresent t then (c.setB (rg .DPT_STATUS t) 30 false).linkLost t else c)

/-- IRQ_HPD: a pulse of 0.5 to 1 ms. -/
def execIrqHpd (t : Nat) (lockLost : Bool) (s : State) : Host.Outcome State Fault Refusal :=
  run s (fun c =>
    if !c.dptPresent t then c else
    let c := c.setB (rg .DPT_STATUS t) 0 true
    if lockLost then c.dptTrain t else c)

/-- LINK_LOSS: a trained link is lost. -/
def execLinkLoss (t : Nat) (s : State) : Host.Outcome State Fault Refusal :=
  run s (fun c => if c.trained t then c.linkLost t else c)

/-! ### AUX (R250) -/

/-- DPT_AUX_CMD written. -/
def Core.auxCmd (c : Core) (t : Nat) (v : W32) : Core :=
  let x := c.dpt t
  let op := fld v 31 28
  if op ≠ 8 ∧ op ≠ 9 ∧ op ≠ 0 ∧ op ≠ 1 then c
  else if x.aux.isSome then c.setB (rg .DPT_AUX_STATUS t) 30 true
  else (c.setDpt t { x with aux := some v, retries := 0 }).wr (rg .DPT_AUX_STATUS t) 0x80000000

/-- A transaction ends: reply code, bytes returned, read data. -/
def Core.auxEnd (c : Core) (t reply : Nat) (data : List Byte) : Core :=
  let x := c.dpt t
  match x.aux with
  | none => c
  | some v =>
    let rd := fld v 31 28 % 2 = 1 && reply = 0
    let bs := if rd then data.take (fld v 27 24 + 1) else []
    let c := c.setDpt t { x with aux := none, retries := 0 }
    let refused := c.rdB (rg .DPT_AUX_STATUS t) 30
    let c := c.wr (rg .DPT_AUX_STATUS t) (w32 ((if refused then 1073741824 else 0) + reply % 4 * 268435456 + bs.length % 32))
    if rd then
      (List.range 4).foldl (fun c i =>
        let old := leBytes 4 (c.rd (rg2 .DPT_AUX_DATA t i)).toNat
        let new := (bs.drop (4 * i)).take 4
        c.wr (rg2 .DPT_AUX_DATA t i) (w32 (leNat (new ++ old.drop new.length)))) c
    else c

/-- AUX_REPLY: 0 ACK, 1 NACK, 3 timeout; a DEFER (2) is AUX_DEFER_RETRY's until the retries are spent. -/
def execAuxReply (t reply : Nat) (data : List Byte) (s : State) : Host.Outcome State Fault Refusal :=
  run s (fun c => if reply % 4 = 2 ∧ (c.dpt t).retries < 7 then c else c.auxEnd t (reply % 4) data)

/-- AUX_DEFER_RETRY: retried up to 7 times at 400 µs intervals; then the DEFER limit. -/
def execAuxDeferRetry (t : Nat) (s : State) : Host.Outcome State Fault Refusal :=
  run s (fun c =>
    let x := c.dpt t
    if x.aux.isNone then c
    else if x.retries < 7 then (c.upTo (c.now + 400000000)).setDpt t { x with retries := x.retries + 1 }
    else c.auxEnd t 2 [])

/-! ### Sink CRC readback (R251) -/

/-- The sink's CRC of a stream is compared: readback on, support reported, the stream on the link, DSC off (R251). -/
def Core.sinkRead (c : Core) (t s : Nat) : Bool :=
  c.rdB (rg .DPT_SINKCRC t) 31 && (c.dpt t).sinkCrc && kget false (c.dpt t).on s && !c.rdB (rg2 .DPT_STREAM t s) 30 && decide (s ≤ 1)

/-- DPT_SINKCRC_STAT as it reads: avail only while a comparison runs. -/
def Core.sinkStat (c : Core) (t : Nat) : W32 :=
  let v := c.rd (rg .DPT_SINKCRC_STAT t)
  setBit v 7 (bit v 7 && [0, 1].any (c.sinkRead t))

/-- SINK_CRC_RESULT: a reading of TEST_CRC, its three values in 16-bit fields, R_Cr highest; `ok` tells that AUX succeeded.
One reading is made every period frames. -/
def execSinkCrcResult (t stream : Nat) (ok : Bool) (crc : Nat) (s : State) : Host.Outcome State Fault Refusal :=
  run s (fun c =>
    let h := 2 * t + stream
    let cfg := c.rd (rg .DPT_SINKCRC t)
    let st := rg .DPT_SINKCRC_STAT t
    let due := (c.head h).crcAt + max 1 (fld cfg 23 16)
    if !c.sinkRead t stream then c.setB st 7 false
    else if (c.head h).frames < due then c
    else
      let x : Head := { c.head h with crcAt := (c.head h).frames }
      if !ok then
        let c := (c.addSat st 15 8 1).setHead h { x with auxBad := x.auxBad + 1 }
        if 2 ≤ x.auxBad then c.setB st 7 false else c
      else
        let c := c.setB st 7 true
        let win := max 1 (fld cfg 11 8)
        let v := [crc / 4294967296 % 65536, crc / 65536 % 65536, crc % 65536]
        if (x.crcs.take win).contains v then
          (c.setHead h { x with misses := 0, auxBad := 0 }).setB (rg .HD_STATUS h) 27 false
        else
          let c := c.setHead h { x with misses := x.misses + 1, auxBad := 0 }
          let c := ((c.setB (rg .HD_EVT h) 6 true).addSat st 31 16 1).faultOnce (2 ^ 86 + t) blockOrigin (w32 (96 + 8 * h + 6)) (w32 h) 0
          if max 1 (fld cfg 7 0) ≤ x.misses + 1 ∧ !c.rdB (rg .HD_STATUS h) 27 then
            ((c.setB (rg .HD_STATUS h) 27 true).setB (rg .HD_EVT h) 5 true).fault (96 + 8 * h + 5) h 0x271
          else c)

end Sys2Proof.Machine
end

