-- ==== Sys2Proof/Machine/Audio.lean ====
section
/-! DEFINITION. Audio (R315 to R331): the mixer sample by sample, endpoints, chimes, silence detection. -/

namespace Sys2Proof.Machine

open Sys2Proof

def Core.setAud (c : Core) (x : Aud) : Core := { c with aud := x }
def Core.audDom (c : Core) (d : Nat) : AudDom := kget {} c.aud.doms d
def Core.setAudDom (c : Core) (d : Nat) (x : AudDom) : Core := c.setAud { c.aud with doms := kset {} c.aud.doms d x }
def Core.audOut (c : Core) (o : Nat) : AudOut := kget {} c.aud.outs o
def Core.setAudOut (c : Core) (o : Nat) (x : AudOut) : Core := c.setAud { c.aud with outs := kset {} c.aud.outs o x }
def Core.audPin (c : Core) (p : Nat) : AudPin := kget {} c.aud.pins p
def Core.setAudPin (c : Core) (p : Nat) (x : AudPin) : Core := c.setAud { c.aud with pins := kset {} c.aud.pins p x }
def Core.voice (c : Core) (v : Nat) : Voice := kget {} c.aud.voices v
def Core.setVoice (c : Core) (v : Nat) (x : Voice) : Core := c.setAud { c.aud with voices := kset {} c.aud.voices v x }
def Core.audEvt (c : Core) (i : Nat) : Core := c.setB (rg0 .AUD_EVT) i true

/-! ### Contracts of inputs, outputs and endpoints (R318) -/

def Core.audCons (c : Core) : List Contract := c.adm.live.filter (fun y => y.kind = kAUDIO)
def inFirst (y : Contract) : Nat := y.f 7 31 24
def inCount (y : Contract) : Nat := y.f 5 31 24
def outFirst (y : Contract) : Nat := y.f 7 23 16
def outCount (y : Contract) : Nat := y.f 5 23 16
/-- The contract that holds a mixer input, or output. -/
def Core.inCon (c : Core) (i : Nat) : Option Contract := c.audCons.find? (fun y => decide (inFirst y ≤ i ∧ i < inFirst y + inCount y))
def Core.outCon (c : Core) (o : Nat) : Option Contract := c.audCons.find? (fun y => decide (outFirst y ≤ o ∧ o < outFirst y + outCount y))
def Core.audRate (c : Core) (d : Nat) : Nat := c.rdF (rg .AUD_DOM d) 17 0
def Core.audOn (c : Core) (d : Nat) : Bool := decide (d < 3) && c.rdB (rg .AUD_DOM d) 31 && decide (0 < c.audRate d)
/-- Domain of a TDM port. -/
def Core.tdmDom (c : Core) (t : Nat) : Nat := c.rdF (rg .AUD_TDM_CFG t) 13 12

/-- A 32-bit sample as an integer, and an integer saturated to one (R325). -/
def sInt (v : W32) : Int := v.toInt
def sat32 (i : Int) : Int := max (-2147483648) (min 2147483647 i)
def sWord (i : Int) : W32 := BitVec.ofInt 32 i

/-- A quotient by a power of two: exact where it divides; otherwise one of the two integers around it, by a free bit, the spec
giving no rounding (log entry 45). -/
def roundQ (n : Int) (d : Nat) (w : W64) : Int := n / (d : Int) + (if n % (d : Int) = 0 then 0 else if w.toNat % 2 = 1 then 1 else 0)

/-! ### Domains (R315) -/

/-- Instant in ps of sample `s`. -/
def Core.sampleAt (c : Core) (d s : Nat) : Nat :=
  let t := (c.audDom d).origin + s * 1000000000000 / max 1 (c.audRate d)
  if d = 1 then t else ((t : Int) - c.ptpOff * 1000).toNat

/-- A domain begins at a rate: samples of A and C count from PTP time 0, those of B from now (R315). -/
def Core.audStart (c : Core) (d rate : Nat) (locked : Bool) : Core :=
  let c := c.wr (rg .AUD_DOM d) (w32 (2147483648 + (if locked then 1073741824 else 0) + rate % 262144))
  let x := c.audDom d
  if d = 1 then (if locked then (c.setAudDom d { x with origin := c.now, pos := 0 }).wr (rg .AUD_POS d) 0 else c)
  else
    let p := ceilDiv (((c.now : Int) + c.ptpOff * 1000).toNat * rate) 1000000000000
    (c.setAudDom d { x with pos := p }).wr (rg .AUD_POS d) (w32 (p / 16 * 16))

def Core.audStop (c : Core) (d : Nat) : Core := (c.setAudDom d {}).wr (rg .AUD_DOM d) 0

/-! ### Inputs (R317, R322 to R325) -/

/-- Streams of network receive that feed an input: channel `i − first` (R322). -/
def Core.netIn (c : Core) (i : Nat) : Option (Nat × Nat × Nat) :=
  (List.range 4).findSome? (fun n => (List.range 8).findSome? (fun k =>
    let v := c.rd (rg2 .AUD_NS_CFG n k)
    let f := fld v 21 15
    if bit v 31 ∧ f ≤ i ∧ i < f + fld v 26 22 + 1 then some (n, k, i - f) else none))

/-- The sample an input carries at sample `s`, and whether a network sample was late; a bridge's is a free value, the converter's
arithmetic not being given (R324). -/
def Core.inSample (c : Core) (i s : Nat) : W32 × Option (Nat × Nat) :=
  let v := c.rd (rg .AUD_IN_CFG i)
  match c.inCon i with
  | none => (0, none)
  | some y =>
    if !bit v 28 || c.ownerStopped y.sub then (0, none)
    else match fld v 31 30 with
      | 0 =>
        let fr := kget [] c.aud.rx (fld v 13 8)
        (((fr.find? (fun p => p.1 + 16 = s)).map (fun p => p.2.getD (fld v 4 0) 0)).getD 0, none)
      | 1 => match c.netIn i with
        | none => (0, none)
        | some (n, k, ch) =>
          match (kget [] c.aud.net (16 * n + k)).find? (fun p => p.1 = s) with
          | some p => (p.2.getD ch 0, none)
          | none => (0, some (n, k))
      | 2 =>
        let r := fld v 13 8
        let chans := c.rdF (rg .AUD_RING_CFG r) 29 24 + 1
        ((kget [] c.aud.play r).getD (s % 16 * chans + fld v 4 0) 0, none)
      | _ => (w32 (Config.freeWord (c.free + 1 + i)).toNat, none)

/-! ### Outputs -/

/-- A consumer that silence detection cannot serve: a bridge, a transmit stream or a capture ring (R329). -/
def Core.silNa (c : Core) (o : Nat) : Bool :=
  c.audCons.any (fun y => y.f 5 15 8 != 255 && (List.range (y.f 5 7 0)).any (fun k =>
    let ch := y.f 7 15 8 + k
    c.rdF (rg2 .AUD_BR_SEL (y.f 5 15 8) (ch / 4)) (ch % 4 * 8 + 7) (ch % 4 * 8) == o)) ||
  (List.range 4).any (fun n => (List.range 8).any (fun k =>
    let v := c.rd (rg2 .AUD_NS_CFG n (k + 8))
    bit v 31 && decide (fld v 21 15 ≤ o ∧ o < fld v 21 15 + fld v 26 22 + 1))) ||
  (List.range 8).any (fun r =>
    let v := c.rd (rg .AUD_RING_CFG r)
    bit v 31 && bit v 30 && decide (fld v 7 0 ≤ o ∧ o < fld v 7 0 + fld v 29 24 + 1))

/-- A voice plays on an output: one of its range, in its domain (R328). -/
def Core.voiceOn (c : Core) (v o : Nat) : Bool :=
  (c.voice v).on && (c.outCon o).map (fun y => y.unit) == some (c.voice v).dom && decide (c.rdF (rg .AUD_CHIME_CFG v) 13 8 ≤ o ∧ o < c.rdF (rg .AUD_CHIME_CFG v) 13 8 + c.rdF (rg .AUD_CHIME_CFG v) 19 14 + 1)

/-- The audio block as a requester of the Shared Store, for a submitter: store port 8 (R133, R323). -/
def audClient (win : Nat) : Client := { tag := { ownerOf win with granted := true }, cls := 5, no := 8, port := 29, ss := 8 }

/-- The samples of the voices that play in domain `d` at sample `s`: 32-bit words of their sounds, read through that port. -/
def Core.chimeWords (c : Core) (d s : Nat) : Core × List (Nat × W32) :=
  (List.range 4).foldl (fun (r : Core × List (Nat × W32)) v =>
    let x := r.1.voice v
    if x.on && x.dom == d && decide (x.fromPos ≤ s) then
      let y := r.1.unitRead (audClient 64) (r.1.rdF (rg .AUD_CHIME_SRC v) 24 7 * 128 + 4 * x.pos) 4
      (y.1, r.2 ++ [(v, if y.2.2 = 0 then w32 (leNat y.2.1) else 0)])
    else r) (c, [])

/-- The chime sum on an output (R328): the voices' samples, each at its gain. -/
def Core.chimeSum (c : Core) (o salt : Nat) (words : List (Nat × W32)) : Int :=
  words.foldl (fun (m : Int) p =>
    if c.voiceOn p.1 o then
      m + roundQ (sInt p.2 * (c.rdF (rg .AUD_CHIME_CFG p.1) 7 0 : Int)) 128 (Config.freeWord (salt + p.1))
    else m) 0

/-- |y| below the threshold of R329: |y| × 10^(thresh ÷ 20) < 2^31, in whole numbers. -/
def belowT (y : Int) (thresh : Nat) : Bool := decide (y.natAbs ^ 20 * 10 ^ max 1 thresh < 2 ^ 620)

/-- The pin an output takes part in, and the outputs on a pin that are enabled. -/
def Core.pinOf (c : Core) (o : Nat) : Option Nat :=
  let v := c.rd (rg .AUD_OUT_SIL o)
  if bit v 30 then some (fld v 27 24) else none
def Core.pinOuts (c : Core) (p : Nat) : List Nat := (List.range 64).filter (fun o => c.pinOf o = some p)

/-- An output wakes: its pin is asserted, and it resumes after the pin's wake time (R328, R329). -/
def Core.audWake (c : Core) (o : Nat) : Core :=
  let x := c.audOut o
  match c.pinOf o with
  | some p =>
    let q := c.audPin p
    let t := c.now + c.rdF (rg .AUD_AMPEN p) 15 0 * 1000000000
    let c := if q.asserted then c else c.setAudPin p { asserted := true, wakeAt := t }
    let c := c.setAudOut o { x with down := false, waking := decide (c.now < (c.audPin p).wakeAt), quiet := 0 }
    ((c.setB (rg .AUD_OUT_STATUS o) 31 false).audEvt 17).fault 849 o 0
  | none => (((c.setAudOut o { x with down := false, waking := false, quiet := 0 }).setB (rg .AUD_OUT_STATUS o) 31 false).audEvt 17).fault 849 o 0

/-- AUD_OUT_STATUS as it reads: silence detection unavailable, a chime playing (R329, R332). -/
def Core.outStatus (c : Core) (o : Nat) : W32 :=
  setBit (setBit (c.rd (rg .AUD_OUT_STATUS o)) 30 (c.silNa o)) 29 ((List.range 4).any (fun v => c.voiceOn v o))

/-- One output's sample (R325, R328 to R330). `xs` are the inputs of the domain with their samples, `words` the chimes' samples. A saturation
of the mix and one after the chimes count each; an output that silence detection no longer serves wakes. -/
def Core.mixOut (c : Core) (o : Nat) (y : Contract) (xs : List (Nat × Contract × W32)) (words : List (Nat × W32)) : Core :=
  let salt := c.free
  let acc : Int := xs.foldl (fun (a : Int) q =>
    let v := c.rd (rg2 .AUD_XP o q.1)
    let same := q.2.1.sub = y.sub ∨ bit (c.rd (rg .AUD_IN_CFG q.1)) 29
    let t := sInt q.2.2 * (fld v 15 0 : Int)
    if same then (if bit v 16 then a - t else a + t) else a) 0
  let og := c.rd (rg .AUD_OUT_GAIN o)
  let g : Int := acc * (fld og 15 0 : Int)
  let y0 := roundQ (if bit og 16 then -g else g) 268435456 (Config.freeWord salt)
  let ch := c.chimeSum o (salt + 1) words
  let y1 := sat32 (sat32 y0 + ch)
  let clips := (if sat32 y0 = y0 then 0 else 1) + (if y1 = sat32 y0 + ch then 0 else 1)
  let c := if clips = 0 then c else (c.addSat (rg .AUD_OUT_STATUS o) 15 0 clips).audEvt 16
  let sil := c.rd (rg .AUD_OUT_SIL o)
  let na := c.silNa o
  let playing := (List.range 4).any (fun v => c.voiceOn v o)
  let watch := bit sil 31 && !na
  let quiet := belowT y1 (fld sil 23 16) && !playing
  let c := if (c.audOut o).down && !(watch && quiet) then c.audWake o else c
  let x := c.audOut o
  let waking := x.waking && (match c.pinOf o with | some p => decide (c.now < (c.audPin p).wakeAt) | none => false)
  let out : Int := if x.down || waking then 0 else if bit og 17 then sat32 ch else y1
  let w := sWord out
  let c := c.setAudOut o { x with quiet := if watch && quiet then x.quiet + 1 else 0, waking := waking, peak := max x.peak out.natAbs, hist := (w :: x.hist).take 192 }
  { c with free := c.free + 5 }

/-- The contract whose inputs or outputs a ring of one owner exchanges samples with, in domain `d` (R323). -/
def Core.ringCon (c : Core) (d r : Nat) : Option Contract :=
  let v := c.rd (rg .AUD_RING_CFG r)
  let con := if bit v 30 then c.outCon (fld v 7 0) else c.inCon (fld v 7 0)
  con.filter (fun y => y.unit == d && sameOwner (c.owner 14 r) (ownerOf y.sub))

/-- Rings at the start of a period (R323): play rings take their next period, capture rings lay one down. -/
def Core.ringPeriod (c : Core) (d r : Nat) : Core :=
  let v := c.rd (rg .AUD_RING_CFG r)
  let chans := fld v 29 24 + 1
  let periods := fld v 23 16
  let base := c.rdF (rg .AUD_RING_BASE r) 24 7 * 128
  let w := c.rdF (rg .AUD_RING_WPTR r) 7 0
  let q := c.rdF (rg .AUD_RING_RPTR r) 7 0
  match c.ringCon d r with
  | none => c
  | some y =>
    if !bit v 31 || decide (periods < 2) || c.ownerStopped y.sub || !c.inBanks (ownerOf y.sub) base (periods * 64 * chans) then
      c.setAud { c.aud with play := kset [] c.aud.play r [] }
    else if bit v 30 then
      let data := kget [] c.aud.capture r
      let c := c.setAud { c.aud with capture := kset [] c.aud.capture r [] }
      if data.length < 16 * chans then c
      else if (w + 1) % periods = q then c.audEvt 18
      else ((c.unitWrite (audClient y.sub) (base + w * 64 * chans) (data.flatMap (fun s => leBytes 4 s.toNat))).1).wr (rg .AUD_RING_WPTR r)
        (w32 ((w + 1) % periods))
    else if q = w then (c.setAud { c.aud with play := kset [] c.aud.play r [] }).audEvt 18
    else
      let x := c.unitRead (audClient y.sub) (base + q * 64 * chans) (64 * chans)
      let c := x.1
      let data := if x.2.2 = 0 then (wordsOf x.2.1).map w32 else []
      (c.setAud { c.aud with play := kset [] c.aud.play r data }).wr (rg .AUD_RING_RPTR r) (w32 ((q + 1) % periods))

/-- A period begins: AUD_POS, meters, rings, the witness's audio record (R292, R315, R323, R330). -/
def Core.audPeriod (c : Core) (d s : Nat) : Core :=
  let c := c.wr (rg .AUD_POS d) (w32 s)
  let c := c.audCons.foldl (fun c y =>
    if y.unit != d then c else
    (List.range (outCount y)).foldl (fun c k =>
      let o := outFirst y + k
      let x := c.audOut o
      let m := sat 65535 (x.peak / 65536)
      let c := c.setAudOut o { x with peak := 0 }
      (c.setF (rg .AUD_METER o) 15 0 m).setF (rg .AUD_METER o) 31 16 (max m (c.rdF (rg .AUD_METER o) 31 16))) c) c
  let c := (List.range 8).foldl (fun c r => c.ringPeriod d r) c
  let wa := c.rd (rg0 .WIT_AUDIO)
  if bit wa 31 && (c.outCon (fld wa 5 0)).map (fun y => y.unit) == some d && c.wit.audio != [] then
    let w : Wit := { c.wit with periods := c.wit.periods + 1 }
    if w.periods < 64 then { c with wit := w }
    else ({ c with wit := { w with periods := 0, audio := [] } } : Core).witNow 0 3 0 0 w.audio
  else c

/-- Chime voices step on; one that ends sets its event (R328). -/
def Core.voiceStep (c : Core) (d s v : Nat) : Core :=
  let x := c.voice v
  if !x.on || x.dom != d || decide (s < x.fromPos) then c else
  let cfg := c.rd (rg .AUD_CHIME_CFG v)
  if x.pos + 1 < fld cfg 31 24 * 16 then c.setVoice v { x with pos := x.pos + 1 }
  else if x.loop < fld cfg 23 20 then c.setVoice v { x with pos := 0, loop := x.loop + 1 }
  else (c.setVoice v {}).audEvt 19

/-- What leaves a TDM port at a sample: outputs of 16 samples earlier, of the port's owner (R317, R320). -/
def Core.tdmOut (c : Core) (t : Nat) : Core :=
  let v := c.rd (rg .AUD_TDM_CFG t)
  let own := c.owner 13 t
  let ss := (List.range (fld v 20 16)).map (fun k =>
    let o := c.rdF (rg2 .AUD_TDM_TX t (k / 4)) (k % 4 * 8 + 7) (k % 4 * 8)
    match if o < 64 then c.outCon o else none with
    | some y => if sameOwner (ownerOf y.sub) own && y.unit == c.tdmDom t && !c.ownerStopped y.sub then
        let w := ((c.audOut o).hist.getD 16 0).toNat
        let n := match fld v 26 25 with | 0 => 65536 | 1 => 256 | _ => 1
        w32 (w / n * n)
      else 0
    | none => 0)
  c.setAud { c.aud with tx := kset [] c.aud.tx t ss }

/-- MIX_SAMPLE's effect: the next sample of domain `d`, at its instant. -/
def Core.mixSample (c : Core) (d : Nat) : Core :=
  if !c.audOn d then c else
  let s := (c.audDom d).pos
  let c := c.upTo (c.sampleAt d s)
  let c := if s % 16 = 0 then
      let c := c.audPeriod d s
      c.setAudDom d { c.audDom d with tickDue := true }
    else c
  let ins := c.audCons.flatMap (fun y => if y.unit = d then (List.range (inCount y)).map (fun k => (inFirst y + k, y)) else [])
  let xs := ins.map (fun p => (p.1, p.2, c.inSample p.1 s))
  let late := xs.filterMap (fun q => q.2.2.2)
  let c := late.foldl (fun c nk => (c.addSat (rg2 .AUD_NS_STATUS nk.1 nk.2) 15 0 1).audEvt (8 + nk.1)) c
  let xs' := xs.map (fun q => (q.1, q.2.1, q.2.2.1))
  let c : Core := { c with free := c.free + 130 }
  let ch := c.chimeWords d s
  let c := ch.1
  let c := c.audCons.foldl (fun c y =>
    if y.unit != d then c else (List.range (outCount y)).foldl (fun c k => c.mixOut (outFirst y + k) y xs' ch.2) c) c
  let c := (List.range 4).foldl (fun c v => c.voiceStep d s v) c
  let c := (List.range 8).foldl (fun c t => if c.rdB (rg .AUD_TDM_CFG t) 31 && c.tdmDom t == d then c.tdmOut t else c) c
  let c := (List.range 8).foldl (fun c r =>
    let v := c.rd (rg .AUD_RING_CFG r)
    match if bit v 31 && bit v 30 then c.ringCon d r else none with
    | some y =>
      let ss := (List.range (fld v 29 24 + 1)).map (fun k =>
        let o := fld v 7 0 + k
        match c.outCon o with
        | some z => if z.unit == d && z.sub == y.sub then (c.audOut o).hist.headD 0 else 0
        | none => 0)
      c.setAud { c.aud with capture := kset [] c.aud.capture r (kget [] c.aud.capture r ++ ss) }
    | none => c) c
  let wa := c.rd (rg0 .WIT_AUDIO)
  let c : Core := if bit wa 31 && c.witOn && (c.outCon (fld wa 5 0)).map (fun y => y.unit) == some d then
      let bs := (List.range (fld wa 10 8 + 1)).flatMap (fun k => leBytes 4 ((c.audOut (fld wa 5 0 + k)).hist.headD 0).toNat)
      { c with wit := { c.wit with audio := c.wit.audio ++ bs } }
    else c
  c.setAudDom d { c.audDom d with pos := s + 1 }

def execMixSample (d : Nat) (s : State) : Host.Outcome State Fault Refusal := run s (fun c => c.mixSample d)

/-- A domain mixed up to the first sample of its next period. -/
def Core.mixToTick (c : Core) (d : Nat) : Core :=
  (List.range 16).foldl (fun c _ => if (c.audDom d).tickDue then c else c.mixSample d) c

/-! ### TDM ports (R320, R321) -/

/-- TDM_FRAME: a received frame at the port; `drift` is its frame start less the sample instant, in samples, of a slave port. -/
def execTdmFrame (t : Nat) (drift : Int) (data : List W32) (s : State) : Host.Outcome State Fault Refusal :=
  run s (fun c =>
    let v := c.rd (rg .AUD_TDM_CFG t)
    if !bit v 31 || !c.audOn (c.tdmDom t) || decide (8 ≤ t) then c else
    let slip := !bit v 30 && decide (drift < -2 ∨ 2 < drift)
    let c := if slip then (c.addSat (rg .AUD_TDM_STATUS t) 15 0 1).audEvt t else c
    let k := match fld v 26 25 with | 0 => 65536 | 1 => 256 | _ => 1
    let fr := (data.take (fld v 20 16)).map (fun w => w32 (w.toNat * k))
    let now := (c.audDom (c.tdmDom t)).pos
    let at_ := if kget [] c.aud.rx t = [] then now else ((c.aud.rxNext.find? (fun p => p.1 = t)).map (fun p => p.2)).getD now
    let n := if !slip then 1 else if drift < 0 then 0 else 2
    let old := kget [] c.aud.rx t
    let new := (List.range n).map (fun i => (at_ + i, fr))
    c.setAud { c.aud with rx := kset [] c.aud.rx t ((new.reverse ++ old).take 40), rxNext := kset (2 ^ 64) c.aud.rxNext t (at_ + n) })

/-- TDM_FS_TIMEOUT: no frame sync for 16 samples after the last one, or after the port was enabled; the port receives zeros, and takes the
next frame sync as its new start. -/
def execTdmFsTimeout (t : Nat) (s : State) : Host.Outcome State Fault Refusal :=
  run s (fun c =>
    match if c.rdB (rg .AUD_TDM_CFG t) 31 && c.audOn (c.tdmDom t) && decide (t < 8) then some (c.aud.rxNext.find? (fun p => p.1 = t)) else none with
    | none => c
    | some next =>
      let c := match next with
        | some p => c.upTo (c.sampleAt (c.tdmDom t) (p.2 + 15))
        | none => c
      (c.setAud { c.aud with rxNext := kdel c.aud.rxNext t }).audEvt t)

/-- AUD_TDM_CFG written (R320): refused for a bit clock above 49.152 MHz, a slot count of none or above 16, or a change of
framing while enabled. -/
def Core.tdmCfg (c : Core) (ag : Agent) (t : Nat) (v : W32) : Core :=
  let old := c.rd (rg .AUD_TDM_CFG t)
  let width := match fld v 26 25 with | 0 => 16 | 1 => 24 | _ => 32
  let slots := fld v 20 16
  let bad := slots = 0 || decide (16 < slots) || decide (49152000 < slots * width * c.audRate (c.tdmDom t)) ||
    (bit old 31 && ((old ^^^ v) &&& 0x3F9F0000) != 0) || fld v 26 25 = 3 || fld v 29 28 = 3 || (fld v 29 28 != 0 && slots != 2)
  if bad then c.discarded ag (rg .AUD_TDM_CFG t).addr v
  else
    let c := if bit v 31 then
        if bit old 31 then c else c.setAud { c.aud with rxNext := kset (2 ^ 64) c.aud.rxNext t ((c.audDom (c.tdmDom t)).pos + 1) }
      else c.setAud { c.aud with rx := kset [] c.aud.rx t [], rxNext := kdel c.aud.rxNext t, tx := kset [] c.aud.tx t [] }
    c.wr (rg .AUD_TDM_CFG t) ((v &&& 0xFF9F0000) ||| (old &&& 0x3000))

/-! ### Network streams (R322) -/

/-- Big-endian samples of a packet as 32-bit samples. -/
def netSamples (l24 : Bool) : Nat → List Byte → List W32
  | 0, _ => []
  | k + 1, bs =>
    let n := if l24 then 3 else 2
    if bs.length < n then [] else
    let v := (bs.take n).foldl (fun a b => a * 256 + b.toNat) 0
    w32 (v * (if l24 then 256 else 65536)) :: netSamples l24 k (bs.drop n)

/-- Samples of a packet time. -/
def Core.ptime (c : Core) (v : W32) : Nat := if bit v 29 then c.audRate 0 / 8000 else c.audRate 0 / 1000

/-- AUDIO_PACKET: a packet on port `n`: its samples placed by RTP time, or dropped for another payload type or channel count. -/
def execAudioPacket (n udp : Nat) (ssrc : W32) (pt ts chans : Nat) (data : List Byte) (s : State) : Host.Outcome State Fault Refusal :=
  run s (fun c =>
    if !c.rdB (rg .NET_PORT_CTRL n) 0 || decide (c.counts.net ≤ n) || !c.audOn 0 then c else
    (List.range 8).foldl (fun c k =>
      let v := c.rd (rg2 .AUD_NS_CFG n k)
      let u := c.rd (rg2 .AUD_NS_UDP n k)
      let want := c.rd (rg2 .AUD_NS_SSRC n k)
      let nch := fld v 26 22 + 1
      if !bit v 31 || fld u 15 0 != udp || !(want == 0 || want == ssrc) || (bit u 23 && fld u 22 16 != pt) || chans != nch then c
      else
        let ss := netSamples (bit v 30) data.length data
        let pos := (c.audDom 0).pos
        let t := (ts + fld v 14 0) % 4294967296
        let d := (t + 4294967296 - pos % 4294967296) % 4294967296
        let p0 : Int := if d < 2147483648 then (pos + d : Int) else (pos + d : Int) - 4294967296
        let new := (List.range (ss.length / nch)).filterMap (fun (i : Nat) =>
          let p : Int := p0 + (i : Int)
          if p < (pos : Int) then none else some (p.toNat, (ss.drop (i * nch)).take nch))
        let key := 16 * n + k
        let old := (kget [] c.aud.net key).filter (fun q => decide (pos ≤ q.1) && !new.any (fun z => z.1 = q.1))
        c.setAud { c.aud with net := kset [] c.aud.net key (old ++ new) }) c)

/-- AUDIO_PACKET_TX: transmit stream `k` (8 to 15) sends the packet that is complete, stamped with its first sample's position. -/
def execAudioPacketTx (n k : Nat) (s : State) : Host.Outcome State Fault Refusal :=
  run s (fun c =>
    let v := c.rd (rg2 .AUD_NS_CFG n k)
    let key := 16 * n + k
    let p0 := kget 0 c.aud.txPos key
    let per := c.ptime v
    let pos := (c.audDom 0).pos
    if !bit v 31 || decide (k < 8 ∨ 16 ≤ k ∨ 4 ≤ n ∨ per = 0 ∨ pos < p0 + per) || !c.audOn 0
      || (match c.outCon (fld v 21 15) with | some y => c.ownerStopped y.sub | none => true) then c else
    let bytes := (List.range per).flatMap (fun i => (List.range (fld v 26 22 + 1)).flatMap (fun ch =>
      let w := ((c.audOut (fld v 21 15 + ch)).hist.getD (pos - 1 - (p0 + i)) 0).toNat
      if bit v 30 then [BitVec.ofNat 8 (w / 16777216), BitVec.ofNat 8 (w / 65536), BitVec.ofNat 8 (w / 256)]
      else [BitVec.ofNat 8 (w / 16777216), BitVec.ofNat 8 (w / 65536)]))
    c.setAud { c.aud with txPos := kset 0 c.aud.txPos key (p0 + per), sent := kset [] c.aud.sent key ((leBytes 4 p0).reverse ++ bytes) })

/-- Channels in use of a port and direction (R319, R322). -/
def Core.nsChans (c : Core) (n : Nat) (tx : Bool) (but : Nat) : Nat :=
  ((List.range 8).map (fun j =>
    let k := if tx then j + 8 else j
    let v := c.rd (rg2 .AUD_NS_CFG n k)
    if k = but || !bit v 31 then 0 else fld v 26 22 + 1)).sum

/-- The AUDIO contract whose range holds a stream's inputs or outputs. -/
def Core.nsCon (c : Core) (v : W32) (tx : Bool) : Option Contract :=
  let f := fld v 21 15
  let n := fld v 26 22 + 1
  c.audCons.find? (fun y => y.unit = 0 && (if tx then decide (outFirst y ≤ f ∧ f + n ≤ outFirst y + outCount y)
    else decide (inFirst y ≤ f ∧ f + n ≤ inFirst y + inCount y)))

/-- AUD_NS_CFG written (R322). -/
def Core.nsCfg (c : Core) (ag : Agent) (n k : Nat) (v : W32) : Core :=
  let r := rg2 .AUD_NS_CFG n k
  let old := c.rd r
  let tx := decide (8 ≤ k)
  let t := c.tag ag
  let inCon := match c.nsCon v tx with | some y => c.isSecure t || sameOwner t (ownerOf y.sub) | none => false
  let rate := c.audRate 0
  let bad := (bit old 31 && bit v 31 && old != (v &&& 0xF7FFFFFF)) || (bit old 31 && !bit v 31 && ((old ^^^ v) &&& 0x77FFFFFF) != 0) ||
    (bit v 31 && (!inCon || decide (32 < c.nsChans n tx k + fld v 26 22 + 1) || !(rate = 48000 || rate = 96000)))
  if bad then c.discarded ag r.addr v
  else
    let c := c.wr r (v &&& 0xF7FFFFFF)
    if bit v 31 && !bit old 31 then c.setAud { c.aud with txPos := kset 0 c.aud.txPos (16 * n + k) (c.audDom 0).pos }
    else if bit v 31 then c
    else c.setAud { c.aud with net := kset [] c.aud.net (16 * n + k) [] }

/-- AUD_IN_CFG written (R325): its source must be held by the input's contract. -/
def Core.inCfg (c : Core) (ag : Agent) (i : Nat) (v : W32) : Core :=
  let u := fld v 13 8
  let ch := fld v 4 0
  let good : Bool := match c.inCon i with
    | none => false
    | some y => match fld v 31 30 with
      | 0 => y.f 6 15 8 = u && decide (y.f 8 31 24 ≤ ch ∧ ch < y.f 8 31 24 + y.f 6 7 0)
      | 1 => match c.netIn i with
        | some (n, k, j) => 4 * n + k == u && j == ch && (c.nsCon (c.rd (rg2 .AUD_NS_CFG n k)) false).map (fun z => z.id) == some y.id
        | none => false
      | 2 => decide (u < 8) && sameOwner (c.owner 14 u) (ownerOf y.sub) && decide (ch ≤ c.rdF (rg .AUD_RING_CFG u) 29 24)
      | _ => y.f 5 15 8 = u && decide (y.f 7 15 8 ≤ ch ∧ ch < y.f 7 15 8 + y.f 5 7 0)
  if good then c.wr (rg .AUD_IN_CFG i) (v &&& 0xF0003F1F) else c.discarded ag (rg .AUD_IN_CFG i).addr v

/-- BRIDGE_RATIO_FAULT: the measured ratio, in 0.01 ppm from nominal: beyond 100 ppm the last good one is held (R324). -/
def execBridgeRatioFault (b : Nat) (err : Int) (s : State) : Host.Outcome State Fault Refusal :=
  run s (fun c =>
    if 4 ≤ b then c
    else if err.natAbs > 10000 then (c.setB (rg .AUD_BR_STATUS b) 31 false).audEvt (12 + b)
    else c.wr (rg .AUD_BR_STATUS b) (w32 (2147483648 + (BitVec.ofInt 16 err).toNat)))

/-! ### Silence, wake, chimes, meters (R328 to R330) -/

/-- SILENCE_HOLD_EXPIRY: an output whose samples have stayed below the threshold for its hold time powers down; its pin is
deasserted when every enabled output on it is down. -/
def execSilenceHoldExpiry (o : Nat) (s : State) : Host.Outcome State Fault Refusal :=
  run s (fun c =>
    let v := c.rd (rg .AUD_OUT_SIL o)
    let x := c.audOut o
    match c.outCon o with
    | none => c
    | some y =>
      let need := ceilDiv (max 1 (fld v 15 0) * c.audRate y.unit) 1000
      if !bit v 31 || x.down || c.silNa o || decide (x.quiet < need) then c else
      let c := (((c.setAudOut o { x with down := true, waking := false }).setB (rg .AUD_OUT_STATUS o) 31 true).audEvt 17).fault 849 o 1
      match c.pinOf o with
      | none => c
      | some p => if (c.pinOuts p).all (fun k => (c.audOut k).down) then c.setAudPin p {} else c)

/-- AMP_WAKE_DONE: the pin's wake time ends and its outputs resume. -/
def execAmpWakeDone (p : Nat) (s : State) : Host.Outcome State Fault Refusal :=
  run s (fun c =>
    let q := c.audPin p
    if !q.asserted then c else
    (c.pinOuts p).foldl (fun c o => let x := c.audOut o; c.setAudOut o { x with waking := false }) (c.upTo q.wakeAt))

/-- AUD_CHIME_GO start (R328): refused when the sound's bank is not the secure world's. -/
def Core.chimeStart (c : Core) (v : Nat) : Core :=
  if c.counts.series = 4 then c else
  let cfg := c.rd (rg .AUD_CHIME_CFG v)
  let src := c.rdF (rg .AUD_CHIME_SRC v) 24 7 * 128
  let first := fld cfg 13 8
  match c.outCon first with
  | none => c.audEvt 20
  | some y =>
    if !c.inBanks (ownerOf 64) src (fld cfg 31 24 * 64) then c.audEvt 20
    else if fld cfg 31 24 = 0 then c.audEvt 19
    else
      let outs := (List.range (fld cfg 19 14 + 1)).map (fun k => first + k)
      let d := y.unit
      let c := outs.foldl (fun c o => if (c.audOut o).down then c.audWake o else c) c
      let waits := outs.filterMap (fun o => if (c.audOut o).waking then (c.pinOf o).map (fun p => (c.audPin p).wakeAt) else none)
      let t := waits.foldl max 0
      let t' := if d = 1 then t - (c.audDom d).origin else ((t : Int) + c.ptpOff * 1000).toNat
      let s0 := if t ≤ c.now then (c.audDom d).pos else ceilDiv (t' * c.audRate d) 1000000000000
      c.setVoice v { on := true, dom := d, fromPos := max s0 (c.audDom d).pos }

def Core.chimeGo (c : Core) (v : Nat) (w : W32) : Core :=
  let c := if bit w 0 then c.chimeStart v else c
  if bit w 1 && (c.voice v).on then (c.setVoice v {}).audEvt 19 else c

/-- A read of AUD_METER returns peak_hold and clears it. -/
def Core.meterRead (c : Core) (o : Nat) : Core × W32 := (c.setF (rg .AUD_METER o) 31 16 0, c.rd (rg .AUD_METER o))

end Sys2Proof.Machine
end

