-- ==== Sys2Proof/Machine/Evr.lean ====
section
/-! DEFINITION. The Event Router: selection and entry, return and tail-chain, host completion, re-arm, pending writes and
pins (R85 to R105). -/

namespace Sys2Proof.Machine

open Sys2Proof

/-- The sequencer or host a source targets: EVR_SRC_TARGET.target. -/
def Core.srcTarget (c : Core) (s : Nat) : Nat := c.rdF (rg .EVR_SRC_TARGET s) 31 24
def Core.srcHandler (c : Core) (s : Nat) : Nat := c.rdF (rg .EVR_SRC_TARGET s) 17 0
def Core.srcPrio (c : Core) (s : Nat) : Nat := c.rdF (rg .EVR_SRC_CFG s) 21 16

/-- The sources with a pending bit set and no mask bit, in rising number. -/
def Core.pendingSrcs (c : Core) : List Nat :=
  (List.range 32).flatMap (fun w =>
    let p := c.rd (rg .EVR_PEND w) &&& ~~~(c.rd (rg .EVR_MASK w)) &&& ~~~(c.rd (rg .EVR_QUAR w))
    if p = 0 then [] else (bitsOf p).map (fun j => 32 * w + j))

/-- Eligible sources of a target: pending, not masked, not quarantined, under a live contract, their gate open, their count
below the admitted rate (R92, R100, R130). -/
def Core.eligible (c : Core) (ok : Nat → Bool) : List Nat :=
  c.pendingSrcs.filter (fun s => c.srcLive s && !(kget false c.evr.gated s) && !(c.overRate s) && ok s)

/-- The highest priority, among equals the lowest number (R92). -/
def Core.best (c : Core) : List Nat → Option Nat
  | [] => none
  | s :: ss =>
    match c.best ss with
    | none => some s
    | some t => if c.srcPrio t ≤ c.srcPrio s then some s else some t

/-- A sealed draft that goes live at the boundary in progress, or the next one, changes the sequencer's program (R82, R97). -/
def Core.switchDue (c : Core) (n : Nat) : Bool :=
  let k := if c.tkg.inApply then c.tickOf 0 else c.tickOf 0 + 1
  c.adm.drafts.any (fun d => (match d.2.sealed with | some b => decide (b ≤ k) | none => false) && d.2.ops.any (fun o => match o with
    | .add x | .replace _ x => x.kind = kPROGRAM && x.unit = n
    | .release i => c.adm.live.any (fun y => y.id = i && y.kind = kPROGRAM && y.unit = n)))

/-- Deliveries to the sequencer are held (R97): a world call, a halt, an exception, a bank switch that follows a close. -/
def Core.held (c : Core) (n : Nat) : Bool :=
  let q := c.seq n
  let t := c.st n
  q.inCall || q.dbg || q.mode == .halted || t.excWait || (t.closed && (q.change.isSome || q.deferred || c.switchDue n))

/-- The priority the running context holds, as one more than the source's; 0 at level 0 (R92). -/
def Seq.prioOf (q : Seq) (level : Nat) : Nat := if level = 0 then 0 else (kget {} q.ctx level).prio + 1

/-- The commit of cycle 3 (R94): the E or P edge's pending bit cleared, the source active, the rate count up. A level's
pending bit is cleared too; while the source is active only a new rise sets it (R85, R88). -/
def Core.commitSrc (c : Core) (s : Nat) : Core :=
  let c := c.setSrcBit .EVR_PEND s false
  let c := c.setSrcBit .EVR_ACTIVE s true
  c.addSat (rg .EVR_SRC_STAT s) 15 0 1

/-- The end of a source's activity: its level sampled again, pending again while asserted (R88). -/
def Core.releaseSrc (c : Core) (s : Nat) : Core :=
  let c := c.setSrcBit .EVR_ACTIVE s false
  if c.isLevel s && levelOf c s && c.srcLive s then c.setPend s else c

/-- The source the EVR would deliver to sequencer `n`: the best eligible one, above the running context, a level free. -/
def Core.offered (c : Core) (n : Nat) : Option Nat :=
  let q := c.seq n
  if q.level ≥ 3 || c.held n || q.mode == .idle || q.mode == .halted then none
  else match c.best (c.eligible (fun s => c.srcTarget s = n)) with
    | some s => if q.prioOf q.level < c.srcPrio s + 1 then some s else none
    | none => none

/-- Event entry (R72, R94): PC, predicates and level saved at the new level, its register set taken, the handler started.
A DRAIN is abandoned and executes again after EVRET (R93). -/
def Core.enter (c : Core) (n s : Nat) : Core :=
  let c := c.commitSrc s
  let q := c.seq n
  let lv := q.level + 1
  let p := (kget {} q.sets q.level).p
  let x : LevelCtx := { evpc := q.pc, evps := p.toNat / 2 * 2 + 1 + q.level * 256, source := s, prio := c.srcPrio s }
  let q := { q with ctx := kset {} q.ctx lv x, level := lv, pc := c.srcHandler s, mode := .running,
                    asleep := q.asleep || q.mode == .waiting || q.mode == .sleeping, loops := kset [] q.loops lv [] }
  let t := c.st n
  (c.setSeq n q).setSt n { t with drain := false, tickCyc := t.tickCyc + 6 }

/-- EVENT_ENTRY: the selected eligible source of sequencer `n` is committed and its handler starts (R92 to R95). -/
def execEventEntry (n : Nat) (s : State) : Host.Outcome State Fault Refusal :=
  run s (fun c => match c.offered n with | some src => c.enter n src | none => c)

/-- EVENT_RAISE: an E source's event, or a level's assertion, makes a contracted source pending (R85, R86). Of 920 to 923, whose link changes have
a command of their own, it is a PTP message error, which NET_PORT_STATUS bit 1 shows (R188; log entry 208). -/
def execEventRaise (src : Nat) (s : State) : Host.Outcome State Fault Refusal :=
  run s (fun c =>
    if 1024 ≤ src then c
    else if 920 ≤ src ∧ src < 920 + c.counts.net then (c.setB (rg .NET_PORT_STATUS (src - 920)) 1 true).raise src
    else c.raise src)

/-- The restore of EVRET: predicates, PC and level from EVPS and EVPC; a program that slept in WAITT sleeps again (R72, R73). -/
def Core.restore (c : Core) (n : Nat) : Core :=
  let q := c.seq n
  let x := kget {} q.ctx q.level
  let back := x.evps / 256 % 4
  let r := kget {} q.sets back
  let q := { q with sets := kset {} q.sets back { r with p := BitVec.ofNat 8 (x.evps % 256 / 2 * 2) }, level := back, pc := x.evpc,
                    ctx := kset {} q.ctx q.level {}, mode := if back = 0 && q.asleep then .waiting else q.mode,
                    asleep := q.asleep && back != 0 }
  c.setSeq n q

/-- A sequencer leaves every event level without an EVRET: the sources of its handlers are released (R78, R88). -/
def Core.dropLevels (c : Core) (n : Nat) : Core :=
  let q := c.seq n
  let c := (List.range q.level).foldl (fun (c : Core) k => c.releaseSrc (kget {} q.ctx (q.level - k)).source) c
  let q := c.seq n
  c.setSeq n { q with level := 0, ctx := [], asleep := false }

/-- EVR_SEQ_STAT as it reads (R106). -/
def Core.evrSeqStat (c : Core) (n : Nat) : W32 :=
  let q := c.seq n
  let pr (l : Nat) : Nat := if l ≤ q.level then (kget {} q.ctx l).prio else 0
  w32 ((if c.held n then 2147483648 else 0) + q.level % 4 * 268435456
    + (if q.level = 0 then 0 else (kget {} q.ctx q.level).source % 1024) * 262144 + pr 3 * 4096 + pr 2 * 64 + pr 1)

/-! ### Writes of the Event Router's bits -/

/-- The requester owns the source: the same world and partition, or the secure world, which writes every register (R102,
R108). The bits of absent and never-firing sources ignore every write (R5, R32, R152). -/
def Core.ownsSrc (c : Core) (t : Owner) (s : Nat) : Bool := !srcZero c.counts s && (c.isSecure t || sameOwner t (c.owner 6 s))

/-- The bits set in `v` of word `w` whose sources satisfy a test. -/
def bitSrcs (w : Nat) (v : W32) (ok : Nat → Bool) : List Nat := ((bitsOf v).map (fun j => 32 * w + j)).filter ok

/-- A sequencer is in a handler of the source (R72). -/
def Core.inHandler (c : Core) (s : Nat) : Bool :=
  (List.range 64).any (fun n => let q := c.seq n; (List.range 4).any (fun l => 0 < l && l ≤ q.level && (kget {} q.ctx l).source = s))

/-- EVR_DONE: an owned source active by a host message ends its activity, also when its contract has gone or moved since (R98, R88). -/
def Core.evrDone (c : Core) (t : Owner) (w : Nat) (v : W32) : Core :=
  (bitSrcs w v (fun s => c.ownsSrc t s && c.srcBit .EVR_ACTIVE s && !c.inHandler s)).foldl Core.releaseSrc c

/-- EVR_REARM: the clearing of a quarantine scheduled; by the owner, partition 0 for a normal-world source, or the secure
world (R101). -/
def Core.evrRearm (c : Core) (t : Owner) (w : Nat) (v : W32) : Core :=
  (bitSrcs w v (fun s => c.srcBit .EVR_QUAR s && (c.ownsSrc t s || (isP0 t && !(c.owner 6 s).world)))).foldl
    (fun d s => { d with evr := { d.evr with rearm := kset false d.evr.rearm s true } }) c

/-- EVR_PEND written: owned E sources (and pins captured as edges) follow the bits; levels do not (R102, R103). -/
def Core.evrPendWrite (c : Core) (t : Owner) (w : Nat) (v : W32) : Core :=
  (List.range 32).foldl (fun d j =>
    let s := 32 * w + j
    if d.ownsSrc t s && !d.isLevel s && d.srcLive s then
      (if bit v j then d.setPend s else d.setSrcBit .EVR_PEND s false) else d) c

/-- EVR_MASK written: only owned bits change (R102, R103). -/
def Core.evrMaskWrite (c : Core) (t : Owner) (w : Nat) (v : W32) : Core :=
  let own := (List.range 32).foldl (fun (m : W32) j => setBit m j (c.ownsSrc t (32 * w + j))) 0
  c.wr (rg .EVR_MASK w) ((c.rd (rg .EVR_MASK w) &&& ~~~own) ||| (v &&& own))

/-! ### Pins -/

/-- The 25 MHz reference is stopped: REST and OFF (R402). -/
def Core.refStopped (c : Core) : Bool := decide (2 ≤ c.pwr.asleep)

/-- A level that counts as active for the pin's mode: rising and both high, falling low, level mode its polarity (R89, R91). -/
def Core.pinDir (c : Core) (p : Nat) (l : Bool) : Bool :=
  match c.rdF (rg .EVR_PIN_CFG p) 3 2 with
  | 0 => l
  | 1 => !l
  | 2 => true
  | _ => l != c.rdB (rg .EVR_PIN_CFG p) 1

/-- The pin is armed as a wake source: PWR_WAKE_EN and its latch bit (R402). -/
def Core.pinWakes (c : Core) (p : Nat) : Bool := c.rdB (rg0 .PWR_WAKE_EN) p && c.rdB (rg .EVR_PIN_CFG p) 4

/-- A wake request: held while the entry runs, or ending the sleep; the first one counts (R403). A trip takes precedence (R436). -/
def Core.wakeBy (c : Core) (cause unit : Nat) : Core :=
  if c.pwr.asleep = 0 || c.pwr.tripped || c.pwr.wake.isSome then c else { c with pwr := { c.pwr with wake := some (cause, unit) } }

/-- The filter's verdict on an edge that the latch captured as going to `dir`: the source raised where the line is steady at the active
level, in mode 0b10 the level after the captured edge; else one more in the chatter counter and no event (R91). -/
def Core.latchEnd (c : Core) (pin : Nat) (dir level : Bool) : Core :=
  let src := 992 + pin
  let active := if c.rdF (rg .EVR_PIN_CFG pin) 3 2 = 2 then level == dir else c.pinDir pin level
  if !active then (if c.isLevel src then c.relevel src else c).addSat (rg .EVR_PIN_CHAT pin) 15 0 1
  else if c.isLevel src then c.relevel src
  else c.raise src

/-- PIN_RAW_EDGE: a raw edge that ends in no filtered transition counts in EVR_PIN_CHAT (R90). -/
def execPinRawEdge (pin : Nat) (s : State) : Host.Outcome State Fault Refusal :=
  run s (fun c =>
    if pin < 32 then
      let r := rg0 .EVR_PIN_RAW
      (c.wr r (setBit (c.rd r) pin (!c.rdB r pin))).addSat (rg .EVR_PIN_CHAT pin) 15 0 1
    else c)

/-- PIN_FILTERED_TRANSITION: after N steady filter cycles the filtered level takes the raw level and raises the source by the
pin's mode; a pin not enabled holds its filtered level (R89). It ends what a latch captured (R91). In WATCH, where the reference runs
and the latch captures nothing, an active transition of an armed pin asks for the wake (log entry 195). While the reference is stopped
the filter does not run. -/
def execPinFilteredTransition (pin : Nat) (level : Bool) (s : State) : Host.Outcome State Fault Refusal :=
  run s (fun c =>
    if pin ≥ 32 then c else
    let raw := rg0 .EVR_PIN_RAW
    let flt := rg0 .EVR_PIN_FILT
    let c := c.wr raw (setBit (c.rd raw) pin level)
    if !c.rdB (rg .EVR_PIN_CFG pin) 0 || c.refStopped then c else
    let was := c.rdB flt pin
    let c := c.wr flt (setBit (c.rd flt) pin level)
    let src := 992 + pin
    match kget none c.evr.latched pin with
    | some dir => ({ c with evr := { c.evr with latched := kset none c.evr.latched pin none } } : Core).latchEnd pin dir level
    | none =>
      let c := if was != level && c.pinDir pin level && c.pinWakes pin then c.wakeBy 1 pin else c
      if c.isLevel src then c.relevel src
      else if was = level then c
      else if c.pinDir pin level then c.raise src else c)

end Sys2Proof.Machine
end

