-- ==== Sys2Proof/Machine/Cave.lean ====
section
/-! DEFINITION. The cave (R297 to R314): members, superblocks, wear, the storing, reading and refreshing of segments. -/

namespace Sys2Proof.Machine

open Sys2Proof

/-! ### Members and capacity (R299, R301) -/

def Core.setCave (c : Core) (x : Cave) : Core := { c with cave := x }
def Core.memState (c : Core) (m : Nat) : Nat := c.rdF (rg .CAVE_MEMBER_STATUS m) 31 28
def Core.member (c : Core) (m : Nat) : CMember := kget {} c.cave.members m
def Core.setMember (c : Core) (m : Nat) (x : CMember) : Core :=
  c.setCave { c.cave with members := kset {} c.cave.members m x }
/-- The ACTIVE members. -/
def Core.actives (c : Core) : List Nat := (List.range 32).filter (fun m => c.memState m = 1)
/-- n of new superblocks. -/
def Core.caveWidth (c : Core) : Nat := min 16 c.actives.length
def Core.caveEvt (c : Core) (i : Nat) : Core := c.setB (rg0 .CAVE_EVT) i true

def blkKey (m b : Nat) : Nat := m * 4294967296 + b
def Core.blk (c : Core) (m b : Nat) : CBlk := kget {} c.cave.blks (blkKey m b)
def Core.setBlk (c : Core) (m b : Nat) (x : CBlk) : Core :=
  c.setCave { c.cave with blks := kset {} c.cave.blks (blkKey m b) x }

/-- Usable capacity in bytes (R301). -/
def Core.caveUsable (c : Core) : Nat :=
  let raw := (c.actives.map (fun m => let x := c.member m; x.dies * x.blocks * x.blkBytes)).sum
  let n := c.caveWidth
  if n = 0 then 0 else raw * (n - 1) * 31 / (n * 32)
/-- The namespace capacity of R112 in GiB: CAVE_FREE_GIB. -/
def Core.caveFreeGib (c : Core) : Nat :=
  if c.rdB (rg0 .CAVE_STATUS) 31 then
    c.caveUsable / 1073741824 - c.rdN (rg0 .CAVE_NS0_GIB) - c.rdN (rg0 .CAVE_JNL_GIB)
  else 0
/-- Capacity of a namespace in bytes; 64 is the journal area. -/
def Core.nsCap (c : Core) (ns : Nat) : Nat :=
  1073741824 * (if ns = 0 then c.rdN (rg0 .CAVE_NS0_GIB) else if ns = 64 then c.rdN (rg0 .CAVE_JNL_GIB)
    else (kget {} c.parts ns).caveGib)

/-- Spares of a die, its metadata blocks apart, and those left. -/
def spares (x : CMember) : Nat := x.blocks / 32 - Config.metaBlocks x.blocks
def sparesLeft (x : CMember) (die : Nat) : Nat := spares x - kget 0 x.used die

/-- The units of a superblock that no read reaches: on a member that is not ACTIVE, on blocks erased since, or named in `bad` as not
decoding (R305, R311). -/
def Core.missingUnits (c : Core) (id : Nat) (s : CSuper) (bad : List Nat) : List Nat :=
  (List.range s.units.length).filter (fun i =>
    let u := s.units.getD i (0, 0)
    c.memState u.1 != 1 || (c.blk u.1 u.2).sb != some id || bad.contains u.1)
def Core.missing (c : Core) (id : Nat) (s : CSuper) (bad : List Nat) : Nat := (c.missingUnits id s bad).length
/-- Degraded stripes exist (R311). -/
def Core.degraded (c : Core) : Bool := c.cave.supers.any (fun p => c.missing p.1 p.2 [] != 0)

/-- CAVE_STATUS and CAVE_REBUILD follow the members; READONLY raises 811 when entered; rebuild starts when degraded stripes
exist and M is at least 3 (R311, R312). -/
def Core.caveShow (c : Core) : Core :=
  let m := c.actives.length
  let ro := c.rdB (rg0 .CAVE_STATUS) 31 && decide (m < 3)
  let was := c.rdB (rg0 .CAVE_STATUS) 30
  let left := (c.actives.flatMap (fun m => let x := c.member m; (List.range x.dies).map (sparesLeft x))).foldl min 65535
  let v := c.rd (rg0 .CAVE_STATUS)
  let v := setBit (setBit v 30 ro) 29 c.degraded
  let v := setFld (setFld (setFld v 27 22 m) 21 17 c.caveWidth) 15 0 (if m = 0 then 0 else left)
  let c := c.wr (rg0 .CAVE_STATUS) (if m = 0 then setBit v 31 false else v)
  let c := if ro && !was then c.caveEvt 11 else c
  if c.degraded && decide (3 ≤ m) && !c.cave.rebuild then
    let lost := ((List.range 32).find? (fun k => c.cave.supers.any (fun p =>
      (c.missingUnits p.1 p.2 []).any (fun i => (p.2.units.getD i (0, 0)).1 = k)))).getD 0
    (c.setCave { c.cave with rebuild := true }).wr (rg0 .CAVE_REBUILD) (w32 (2147483648 + lost * 256))
  else c

/-- A member's transition: source 804 and a journal entry; the sustained rate is the cave's own to derive, a free value (R303,
R310). -/
def Core.memMove (c : Core) (m st : Nat) : Core :=
  let c := (c.setF (rg .CAVE_MEMBER_STATUS m) 31 28 st).caveEvt 4
  let c := c.fault 804 m st
  let v := w32 (Config.freeWord c.free).toNat
  ((c.tick).wr (rg0 .CAVE_WRATE) (if c.actives = [] then 0 else v)).caveShow

/-! ### Superblocks (R299, R302, R306, R307) -/

/-- Blocks of a member's data pool that are good (R301, R306). -/
def Core.dataBlks (c : Core) (m : Nat) : List Nat :=
  let x := c.member m
  (List.range (x.dies * x.blocks)).filter (fun b =>
    let q := c.blk m b
    !q.bad && !q.factory && decide (b % x.blocks < x.blocks - x.blocks / 32 + kget 0 x.used (b / x.blocks)))
/-- Those that no superblock holds. -/
def Core.freeBlks (c : Core) (m : Nat) : List Nat := (c.dataBlks m).filter (fun b => (c.blk m b).sb.isNone)

/-- The erase count of a block (R307), and its retention count in 10^-9 units (R308). -/
def Core.erasesOf (c : Core) (m b : Nat) : Nat := (c.member m).base + (c.blk m b).erases
def Core.retOf (c : Core) (m b : Nat) : Nat :=
  let x := c.member m
  kget 0 x.ret (b / x.blocks) - (c.blk m b).ret

/-- The free block with the lowest erase count (R307); the lowest number among equals. -/
def Core.leastWorn (c : Core) (m : Nat) : Option Nat :=
  (c.freeBlks m).foldl (fun (r : Option Nat) b => match r with
    | none => some b
    | some a => if c.erasesOf m b < c.erasesOf m a then some b else some a) none

/-- The members of the next superblock: n of the ACTIVE ones, the start moving on with each superblock (R299). -/
def Core.nextMembers (c : Core) : List Nat :=
  let l := c.actives
  (List.range c.caveWidth).map (fun i => l.getD ((c.cave.nextSb + i) % l.length) 0)

def noSuper : CSuper := { ns := 99, units := [], cap := 0 }
def Core.super (c : Core) (id : Nat) : CSuper := kget noSuper c.cave.supers id
def Core.setSuper (c : Core) (id : Nat) (x : CSuper) : Core :=
  c.setCave { c.cave with supers := kset noSuper c.cave.supers id x }

/-- A new superblock of a namespace. -/
def Core.openSuper (c : Core) (ns : Nat) : Option (Core × Nat) :=
  let units := c.nextMembers.filterMap (fun m => (c.leastWorn m).map (fun b => (m, b)))
  if c.actives.length < 3 ∨ units.length ≠ c.caveWidth then none
  else
    let id := c.cave.nextSb
    let cap := (units.length - 1) * ((units.map (fun u => (c.member u.1).blkBytes)).foldl min (2 ^ 64))
    let c := (c.setCave { c.cave with nextSb := id + 1 }).setSuper id { ns := ns, units := units, cap := cap }
    some (units.foldl (fun c u => c.setBlk u.1 u.2 { c.blk u.1 u.2 with sb := some id }) c, id)

/-- The erase counts of the data pool of the ACTIVE members. -/
def Core.wearOf (c : Core) : List Nat := c.actives.flatMap (fun m => (c.dataBlks m).map (c.erasesOf m))

/-- Average and maximum erase counts, and source 812 when the average reaches the warning (R307). -/
def Core.wearShow (c : Core) : Core :=
  let es := c.wearOf
  let avg := if es = [] then 0 else es.sum / es.length
  let w := c.rdF (rg0 .CAVE_WEAR) 31 16
  let rated := (c.actives.map (fun m => (c.member m).endurance)).foldl min 65535
  let lim := if w = 0 then rated * 8 / 10 else w
  let c := c.wr (rg0 .CAVE_ERASE_AVG) (w32 (sat 65535 (es.foldl max 0) * 65536 + sat 65535 avg))
  let hot := decide (es ≠ [] ∧ lim ≤ avg)
  let c := if hot && !c.cave.warned then c.caveEvt 12 else c
  c.setCave { c.cave with warned := hot }

/-- Static levelling: the least-worn superblock falls due when the erase counts spread by more than delta (R307). -/
def Core.staticLevel (c : Core) : Core :=
  let es := c.wearOf
  if es.foldl max 0 - es.foldl min (es.headD 0) ≤ c.rdF (rg0 .CAVE_WEAR) 15 0 then c
  else
    let wear (s : CSuper) : Nat := (s.units.map (fun u => c.erasesOf u.1 u.2)).foldl min (2 ^ 64)
    let best := c.cave.supers.foldl (fun (r : Option (Nat × Nat)) p =>
      let w := wear p.2
      match r with
      | some (_, v) => if w < v then some (p.1, w) else r
      | none => some (p.1, w)) none
    match best with
    | some (id, _) => c.setSuper id { c.super id with due := true }
    | none => c

/-- A superblock erased and its blocks returned to the pool: those of its units that it still holds on ACTIVE members (R302, R306). -/
def Core.eraseSuper (c : Core) (id : Nat) : Core :=
  let s := c.super id
  let c := s.units.foldl (fun c u =>
    let q := c.blk u.1 u.2
    if c.memState u.1 != 1 || q.sb != some id then c
    else c.setBlk u.1 u.2 { q with erases := q.erases + 1, reads := 0, weak := false, sb := none
                                   ret := kget 0 (c.member u.1).ret (u.2 / (c.member u.1).blocks) }) c
  let c := c.setCave { c.cave with supers := kdel c.cave.supers id
                                   patrol := c.cave.patrol.filter (fun p => !s.units.any (fun u => blkKey u.1 u.2 = p.1)) }
  (c.wearShow).staticLevel

/-- A superblock that holds content of the segment. -/
def CSeg.uses (g : CSeg) (id : Nat) : Bool := g.spans.any (fun p => p.1 = id)
/-- A segment's record changed: the one of that namespace and number. -/
def Core.updSeg (c : Core) (g : CSeg) (f : CSeg → CSeg) : Core :=
  c.setCave { c.cave with segs := c.cave.segs.map (fun y => if y.ns = g.ns && y.number = g.number then f y else y) }

/-- Superblocks that no stored segment needs any more, erased; an open one stays. -/
def Core.reclaim (c : Core) : Core :=
  (c.cave.supers.filter (fun p => p.2.full && !c.cave.segs.any (fun g => g.uses p.1))).foldl (fun c p => c.eraseSuper p.1) c

/-! ### Content and parity (R299, R300, R305) -/

/-- The bytewise XOR of pages. -/
def xorPages (l : List (List Byte)) : List Byte :=
  (List.range 16384).map (fun i => l.foldl (fun (b : Byte) p => b ^^^ p.getD i 0) 0)

/-- Data page `k`, zeros where nothing has been laid yet. -/
def CSuper.dataPage (s : CSuper) (k : Nat) : List Byte :=
  let d := (s.data.drop (k * 16384)).take 16384
  d ++ List.replicate (16384 - d.length) 0
/-- Data pages of a stripe: n - 1. -/
def CSuper.dataUnits (s : CSuper) : Nat := s.units.length - 1
/-- The page of unit `u` in stripe `j`: data, or the parity of the stripe's data pages (R299). -/
def CSuper.page (s : CSuper) (j u : Nat) : List Byte :=
  let n := s.dataUnits
  if u < n then s.dataPage (j * n + u) else xorPages ((List.range n).map (fun i => s.dataPage (j * n + i)))
/-- That page rebuilt from the stripe's other pages (R300, R305). -/
def CSuper.rebuilt (s : CSuper) (j u : Nat) : List Byte :=
  xorPages (((List.range s.units.length).filter (fun i => i != u)).map (s.page j))

/-- `len` bytes of a superblock's content from `off`, the pages of the units in `miss` rebuilt from their stripes. -/
def CSuper.read (s : CSuper) (miss : List Nat) (off len : Nat) : List Byte :=
  if miss = [] then (s.data.drop off).take len
  else
    let n := s.dataUnits
    let pages := (List.range ((off % 16384 + len + 16383) / 16384)).flatMap (fun i =>
      let k := off / 16384 + i
      if miss.contains (k % n) then s.rebuilt (k / n) (k % n) else s.dataPage k)
    (pages.drop (off % 16384)).take len

/-- A segment's bytes as the flash gives them, members in `bad` not decoding. -/
def Core.segBytes (c : Core) (g : CSeg) (bad : List Nat) : List Byte :=
  g.spans.flatMap (fun p => (c.super p.1).read (c.missingUnits p.1 (c.super p.1) bad) p.2.1 p.2.2)

/-! ### Storing (R302 to R304) -/

/-- The oldest segment of a namespace that no hold covers, stored and committed. -/
def Core.oldestFree (c : Core) (ns : Nat) : Option CSeg :=
  c.cave.segs.find? (fun g => g.ns = ns && g.done && (ns = 64 || !c.heldBy ns g.number))

def Core.dropSeg (c : Core) (g : CSeg) : Core :=
  (c.setCave { c.cave with segs := c.cave.segs.filter (fun y => !(y.ns = g.ns && y.number = g.number)) }).reclaim

/-- The namespace's open superblock. -/
def Core.openOf (c : Core) (ns : Nat) : Option (Nat × CSuper) := c.cave.supers.find? (fun p => p.2.ns = ns && !p.2.full)

/-- Bytes laid into the namespace's open superblock and further ones, stripe by stripe: the places used. -/
def Core.lay (c : Core) (ns : Nat) : Nat → List Byte → List (Nat × Nat × Nat) → Option (Core × List (Nat × Nat × Nat))
  | 0, _, _ => none
  | k + 1, bs, acc =>
    match c.openOf ns with
    | some (id, s) =>
      let off := s.data.length
      let m := min bs.length (s.cap - off)
      let c := c.setSuper id { s with data := s.data ++ bs.take m, full := decide (s.cap ≤ off + m) }
      let acc := if m = 0 then acc else acc ++ [(id, off, m)]
      if bs.length = m then some (c, acc) else c.lay ns k (bs.drop m) acc
    | none => match c.openSuper ns with
      | some (c, _) => c.lay ns k bs acc
      | none => none

/-- Bytes laid, the oldest unheld segments recycled while the pool is short or the capacity is; none when nothing more may be
recycled (R302). -/
def Core.layFor (c : Core) (ns : Nat) (bs : List Byte) : Nat → Option (Core × List (Nat × Nat × Nat))
  | 0 => none
  | k + 1 =>
    let used := ((c.cave.segs.filter (fun g => g.ns = ns)).map (fun g => g.len)).sum
    match if c.nsCap ns < used + bs.length then none else c.lay ns (2 * bs.length + 4) bs [] with
    | some r => some r
    | none => match c.oldestFree ns with
      | some g => (c.dropSeg g).layFor ns bs k
      | none => none

/-- A new item stored in a namespace; none when there is no room and nothing to recycle. -/
def Core.storeSeg (c : Core) (ns num : Nat) (bs : List Byte) (stage : List (Nat × Nat)) : Option Core :=
  (c.layFor ns bs (c.cave.segs.length + 1)).map (fun r => r.1.setCave { r.1.cave with
    segs := r.1.cave.segs ++ [{ ns := ns, number := num, len := bs.length, spans := r.2, stage := stage }] })

/-- The cave takes segments: enabled, ready, not READONLY. -/
def Core.caveTakes (c : Core) : Bool :=
  c.rdB (rg0 .CAVE_CTRL) 0 && c.rdB (rg0 .CAVE_STATUS) 31 && !c.rdB (rg0 .CAVE_STATUS) 30

/-- The cave as a requester of the staging ring: QoS port 30 (R303). -/
def Core.caveClient (c : Core) : Client := { tag := { granted := true, world := c.secure }, cls := 5, no := 30, port := 30, ss := 9 }

/-- The staging bytes of a segment read through port 30; a refused piece reads as zeros. -/
def Core.stageRead (c : Core) (g : SegBytes) : Core × List Byte :=
  if g.stage = [] then (c, g.bytes)
  else g.stage.foldl (fun (r : Core × List Byte) p =>
    let x := r.1.unitRead c.caveClient p.1 p.2
    (x.1, r.2 ++ if x.2.1 = [] then List.replicate p.2 0 else x.2.1)) (c, [])

/-- CAVE_SEGMENT_ACCEPT: the oldest offered segment, read from the staging ring: its intent entry, its stripes; refused with 371 (R302,
R303, R312). -/
def execCaveSegmentAccept (s : State) : Host.Outcome State Fault Refusal :=
  run s (fun c =>
    match c.wit.offered with
    | [] => c
    | g :: rest =>
      if !c.caveTakes then c.raise 371 else
      let x := c.stageRead g
      match x.1.storeSeg g.ns g.number x.2 g.stage with
      | none => x.1.raise 371
      | some d =>
        let d := d.setCave { d.cave with intents := kset (0, 0) d.cave.intents g.ns (g.number + 1, Config.sha384 x.2) }
        ({ d with wit := { d.wit with offered := rest } } : Core).witShow)

/-- A segment that finds no room while it is written goes back to the staging ring, with 371; a block of the journal stays in the
journal's ring, with spill_err (R302, R312, R421). -/
def Core.giveBack (c : Core) (g : CSeg) (bs : List Byte) : Core :=
  let c := c.setCave { c.cave with segs := c.cave.segs.filter (fun y => !(y.ns = g.ns && y.number = g.number)) }
  if g.ns = 64 then
    (({ c with jnl := { c.jnl with inFlight := 0 } } : Core).setB (rg0 .JNL_STATUS) 29 true).setB (rg0 .JNL_EVT) 2 true
  else
    ({ c with wit := { c.wit with offered := { ns := g.ns, number := g.number, bytes := bs, stage := g.stage } :: c.wit.offered } } : Core).raise 371

/-- The open stripe of a superblock abandoned: what of it is not committed is written again from staging, into the next superblock;
the superblock takes no more data and what it holds stays readable (R304, R311). -/
def Core.abandon (c : Core) (id : Nat) : Core :=
  let s := c.super id
  let w := s.dataUnits * 16384
  let open_ := if w = 0 then 0 else (s.data.length - 1) / w * w
  let c := c.setSuper id { s with full := true }
  let c := (c.cave.segs.filter (fun g => !g.done && g.uses id)).foldl (fun (c : Core) g =>
    let keep : List (Nat × Nat × Nat) := g.spans.flatMap (fun p =>
      if p.1 != id || decide (p.2.1 + p.2.2 ≤ open_) then [p] else if p.2.1 < open_ then [(id, p.2.1, open_ - p.2.1)] else [])
    let moved := g.spans.flatMap (fun p =>
      if p.1 != id || decide (p.2.1 + p.2.2 ≤ open_) then [] else
      let a := max p.2.1 open_
      (s.data.drop a).take (p.2.1 + p.2.2 - a))
    if moved = [] then c else
    let all := g.spans.flatMap (fun p => ((c.super p.1).data.drop p.2.1).take p.2.2)
    match (c.updSeg g (fun y => { y with len := y.len - moved.length })).layFor g.ns moved (c.cave.segs.length + 1) with
    | some (d, ids) => d.updSeg g (fun y => { y with len := g.len, spans := keep ++ ids })
    | none => c.giveBack g all) c
  c.reclaim

/-- A member that leaves ACTIVE: new superblocks do without it, and every stripe being written with a unit on it is written again (R310,
R311). -/
def Core.leaveActive (c : Core) (m : Nat) : Core :=
  (c.cave.supers.filter (fun p => !p.2.full && p.2.units.any (fun u => u.1 = m))).foldl (fun c p => c.abandon p.1) c

/-- A block gone bad: replaced by a spare of its die, 806; 810 below an eighth of the spares; without a spare the member is retired
as FAILED (R304, R306). -/
def Core.growBad (c : Core) (m b : Nat) : Core :=
  let x := c.member m
  let die := if x.blocks = 0 then 0 else b / x.blocks
  let c := c.setBlk m b { c.blk m b with bad := true, weak := false }
  let c := (c.caveEvt 6).addSat (rg .CAVE_MEMBER_STATUS m) 15 0 1
  if sparesLeft x die = 0 then (c.memMove m 4).leaveActive m
  else
    let c := c.setMember m { x with used := kset 0 x.used die (kget 0 x.used die + 1) }
    let c := if (sparesLeft x die - 1) * 8 < spares x then c.caveEvt 10 else c
    c.caveShow

/-- PROGRAM_FAILURE: the block is grown bad, the open stripe of its superblock is written again into the next one; of a block that no
superblock holds, its erasure has failed (R304, R306). -/
def execProgramFailure (m b : Nat) (s : State) : Host.Outcome State Fault Refusal :=
  run s (fun c =>
    let x := c.member m
    let q := c.blk m b
    if c.memState m ≠ 1 ∨ x.dies * x.blocks ≤ b ∨ q.bad ∨ q.factory then c else
    match q.sb with
    | none => c.growBad m b
    | some id => if c.cave.segs.any (fun g => !g.done && g.uses id) then (c.growBad m b).abandon id else c)

/-! ### Reading and refreshing (R305 to R308) -/

/-- A superblock scheduled for refresh. -/
def Core.setDue (c : Core) (id : Nat) : Core := c.setSuper id { c.super id with due := true }

/-- A loss recorded: 808, the counter, a journal entry with namespace and number (R305). -/
def Core.segLost (c : Core) (g : CSeg) : Core :=
  (((c.updSeg g (fun y => { y with lost := true })).caveEvt 8).addSat (rg0 .CAVE_LOSS_CNT) 15 0 1).fault 808 g.ns g.number

/-- The superblocks that hold a segment, each once. -/
def CSeg.supers (g : CSeg) : List Nat := (g.spans.map (fun p => p.1)).eraseDups

/-- Every block of a superblock read once more, those of the members in `bad` having needed parity (R306, R308). -/
def Core.countRead (c : Core) (bad : List Nat) (id : Nat) : Core :=
  (c.super id).units.foldl (fun c u =>
    let q := c.blk u.1 u.2
    if q.sb != some id then c else c.setBlk u.1 u.2 { q with reads := q.reads + 1, weak := q.weak || bad.contains u.1 }) c

/-- A read of a stored segment: retries and parity schedule a refresh; more than one unit of a stripe missing loses it. `bad`
names members whose codeword does not decode. -/
def Core.caveRead (c : Core) (g : CSeg) (retry : Bool) (bad : List Nat) : Core × Option (List Byte) :=
  let c := g.supers.foldl (Core.countRead · bad) c
  let most := (g.supers.map (fun id => c.missing id (c.super id) bad)).foldl max 0
  if g.lost || decide (1 < most) then (c.segLost g, none)
  else
    let c := if most = 1 then c.caveEvt 7 else c
    let bs := c.segBytes g bad
    let lim := c.rdN (rg0 .CAVE_RD_LIMIT)
    let c := g.supers.foldl (fun c id =>
      if retry || c.missing id (c.super id) bad != 0 || (c.super id).units.any (fun u => decide (lim ≤ (c.blk u.1 u.2).reads))
      then c.setDue id else c) c
    (c, some bs)

def Core.findSeg (c : Core) (ns num : Nat) : Option CSeg := c.cave.segs.find? (fun g => g.ns = ns && g.number = num && g.done)

/-- CAVE_READ: a read by the WIT, affinage or rebuild. -/
def execCaveRead (ns num : Nat) (retry : Bool) (bad : List Nat) (s : State) : Host.Outcome State Fault Refusal :=
  run s (fun c => match c.findSeg ns num with
    | some g => (c.caveRead g retry bad).1
    | none => c)

/-- The retention limit in 10^-9 units. -/
def Core.retLimit (c : Core) : Nat := c.rdF (rg0 .CAVE_PATROL) 15 0 * 1000000000

/-- AFFINAGE_READ: the patrol reads page `page` of a programmed block, its worst codeword with `bits` corrected bits, beyond 100 only by
retries (R300); a threshold met schedules a refresh, a second missing unit loses what the stripe holds; the last page of the pass
raises 809 (R305, R308). -/
def execAffinageRead (m b page bits : Nat) (retry parity : Bool) (s : State) : Host.Outcome State Fault Refusal :=
  run s (fun c =>
    match (c.blk m b).sb with
    | none => c
    | some id =>
      let q := c.blk m b
      if c.memState m ≠ 1 ∨ page ≠ kget 0 c.cave.patrol (blkKey m b) then c else
      let c := c.setBlk m b { q with reads := q.reads + 1, weak := q.weak || parity }
      let k := c.super id
      let gone := parity && decide (1 < c.missing id k [m])
      let w := k.dataUnits * 16384
      let c := if gone then
          (c.cave.segs.filter (fun g => g.done && !g.lost && g.spans.any (fun p =>
            p.1 = id && decide (p.2.1 < (page + 1) * w) && decide (page * w < p.2.1 + p.2.2)))).foldl (fun c g => c.segLost g) c
        else if parity then c.caveEvt 7 else c
      let due := decide (c.rdF (rg0 .CAVE_PATROL) 23 16 ≤ bits) || decide (100 < bits) || retry || parity
        || decide (c.rdN (rg0 .CAVE_RD_LIMIT) ≤ q.reads + 1) || decide (c.retLimit ≤ c.retOf m b)
      let c := if due then c.setDue id else c
      let c := c.setCave { c.cave with patrol := kset 0 c.cave.patrol (blkKey m b) (page + 1) }
      let whole := c.cave.blks.all (fun p => p.2.sb.isNone || c.memState (p.1 / 4294967296) != 1 ||
        decide ((c.member (p.1 / 4294967296)).blkBytes ≤ kget 0 c.cave.patrol p.1 * 16384))
      if whole then (c.setCave { c.cave with patrol := [] }).caveEvt 9 else c)

/-- Content laid into fresh superblocks of its own, each closed: their numbers and the bytes each took. -/
def Core.layFresh (c : Core) (ns : Nat) : Nat → List Byte → List (Nat × Nat) → Option (Core × List (Nat × Nat))
  | 0, _, _ => none
  | k + 1, bs, acc =>
    match c.openSuper ns with
    | none => none
    | some (c, id) =>
      let s := c.super id
      let m := min bs.length s.cap
      let c := c.setSuper id { s with data := bs.take m, full := true }
      if bs.length = m then some (c, acc ++ [(id, m)])
      else if m = 0 then none else c.layFresh ns k (bs.drop m) (acc ++ [(id, m)])

/-- The places in those superblocks of `len` bytes from `off` of what was laid. -/
def mapSpan : List (Nat × Nat) → Nat → Nat → List (Nat × Nat × Nat)
  | [], _, _ => []
  | (id, m) :: rest, off, len =>
    let k := min len (m - off)
    (if k = 0 then [] else [(id, off, k)]) ++ mapSpan rest (off - m) (len - k)

/-- A superblock's content rewritten to fresh blocks at the current width, the old ones erased, those that needed parity grown bad
(R306, R308). -/
def Core.rewriteSuper (c : Core) (id : Nat) : Core :=
  let s := c.super id
  let weak := s.units.filter (fun u => (c.blk u.1 u.2).weak)
  let bs := s.read (c.missingUnits id s []) 0 s.data.length
  match c.layFresh s.ns (bs.length + 1) bs [] with
  | none => c
  | some (d, news) =>
    let d := d.setCave { d.cave with segs := d.cave.segs.map (fun g =>
      if g.uses id then { g with spans := g.spans.flatMap (fun p => if p.1 = id then mapSpan news p.2.1 p.2.2 else [p]) } else g) }
    weak.foldl (fun d u => d.growBad u.1 u.2) (d.eraseSuper id)

/-- SUPERBLOCK_REFRESH: of a superblock that is due; one that still fills is refreshed once it is full. -/
def execSuperblockRefresh (sb : Nat) (s : State) : Host.Outcome State Fault Refusal :=
  run s (fun c =>
    let k := c.super sb
    if k.due && k.full && decide (c.missing sb k [] < 2) then (c.rewriteSuper sb).caveShow else c)

/-- 2^(i/10) in 10^-9 units, rounded down. -/
def tenth : Nat → Nat
  | 0 => 1000000000 | 1 => 1071773462 | 2 => 1148698354 | 3 => 1231144413 | 4 => 1319507910
  | 5 => 1414213562 | 6 => 1515716566 | 7 => 1624504792 | 8 => 1741101126 | _ => 1866065983

/-- One minute's advance of a retention count at a temperature in °C (R308). -/
def retStep (t : Int) : Nat :=
  let i := (t - 55).toNat
  tenth (i % 10) * 2 ^ (i / 10) / 60

/-- A signed 16-bit field. -/
def sx16 (n : Nat) : Int := if n < 32768 then (n : Int) else (n : Int) - 65536

/-- RETENTION_UPDATE: 60 s later every block's count advances; `temps` gives dies' temperatures by member and die, the junction
temperature holding for the rest (R308). -/
def execRetentionUpdate (temps : List (Nat × Nat × Int)) (s : State) : Host.Outcome State Fault Refusal :=
  run s (fun c =>
    let c := c.upTo (c.cave.retAt + 60000000000000)
    let junction : Int := sx16 (c.rdF (rg0 .PWR_TEMP) 15 0) / 16
    let temp (m d : Nat) : Int := ((temps.find? (fun q => q.1 = m && q.2.1 = d)).map (fun q => q.2.2)).getD junction
    let c := c.setCave { c.cave with
      retAt := c.now
      members := c.cave.members.map (fun p => (p.1, { p.2 with
        ret := (List.range p.2.dies).foldl (fun r d => kset 0 r d (kget 0 r d + retStep (temp p.1 d))) p.2.ret })) }
    c.cave.supers.foldl (fun c p =>
      if p.2.units.any (fun u => decide (c.retLimit ≤ c.retOf u.1 u.2)) then c.setDue p.1 else c) c)

/-! ### Removing and replacing members (R310 to R312) -/

def Core.memResult (c : Core) (busy : Bool) (code : Nat) : Core :=
  c.wr (rg0 .CAVE_MEMBER_RESULT) (w32 ((if busy then 2147483648 else 0) + code))

/-- CAVE_MEMBER_CMD (R310, R312): 1 REMOVE, 2 INSERT, 3 FORCE_REMOVE. -/
def Core.memCmd (c : Core) (op m : Nat) : Core :=
  let st := c.memState m
  if op = 0 ∨ 3 < op then c
  else if op ≠ 2 ∧ st = 5 then ((c.setCave { c.cave with cmd := none }).memMove m 3).memResult false 0
  else if c.cave.cmd.isSome then c.memResult true 5
  else if op = 2 then
    if (st = 0 ∨ st = 3 ∨ st = 4) ∧ c.rdB (rg .CAVE_MEMBER_CFG m) 31 then
      let c := ((c.setCave { c.cave with cmd := some (2, m) }).memMove m 5).memResult true 0
      if c.degraded then c.setCave { c.cave with rebuild := true } else c
    else c.memResult false 3
  else if st ≠ 1 then c.memResult false 3
  else if op = 1 ∧ c.actives.length ≤ 3 then c.memResult false 2
  else (((c.setCave { c.cave with cmd := some (op, m) }).memMove m 2).leaveActive m).memResult true 0

/-- CAVE_MEMBER_CFG written, in ABSENT, REMOVED, FAILED or REJECTED; a chip enable that another member names is not taken. -/
def Core.memCfg (c : Core) (m : Nat) (v : W32) : Core :=
  let st := c.memState m
  let clash := bit v 31 && (List.range 32).any (fun k =>
    let o := c.rd (rg .CAVE_MEMBER_CFG k)
    k != m && bit o 31 && fld o 9 8 = fld v 9 8 && (o &&& v &&& 0xFF) != 0)
  if st = 1 ∨ st = 2 ∨ st = 5 ∨ clash then c
  else
    let c := c.wr (rg .CAVE_MEMBER_CFG m) (v &&& 0x800003FF)
    if st = 6 ∨ !bit v 31 && (st = 3 || st = 4) then c.memMove m 0 else c

/-- MEMBER_DRAINED: a REMOVING member is REMOVED. -/
def execMemberDrained (m : Nat) (s : State) : Host.Outcome State Fault Refusal :=
  run s (fun c => if c.memState m = 2 then ((c.setCave { c.cave with cmd := none }).memMove m 3).memResult false 0 else c)

/-- MEMBER_TIMEOUT: the member is FAILED; its channel's event and timeout count (R310, R313). -/
def execMemberTimeout (m : Nat) (s : State) : Host.Outcome State Fault Refusal :=
  run s (fun c =>
    let st := c.memState m
    if st = 1 ∨ st = 2 ∨ st = 5 then
      let ch := c.rdF (rg .CAVE_MEMBER_CFG m) 9 8
      let c := (c.caveEvt ch).addSat (rg .CAVE_CH_STATUS ch) 23 16 1
      let c := if st = 1 then c else (c.setCave { c.cave with cmd := none }).memResult false 0
      (c.memMove m 4).leaveActive m
    else c)

/-- A member identified (R298). -/
def idOk (i : MemberId) : Bool :=
  i.pageBytes = 16384 && decide (1600 ≤ i.spareBytes) && i.tlcSlc && decide (1000 ≤ i.endurance) && i.alike &&
    decide (0 < i.dies) && decide (0 < i.blocks)

/-- The outcome of an identification: ACTIVE with its geometry, every block erased, factory bad blocks left out; or REJECTED. -/
def Core.admitMember (c : Core) (i : MemberId) : Core :=
  let ch := c.rdF (rg .CAVE_MEMBER_CFG i.m) 9 8
  if idOk i then
    let c := c.setCave { c.cave with blks := c.cave.blks.filter (fun p => p.1 / 4294967296 != i.m) }
    let c := c.setMember i.m { dies := i.dies, blocks := i.blocks, blkBytes := i.pages * 16384, endurance := i.endurance, base := 1 }
    let c := i.bad.foldl (fun c b => c.setBlk i.m b { factory := true }) c
    let lim := if c.rdF (rg0 .CAVE_CTRL) 3 2 = 0 then 2 else 1
    let c := (c.setF (rg .CAVE_CH_STATUS ch) 30 29 (min lim i.iface)).setF (rg .CAVE_CH_STATUS ch) 15 0 i.rate
    c.memMove i.m 1
  else c.memMove i.m 6

/-- INSERTION_DONE: identification, checks and erasure end. -/
def execInsertionDone (id : MemberId) (s : State) : Host.Outcome State Fault Refusal :=
  run s (fun c =>
    if c.memState id.m ≠ 5 then c
    else ((c.setCave { c.cave with cmd := none }).admitMember id).memResult false (if idOk id then 0 else 4))

/-- The superblocks in the order rebuild takes them: those that hold a held segment first, then the newest (R311). -/
def Core.rebuildOrder (c : Core) : List (Nat × CSuper) :=
  let l := c.cave.supers.reverse
  let held (p : Nat × CSuper) : Bool := c.cave.segs.any (fun g => g.uses p.1 && decide (g.ns < 64) && c.heldBy g.ns g.number)
  l.filter held ++ l.filter (fun p => !held p)

/-- REBUILD_COMPLETE: degraded superblocks rewritten at the current width; those with two units missing are lost (R311). -/
def execRebuildComplete (s : State) : Host.Outcome State Fault Refusal :=
  run s (fun c =>
    if !c.cave.rebuild then c else
    let c := c.rebuildOrder.foldl (fun c p =>
      let k := c.missing p.1 p.2 []
      if k = 0 then c
      else if k = 1 then c.rewriteSuper p.1
      else
        let c := (c.cave.segs.filter (fun g => g.uses p.1 && !g.lost)).foldl (fun c g => c.segLost g) c
        (c.setCave { c.cave with segs := c.cave.segs.map (fun g =>
          if g.uses p.1 then { g with spans := g.spans.filter (fun x => x.1 != p.1) } else g) }).eraseSuper p.1) c
    let c := c.setCave { c.cave with rebuild := false }
    ((c.wr (rg0 .CAVE_REBUILD) 0).caveEvt 5).caveShow)

/-- CAVE_CTRL.format: accepted while en is 0 and the WIT does not record; every configured member is identified as `ids` tells,
and every ACTIVE one erased (R310, R312). -/
def Core.caveFormat (c : Core) (ids : List MemberId) : Core :=
  if c.rdB (rg0 .CAVE_CTRL) 0 || c.witOn then c else
  let live := c.actives
  let c := c.setCave { c.cave with
    segs := [], supers := [], intents := [], patrol := [], rebuild := false, formatted := true
    members := c.cave.members.map (fun p => if live.contains p.1 then (p.1, { p.2 with base := p.2.base + 1, ret := [] }) else p)
    blks := c.cave.blks.map (fun p => (p.1, { p.2 with reads := 0, ret := 0, weak := false, sb := none })) }
  let c := ids.foldl (fun c i => if c.memState i.m = 0 && c.rdB (rg .CAVE_MEMBER_CFG i.m) 31 then c.admitMember i else c) c
  let c := c.setB (rg0 .CAVE_STATUS) 31 (decide (c.actives ≠ []))
  ((c.wr (rg0 .CAVE_REBUILD) 0).wearShow).caveShow

/-- CAVE_NS0_GIB or CAVE_JNL_GIB written: refused, and journalled as a fault, when the granted shares would not fit (R301). -/
def Core.caveGib (c : Core) (r : Reg) (v : W32) : Core :=
  let shares := (c.parts.map (fun p => p.2.caveGib)).sum
  let d := c.wr r v
  let left := if d.rdB (rg0 .CAVE_STATUS) 31 then d.caveUsable / 1073741824 else 0
  if d.rdN (rg0 .CAVE_NS0_GIB) + d.rdN (rg0 .CAVE_JNL_GIB) + shares ≤ left ∨ shares = 0 then d
  else c.fault r.addr v.toNat 0

/-- At start-up the cave reads its members again: the ACTIVE ones answer as before, a removal that was running is over, an insertion that
was running has failed; what has not committed is gone (R298, R304, R310). -/
def Core.caveStart (c : Core) : Core :=
  let c := c.setCave { c.cave with cmd := none, rebuild := false, segs := c.cave.segs.filter (fun g => g.done) }
  let c := (List.range 32).foldl (fun (c : Core) m =>
    let st := c.memState m
    let fresh := if !c.rdB (rg .CAVE_MEMBER_CFG m) 31 then 0 else if st = 2 then 3 else if st = 5 then 4 else st
    if st = fresh then c else c.memMove m fresh) c
  let c := c.setCave { c.cave with supers := c.cave.supers.map (fun p => (p.1, { p.2 with full := true })) }
  let c := c.setB (rg0 .CAVE_STATUS) 31 (c.cave.formatted && decide (c.actives ≠ []))
  if c.actives = [] then c else
  let v := w32 (Config.freeWord c.free).toNat
  (((c.tick).wr (rg0 .CAVE_WRATE) v).wearShow.reclaim).caveShow

end Sys2Proof.Machine
end

