-- ==== Sys2Proof/Machine/Hold.lean ====
section
/-! DEFINITION. Holds on witness segments and the commit of a segment, which may close an open hold (R295, R303). -/

namespace Sys2Proof.Machine

open Sys2Proof

def Core.holdFirst (c : Core) (n : Nat) : Nat := c.rdPair (rg .WIT_HOLD_FIRST_LO n) (rg .WIT_HOLD_FIRST_HI n)
def Core.holdLast (c : Core) (n : Nat) : Nat := c.rdPair (rg .WIT_HOLD_LAST_LO n) (rg .WIT_HOLD_LAST_HI n)
/-- The last number of an open hold. -/
def openEnd : Nat := 18446744073709551615

/-- Segments of a namespace that are present, in flash or on the way there: number and bytes. -/
def Core.present (c : Core) (ns : Nat) : List (Nat × Nat) :=
  ((c.cave.segs.filter (fun g => g.ns = ns)).map (fun g => (g.number, g.len)))
    ++ ((c.wit.offered.filter (fun g => g.ns = ns)).map (fun g => (g.number, g.bytes.length)))
    ++ ((c.wit.closed.filter (fun g => g.ns = ns)).map (fun g => (g.number, g.body.length + segExtra)))

/-- Bytes of a namespace's present segments that holds cover, and the limit on them. -/
def Core.heldBytes (c : Core) (ns : Nat) : Nat :=
  (((c.present ns).filter (fun p => c.heldBy ns p.1)).map (fun p => p.2)).sum
def Core.holdLimit (c : Core) (ns : Nat) : Nat := c.nsCap ns * c.rdF (rg0 .WIT_HOLD_MAX) 6 0 / 100

/-- The hold record (type 0x07): slot, set 1 or released 0, first and last number. -/
def Core.holdRecord (c : Core) (n : Nat) (set_ : Bool) : Core :=
  c.witNow (n / 16) 7 0 0 (leBytes 4 n ++ leBytes 4 (if set_ then 1 else 0) ++ leBytes 8 (c.holdFirst n) ++ leBytes 8 (c.holdLast n))

/-- The namespace's holds may be set by the tag (R295). -/
def Core.holdAllowed (c : Core) (t : Owner) (n : Nat) : Bool :=
  if n / 16 = 0 then c.isSecure t else c.isSecure t || isP0 t || (!t.world && t.part = n / 16)

def Core.holdResult (c : Core) (n code : Nat) : Core :=
  let c := c.setF (rg .WIT_HOLD_CTL n) 3 0 code
  if code = 0 then c else c.raise 370

/-- WIT_HOLD_CTL.set. -/
def Core.holdSet (c : Core) (t : Owner) (n : Nat) : Core :=
  let ns := n / 16
  if !c.holdAllowed t n then c.holdResult n 1 else
  let a := c.holdFirst n
  let b := c.holdLast n
  let next := c.rdPair (rg .WIT_SEG_LO ns) (rg .WIT_SEG_HI ns)
  let inside := ((c.present ns).filter (fun p => decide (a ≤ p.1 ∧ p.1 ≤ b))).length
  let good := if b = openEnd then decide (a = next) || (c.present ns).any (fun p => p.1 = a) else decide (a ≤ b) && inside = b - a + 1
  if !good then c.holdResult n 3
  else
    let d := (c.setB (rg .WIT_HOLD_CTL n) 29 true).setB (rg .WIT_HOLD_CTL n) 28 false
    if d.holdLimit ns < d.heldBytes ns then c.holdResult n 2
    else (d.holdResult n 0).holdRecord n true

/-- WIT_HOLD_CTL.release. -/
def Core.holdRelease (c : Core) (t : Owner) (n : Nat) : Core :=
  if !c.holdAllowed t n then c.holdResult n 1 else
  let was := c.rdB (rg .WIT_HOLD_CTL n) 29
  let c := ((c.setB (rg .WIT_HOLD_CTL n) 29 false).setB (rg .WIT_HOLD_CTL n) 28 false).holdResult n 0
  if was then c.holdRecord n false else c

/-- An open hold that the new segment takes past the limit closes before it (R295). -/
def Core.closeHolds (c : Core) (ns num : Nat) : Core :=
  (List.range 16).foldl (fun c j =>
    let n := 16 * ns + j
    if c.rdB (rg .WIT_HOLD_CTL n) 29 && c.holdLast n == openEnd && decide (c.holdFirst n ≤ num) && decide (c.holdLimit ns < c.heldBytes ns) then
      let c := (c.wrPair (rg .WIT_HOLD_LAST_LO n) (rg .WIT_HOLD_LAST_HI n) (num - 1)).setB (rg .WIT_HOLD_CTL n) 28 true
      ((c.raise 370).fault 370 n (num - 1)).holdRecord n true
    else c) c

/-- SEGMENT_COMMIT: the oldest segment in programming is committed and its staging bytes released. -/
def execSegmentCommit (s : State) : Host.Outcome State Fault Refusal :=
  run s (fun c =>
    match c.cave.segs.find? (fun g => !g.done && decide (g.ns < 64)) with
    | none => c
    | some g =>
      let c := c.setCave { c.cave with segs := c.cave.segs.map (fun y =>
        if y.ns = g.ns && y.number = g.number then { y with done := true } else y) }
      (c.closeHolds g.ns g.number).witShow)

end Sys2Proof.Machine
end

