-- ==== Sys2Proof/Machine/Haptics.lean ====
section
/-! DEFINITION. Haptic channels (R350 to R362): triggers, segments, enables, faults, the region-to-effect map. -/

namespace Sys2Proof.Machine

open Sys2Proof

def Core.hpt (c : Core) (n : Nat) : Hpt := kget {} c.hpts n
def Core.setHpt (c : Core) (n : Nat) (x : Hpt) : Core := { c with hpts := kset {} c.hpts n x }
def Core.hptEvt (c : Core) (n i : Nat) : Core := c.setB (rg .HPT_EVT n) i true
def Core.hptOn (c : Core) (n : Nat) : Bool := decide (n < c.counts.hpt)

/-- An effect as its registers hold it. -/
def Core.hptEff (c : Core) (n e : Nat) : HEff :=
  let w (i : Nat) : W32 := c.rd (rg2 .HPT_EFF n (4 * e + i))
  { e := e, w0 := w 0, w1 := w 1, w2 := w 2, w3 := w 3 }

def HEff.urgent (x : HEff) : Bool := bit x.w0 30
/-- Duration of segment 1 overdrive, 2 main, 3 brake in µs. -/
def HEff.len (x : HEff) : Nat → Nat
  | 1 => fld x.w2 31 16
  | 2 => fld x.w0 15 0
  | _ => fld x.w2 15 0

/-- VOICE_COIL is in force when it may be used (R352). -/
def Core.hptMode (c : Core) (n : Nat) : Core :=
  let v := c.rd (rg .HPT_STATUS n)
  let x := c.hpt n
  if x.eff.isSome || x.cut.isSome then c
  else c.setB (rg .HPT_STATUS n) 30 (c.rdB (rg .HPT_CTRL n) 1 && !bit v 1 && bit v 0 && x.test.isNone)
def Core.voiceCoil (c : Core) (n : Nat) : Bool := c.rdB (rg .HPT_STATUS n) 30

/-- HPT_STATUS's running fields. -/
def Core.hptShow (c : Core) (n seg : Nat) : Core :=
  let x := c.hpt n
  let v := setFld (c.rd (rg .HPT_STATUS n)) 29 28 seg
  let v := setFld (setBit v 27 x.pend.isSome) 26 23 (match x.eff with | some y => y.e | none => 0)
  c.wr (rg .HPT_STATUS n) v
def Core.hptSeg (c : Core) (n : Nat) : Nat := c.rdF (rg .HPT_STATUS n) 29 28

/-- The drive value at a segment's start: constant segments exactly, a sine and a square at phase 0, the brake against the last main sample
(R353). -/
def segDrive (x : HEff) (seg : Nat) (last : Int) : Int :=
  let amp (n : Nat) : Int := (n : Int)
  match seg with
  | 1 => amp (fld x.w1 15 0)
  | 2 => if fld x.w0 28 27 < 2 then 0 else amp (fld x.w1 31 16)
  | 3 => if last = 0 then 0 else if last < 0 then amp (fld x.w3 31 16) else -(amp (fld x.w3 31 16))
  | _ => 0

/-- sin(2πu / 10^12) for `u` up to a quarter of 10^12, in units of 2^-60: the series to its 25th power in fixed point. -/
def sinQuarter (u : Nat) : Nat :=
  let x := u * 7244019458077122842 / 1000000000000
  ((List.range 12).foldl (fun (r : Int × Nat) k =>
    let term : Nat := r.2 * x / 2 ^ 60 * x / 2 ^ 60 / ((2 * k + 2) * (2 * k + 3))
    (if k % 2 = 0 then r.1 - (term : Int) else r.1 + (term : Int), term)) ((x : Int), x)).1.toNat

/-- Main sample `t` ps into its segment, taken at the last of the 96,000 sample instants a second: main_amp times the sine, rounded up or
down by a free bit, or times its sign (R351, R353; log entry 67). -/
def mainDrive (x : HEff) (t salt : Nat) : Int :=
  let amp := fld x.w1 31 16
  let u := t * 96000 / 1000000000000 * fld x.w0 26 16 * 1000000000000 / 96000 % 1000000000000
  let q := u / 250000000000
  let r := u % 250000000000
  let size : Nat := match fld x.w0 28 27 with
    | 0 => min amp (amp * sinQuarter (if q % 2 = 0 then r else 250000000000 - r) / 2 ^ 60 + (Config.freeWord salt).toNat % 2)
    | _ => amp
  if 2 ≤ fld x.w0 28 27 then (amp : Int)
  else if q % 2 = 0 ∧ r = 0 then 0
  else if q < 2 then (size : Int) else -(size : Int)

/-- Duty 1.0 of a carrier period as `hptPins` counts it: two for the piezo's halving, 65,535 steps of drive, 256 of gain. -/
def dutyOne : Nat := 2 * 65535 * 256

/-- The self-test's pulse is on the bridge: not while an effect plays on the piezo, EN and PZEN never being asserted together (R350,
R361). -/
def Hpt.pulse (h : Hpt) : Bool := h.test.isSome && !(h.en != 0 && h.pz)

/-- EN and PZEN (R350, R358). -/
def Core.hptEnables (c : Core) (n : Nat) : Bool × Bool :=
  let h := c.hpt n
  let on := h.en != 0 && decide (h.offAt ≤ c.now)
  ((on && !h.pz) || h.pulse, on && h.pz)

/-- The duties of PWMA and PWMB while a segment drives: |d| on one side of the H-bridge, or 0.5 + d ÷ 2 on PWMA with the
drive multiplied by HPT_PZ_GAIN ÷ 256 and saturated for the piezo; a quarter on PWMA in the self-test's pulse; both low otherwise, the
hold time included (R350, R351, R358, R361). -/
def Core.hptPins (c : Core) (n : Nat) : Nat × Nat :=
  let h := c.hpt n
  let full : Int := 65535 * 256
  if h.pulse then (dutyOne / 4, 0)
  else if h.eff.isNone || h.en != 2 || decide (c.now < h.from_) then (0, 0)
  else if h.pz then ((full + max (-full) (min full (h.drive * (c.rdF (rg .HPT_PZ_GAIN n) 8 0 : Int)))).toNat, 0)
  else if 0 ≤ h.drive then (512 * h.drive.natAbs, 0)
  else (0, 512 * h.drive.natAbs)

/-- The first segment from `k` on with a duration; 0 when none is left. -/
def HEff.next (x : HEff) (k : Nat) : Nat := ((List.range 4).find? (fun i => decide (k ≤ i ∧ 1 ≤ i) && x.len i != 0)).getD 0

/-- Carrier period in ps (R351). -/
def Core.carrierPs (c : Core) (n : Nat) : Nat :=
  let f := c.rdF (rg .HPT_PWM n) 31 24
  1000000000 / (if 40 ≤ f ∧ f ≤ 100 then f else 40)

/-- A segment begins at `t`; a departure that is due stays due in overdrive and main. -/
def Core.hptEnter (c : Core) (n : Nat) (x : HEff) (seg t : Nat) : Core :=
  let h := c.hpt n
  let c := c.setHpt n { h with eff := some x, leave := h.leave && seg != 3, cut := none, from_ := t, till := t + x.len seg * 1000000
                               drive := segDrive x seg h.drive }
  c.hptShow n seg

/-- An effect's first segment begins with a carrier period (R357, R358). -/
def Core.hptFirst (c : Core) (n : Nat) (x : HEff) : Core :=
  c.hptEnter n x (x.next 1) (ceilDiv c.now (c.carrierPs n) * c.carrierPs n)

/-- The effect is to start: at once with the enable ready, else after the enable delay, with both enables low for 100 µs on a
switch of stage (R350, R358). -/
def Core.hptStart (c : Core) (n : Nat) (x : HEff) : Core :=
  let c := c.hptMode n
  let pz := !c.voiceCoil n
  let h := c.hpt n
  let p := c.rd (rg .HPT_PWM n)
  if pz && c.rdB (rg .HPT_STATUS n) 2 then (c.setHpt n { h with eff := none, pend := none }).addSat (rg .HPT_ERR_CNT n) 15 0 1 |>.hptShow n 0
  else if h.en = 2 && h.pz == pz then
    if x.next 1 = 0 then c else c.hptFirst n x
  else
    let low := if h.en = 0 then h.offAt else c.now
    let at_ := if h.pz = pz then c.now else max c.now (low + 100000000)
    let c := c.setHpt n { h with eff := some x, en := 1, pz := pz, leave := false, cut := none, drive := 0, offAt := at_
                                 readyAt := at_ + min 150 (fld p 7 0) * 1000000 }
    c.hptShow n 0

/-- The running effect ends: notify, then the pending effect or the hold time (R357, R358). -/
def Core.hptEnd (c : Core) (n : Nat) : Core :=
  let h := c.hpt n
  let c := match h.eff with | some y => if bit y.w0 29 then c.hptEvt n 0 else c | none => c
  let hold := c.rdF (rg .HPT_PWM n) 23 16
  let c := c.setHpt n { h with eff := none, pend := none, leave := false, cut := none, drive := 0, from_ := 0, till := 0
                               en := if h.closing then 0 else h.en, offAt := if h.closing then c.now else h.offAt, closing := false, holdAt := c.now + hold * 1000000000 }
  let c := (c.hptShow n 0).hptMode n
  match h.pend with
  | some y => c.hptStart n y
  | none => c

def Core.hptDrop (c : Core) (n : Nat) : Core := c.addSat (rg .HPT_STATUS n) 15 8 1

/-- A trigger of effect `e` (R355 to R357). -/
def Core.hptTrigger (c : Core) (n e : Nat) : Core :=
  let x := c.hptEff n e
  let h := c.hpt n
  let seg := c.hptSeg n
  let pzBad := !c.voiceCoil n && c.rdB (rg .HPT_STATUS n) 2
  if 15 < e || !bit x.w0 31 || !c.rdB (rg .HPT_CTRL n) 0 then c
  else if pzBad then c.addSat (rg .HPT_ERR_CNT n) 15 0 1
  else if h.eff.isNone then c.hptStart n x
  else
    let keep := !x.urgent && (h.cut.isSome || (match h.pend with | some y => y.urgent | none => false))
    if keep then c.hptDrop n
    else
      let c := if h.pend.isSome || h.cut.isSome then c.hptDrop n else c
      if x.urgent then (c.setHpt n { h with pend := none, cut := some x }).hptShow n seg
      else (c.setHpt n { h with pend := some x, leave := h.leave || seg != 3 }).hptShow n seg

/-- HPT_GO written. -/
def Core.hptGo (c : Core) (n : Nat) (v : W32) : Core := if bit v 31 && c.hptOn n then c.hptTrigger n (fld v 3 0) else c

/-- The last main sample taken before the brake (R353). -/
def Core.hptLast (c : Core) (n seg : Nat) : Core :=
  let h := c.hpt n
  match h.eff with
  | some x => if seg = 2 ∧ h.from_ < c.now then (c.tick).setHpt n { h with drive := mainDrive x (c.now - h.from_ - 1) c.free } else c
  | none => c

/-- CARRIER_PERIOD: the next carrier period: an urgent effect starts, or a replaced one leaves for its brake (R357, R359). -/
def execCarrierPeriod (ch : Nat) (s : State) : Host.Outcome State Fault Refusal :=
  run s (fun c =>
    let h := c.hpt ch
    if !c.hptOn ch || h.en = 0 then c else
    let p := c.carrierPs ch
    let c := c.upTo ((c.now / p + 1) * p)
    let seg := c.hptSeg ch
    match h.cut, h.eff with
    | some x, _ => if h.en = 2 then (if x.next 1 = 0 then c.hptEnd ch else (c.setHpt ch { h with leave := false }).hptFirst ch x)
        else c.setHpt ch { h with eff := some x, cut := none }
    | none, some x =>
      if h.en ≠ 2 then c
      else if h.leave ∧ (seg = 1 ∨ seg = 2) then (if x.len 3 = 0 then c.hptEnd ch else (c.hptLast ch seg).hptEnter ch x 3 c.now)
      else if seg = 2 then (c.tick).setHpt ch { h with drive := mainDrive x (c.now - h.from_) c.free }
      else c
    | none, none => c)

/-- EFFECT_SEGMENT_END: the running segment's time ends. -/
def execEffectSegmentEnd (ch : Nat) (s : State) : Host.Outcome State Fault Refusal :=
  run s (fun c =>
    let h := c.hpt ch
    let seg := c.hptSeg ch
    match h.eff with
    | none => c
    | some x =>
      if seg = 0 then c else
      let c := c.upTo h.till
      let nxt := if seg = 3 then 0 else x.next (seg + 1)
      if nxt = 0 then c.hptEnd ch else (c.hptLast ch seg).hptEnter ch x nxt c.now)

/-- ENABLE_HOLD_EXPIRY: the hold time ends with nothing started. -/
def execEnableHoldExpiry (ch : Nat) (s : State) : Host.Outcome State Fault Refusal :=
  run s (fun c =>
    let h := c.hpt ch
    if h.eff.isNone && h.en = 2 then ((c.upTo h.holdAt).setHpt ch { h with en := 0, offAt := max c.now h.holdAt }) else c)

/-- ENABLE_DELAY_DONE: the enable delay ends and the first segment begins. -/
def execEnableDelayDone (ch : Nat) (s : State) : Host.Outcome State Fault Refusal :=
  run s (fun c =>
    let h := c.hpt ch
    match h.eff with
    | some x =>
      if h.en ≠ 1 then c else
      let c := (c.upTo h.readyAt).setHpt ch { h with en := 2 }
      if x.next 1 = 0 then c.hptEnd ch else c.hptFirst ch x
    | none => c)

/-- HAPTIC_FAULT: 0 missing, 1 stalled, 2 overcurrent, 3 piezo open, as the samples of ISNS and VSNS show it; a stall only after 2 ms of
main; an overcurrent takes the drive off in the next carrier period (R360). -/
def execHapticFault (ch kind : Nat) (s : State) : Host.Outcome State Fault Refusal :=
  run s (fun c =>
    let h := c.hpt ch
    let drives := h.en = 2 && h.eff.isSome
    let piezo := h.pz
    if !c.hptOn ch || !drives || decide (3 < kind) || (decide (kind < 2) && piezo) || (kind = 3 && !piezo)
        || (kind = 1 && (c.hptSeg ch != 2 || decide (h.till < h.from_ + 2000000000))) then c else
    let p := c.carrierPs ch
    let c := if kind = 1 then c.upTo (h.from_ + 2000000000) else if kind = 2 then c.upTo ((c.now / p + 1) * p) else c
    let c := if kind = 2 then c.setB (rg .HPT_STATUS ch) 3 true else c
    let c := c.setB (rg .HPT_STATUS ch) (if piezo then 2 else 1) true
    let c := ((c.hptEvt ch 1).addSat (rg .HPT_ERR_CNT ch) 15 0 1).fault (897 + 2 * ch) kind 0
    let c := c.setHpt ch { h with eff := none, pend := none, leave := false, cut := none, drive := 0, en := 0, offAt := c.now, closing := false }
    let c := (c.hptShow ch 0).hptMode ch
    let waiting := (h.cut.toList ++ h.pend.toList).head?
    match waiting with
    | some y => if piezo then c.addSat (rg .HPT_ERR_CNT ch) 15 0 1 else c.hptStart ch y
    | none => c)

/-- HPT_CTRL.selftest, written while the voice coil is idle (R361). -/
def Core.hptTest (c : Core) (n : Nat) : Core :=
  let h := c.hpt n
  if h.test.isSome || (h.eff.isSome && !h.pz) then c
  else (c.setHpt n { h with test := some (c.now + 5000000000) }).hptMode n

/-- HAPTIC_SELFTEST_END: mean V ÷ mean I is `r` mΩ. -/
def execHapticSelftestEnd (ch r : Nat) (s : State) : Host.Outcome State Fault Refusal :=
  run s (fun c =>
    let h := c.hpt ch
    match h.test with
    | none => c
    | some t =>
      let c := (c.upTo t).setHpt ch { h with test := none }
      let l := c.rd (rg .HPT_LIM2 ch)
      let ok := decide (fld l 15 0 ≤ r ∧ r ≤ fld l 31 16)
      let c := (c.setB (rg .HPT_STATUS ch) 1 (!ok)).setB (rg .HPT_STATUS ch) 0 ok
      let c := if ok then c.wr (rg .HPT_RCOIL ch) (w32 (r % 65536)) else c
      (c.hptEvt ch 0).hptMode ch)

/-- The channel is stopped (R359): the pending effect cleared, the running one braked, then idle with its enables low. -/
def Core.hptStop (c : Core) (n : Nat) : Core :=
  let h := c.hpt n
  if h.eff.isSome && h.en = 2 then (c.setHpt n { h with pend := none, cut := none, leave := true, closing := true }).hptShow n (c.hptSeg n)
  else (c.setHpt n { h with eff := none, pend := none, cut := none, leave := false, closing := false, en := 0, drive := 0
                            offAt := if h.en = 0 then h.offAt else c.now }).hptShow n 0

/-- HPT_CTRL written. -/
def Core.hptCtrl (c : Core) (n : Nat) (v : W32) : Core :=
  let was := c.rdB (rg .HPT_CTRL n) 0
  let c := (c.wr (rg .HPT_CTRL n) (v &&& 3)).hptMode n
  let c := if was && !bit v 0 then c.hptStop n else c
  if bit v 2 && c.hptOn n then c.hptTest n else c

/-- A word of HPT_EFF written: ignored and journalled for a frequency outside 20 to 1,000 Hz or a brake above 8,000 µs (R353). -/
def Core.hptEffWrite (c : Core) (ag : Agent) (r : Reg) (v : W32) : Core :=
  let i := r.j % 4
  if (i = 0 ∧ (fld v 26 16 < 20 ∨ 1000 < fld v 26 16)) ∨ (i = 2 ∧ 8000 < fld v 15 0) then c.discarded ag r.addr v
  else c.wr r (if i = 3 then v &&& 0xFFFF0000 else v)

/-! ### The region-to-effect map (R354 to R356) -/

/-- A valid region holds a pixel. -/
def Core.inRegion (c : Core) (n r x y : Nat) : Bool :=
  let a := c.rd (rg2 .HPT_REGION n (2 * r))
  let b := c.rd (rg2 .HPT_REGION n (2 * r + 1))
  bit a 31 && decide (fld b 25 13 ≤ x ∧ x < fld b 25 13 + 16 * fld b 12 6 ∧ fld a 29 16 ≤ y ∧ y < fld a 29 16 + 16 * fld b 5 0)
/-- The lowest-numbered valid region that holds a pixel. -/
def Core.hptRegion (c : Core) (n x y : Nat) : Option Nat := (List.range 16).find? (fun r => c.inRegion n r x y)

/-- A touch event for the map: identifier, 0 down, 1 move, 3 lift, position, and the position of the scan before. -/
structure MapEvent where
  id  : Nat
  ev  : Nat
  x16 : Nat
  y16 : Nat
  old : Option (Nat × Nat)
  deriving DecidableEq, Repr

/-- The effect an event asks for. -/
def Core.mapEffect (c : Core) (n : Nat) (m : MapEvent) : Option Nat :=
  match c.hptRegion n (m.x16 / 16) (m.y16 / 16) with
  | none => none
  | some r =>
    let a := c.rd (rg2 .HPT_REGION n (2 * r))
    let e := if m.ev = 3 then fld a 7 0 else fld a 15 8
    let entered : Bool := match m.old with | some (x, y) => !c.inRegion n r (x / 16) (y / 16) | none => true
    if 15 ≤ e then none
    else if m.ev = 0 ∨ m.ev = 3 ∨ (m.ev = 1 ∧ bit a 30 ∧ entered) then some e else none

/-- An item put before the first one that it does not follow. -/
def insBy {α : Type} (le : α → α → Bool) (x : α) : List α → List α
  | [] => [x]
  | y :: ys => if le x y then x :: y :: ys else y :: insBy le x ys
def sortBy {α : Type} (le : α → α → Bool) : List α → List α
  | [] => []
  | x :: xs => insBy le x (sortBy le xs)

/-- The triggers of one scan taken in order (R356). -/
def Core.hptScan (c : Core) (n : Nat) (ms : List MapEvent) : Core :=
  let l := ms.filterMap (fun m => (c.mapEffect n m).map (fun e => (if (c.hptEff n e).urgent then 0 else 1, m.id, if m.ev = 3 then 0 else 1, e)))
  let key (p : Nat × Nat × Nat × Nat) : Nat := p.1 * 1024 + p.2.1 * 2 + p.2.2.1
  (sortBy (fun a b => decide (key a ≤ key b)) l).foldl (fun c p => c.hptTrigger n p.2.2.2) c

/-- The events of a scan of touch engine `t` handed to its channel (R339, R355). -/
def Core.hptFrom (c : Core) (t : Nat) (cfg : W32) (ms : List MapEvent) : Core :=
  let n := fld cfg 23 20
  if ms = [] || !bit cfg 19 || !c.hptOn n || c.ownerStopped (winOf (c.owner 10 n)) then c
  else if !sameOwner (c.owner 9 t) (c.owner 10 n) then (c.setB (rg .HPT_STATUS n) 4 true).hptEvt n 1
  else c.hptScan n ms

end Sys2Proof.Machine
end

