-- ==== Sys2Proof/Machine/Touch.lean ====
section
/-! DEFINITION. Touch engines (R333 to R348): scans, contacts, baselines, reports, self-test, the Touch Sample Link. Raw counts
are inputs. -/

namespace Sys2Proof.Machine

open Sys2Proof

def Core.tch (c : Core) (t : Nat) : Touch := kget {} c.tchs t
def Core.setTch (c : Core) (t : Nat) (x : Touch) : Core := { c with tchs := kset {} c.tchs t x }
def Core.tchEvt (c : Core) (t i : Nat) : Core := c.setB (rg .TCH_EVT t) i true
def Core.tchOn (c : Core) (t : Nat) : Bool := touchPresent c.counts t && c.rdB (rg .TCH_STATUS t) 29
def linked (t : Nat) : Bool := decide (4 ≤ t)

/-! ### Scans (R337, R338) -/

/-- Period of the rate timer in ps. -/
def tchPeriod (cfg : W32) : Nat := 1000000000000 / max 1 (fld cfg 8 0)

/-- An engine that scans for a gesture in WATCH (R347). -/
def Core.watching (c : Core) (t : Nat) : Option TchWatch := if c.pwr.asleep = 1 then (c.tch t).watch else none

/-- TOUCH_RATE_TICK: the rate timer's next tick: a scan waits for its window, or the tick is skipped (R337); 30 a second in WATCH (R347). -/
def execTouchRateTick (t : Nat) (s : State) : Host.Outcome State Fault Refusal :=
  run s (fun c =>
    let x := c.tch t
    if (c.watching t).isSome then
      let at_ := x.tickAt + 33333333333
      (c.upTo at_).setTch t { x with tickAt := at_, armed := !x.scanning }
    else
    if !c.tchOn t then c else
    let at_ := x.tickAt + tchPeriod (c.rd (rg .TCH_CFG t))
    let c := (c.upTo at_).setTch t { x with tickAt := at_ }
    if x.scanning then c.addSat (rg .TCH_STATUS t) 23 16 1
    else if c.rdF (rg .TCH_CFG t) 31 30 = 1 && !c.rdB (rg .TCH_STATUS t) 28 then c
    else c.setTch t { x with tickAt := at_, armed := true })

/-- The length in ns of the chosen head's windows, 0 without windows. -/
def Core.tchLen (c : Core) (cfg : W32) : Nat :=
  let h := fld cfg 29 26
  if !c.scanning h then 0 else if fld cfg 31 30 = 0 then (c.head h).winLine else (c.head h).winFrame

/-- The window of the chosen head can take a pulse. -/
def Core.tchWindow (c : Core) (cfg pulse : W32) : Bool := decide (fld pulse 11 0 ≤ c.tchLen cfg ∧ 0 < c.tchLen cfg)

/-- From one window of the chosen head to the next, in ps: a line, or a frame. -/
def Core.tchGap (c : Core) (cfg : W32) : Nat :=
  match (c.head (fld cfg 29 26)).con with
  | some k => if fld cfg 31 30 = 0 then c.linesPs k 1 else c.linesPs k k.vTotal
  | none => 0

/-- The time of a window's start in the current line, or of the frame window of the current frame (R245). -/
def Core.tchWin0 (c : Core) (cfg : W32) : Nat :=
  let x := c.head (fld cfg 29 26)
  match x.con with
  | some k =>
    let q := x.inForce 3
    if fld cfg 31 30 = 0 then x.lineAt + (k.hActive + fld q 7 0) * c.linesPs k 1 / max 1 k.hTotal
    else x.blankAt + c.linesPs k (fld q 23 16)
  | none => 0

/-- The first window of the chosen head that starts at `t` or later. -/
def Core.tchNextWin (c : Core) (cfg : W32) (t : Nat) : Nat :=
  let w := c.tchWin0 cfg
  if t ≤ w then w else w + ceilDiv (t - w) (max 1 (c.tchGap cfg)) * c.tchGap cfg

/-- The end in ps of a scan's pulse number `n`, its windows going on as they began (R337). -/
def pulseEnd (x : Touch) (n : Nat) : Nat :=
  let tp := fld x.pulse 11 0 * 1000
  let m := n - x.sent
  if m = 0 then x.startAt
  else if x.perWin = 0 then x.startAt + m * tp
  else x.startAt + (m - 1) / x.perWin * x.winPs + ((m - 1) % x.perWin + 1) * tp

/-! ### Command frames of the Touch Sample Link (R336) -/

/-- A command frame: op and length, payload, CRC-8/SAE-J1850 over them; the start and stop bits are the wire's. -/
def tslFrame (op : Nat) (payload : List Byte) : List Byte :=
  let bs := BitVec.ofNat 8 (op * 16 + payload.length) :: payload
  bs ++ [BitVec.ofNat 8 (bs.foldl (fun r b => crcByte 8 0x1D false r b.toNat) 0xFF ^^^ 0xFF)]

/-- The frames of a scan: SCAN, then one STEP before each step: the drive lines, sense electrodes, drive electrodes. -/
def scanFrames (geom pulse : W32) : List (List Byte) :=
  let n := fld geom 5 0
  tslFrame 1 [BitVec.ofNat 8 n, 2] :: ((List.range n ++ [32, 33]).map (fun i =>
    tslFrame 2 [BitVec.ofNat 8 i, BitVec.ofNat 8 (fld pulse 23 16), BitVec.ofNat 8 (fld pulse 11 0 / 256), BitVec.ofNat 8 (fld pulse 11 0)]))

/-- The frame of a WRITE or READ. -/
def tslCmdFrame (v data : W32) : List Byte :=
  let addr : List Byte := [BitVec.ofNat 8 (fld v 15 8), BitVec.ofNat 8 (fld v 7 0)]
  let n := fld v 25 24 + 1
  if fld v 31 28 = 8 then tslFrame 8 (addr ++ (leBytes 4 data.toNat).take n) else tslFrame 9 (addr ++ [BitVec.ofNat 8 n])

/-- A waiting transaction's command frame goes out: at once, or in the gap after a scan. -/
def Core.tslSend (c : Core) (t : Nat) : Core :=
  let x := c.tch t
  match x.tsl with
  | some v => if x.scanning then c else c.setTch t { x with tslAt := c.now, tslOut := [tslCmdFrame v (c.rd (rg .TCH_TSL_DATA t))] }
  | none => c

/-- The engine stops: what it follows is forgotten (R342, R346). -/
def Core.tchStop (c : Core) (t : Nat) : Core :=
  let x := c.tch t
  ((c.setB (rg .TCH_STATUS t) 29 false).setB (rg .TCH_STATUS t) 28 false).setTch t
    { seq := x.seq, tsl := x.tsl, tslAt := x.tslAt, tslOut := x.tslOut }

/-- SCAN_START: in the first suitable window; configuration, rebase and self-test take effect here. The engine of a partition
that is being reset stops there, its ring pointers cleared (R346). In WATCH at each tick (R347). -/
def execScanStart (t : Nat) (s : State) : Host.Outcome State Fault Refusal :=
  run s (fun c =>
    let x := c.tch t
    if (c.watching t).isSome then (if x.armed && !x.scanning then c.setTch t { x with armed := false, scanning := true, startAt := c.now } else c) else
    let cfg := c.rd (rg .TCH_CFG t)
    let pulse := c.rd (rg .TCH_PULSE t)
    let win := c.tchWindow cfg pulse
    let free := fld cfg 31 30 = 2 || (c.rdB (rg .TCH_STATUS t) 28 && !win)
    let ready := if free || fld cfg 31 30 = 0 then x.armed else true
    if !c.tchOn t || x.scanning || !ready || !(free || win) then c else
    if c.ownerStopped (winOf (c.owner 9 t)) then ((c.tchStop t).wr (rg .TCH_RING_WPTR t) 0).wr (rg .TCH_RING_RPTR t) 0 else
    let c := c.setB (rg .TCH_STATUS t) 28 (c.rdB (rg .TCH_STATUS t) 28 && !win)
    let c := if free then c else c.upTo (c.tchNextWin cfg (if fld cfg 31 30 = 0 then max c.now x.tickAt else c.now))
    let geom := c.rd (rg .TCH_GEOM t)
    c.setTch t { x with armed := false, scanning := true, startAt := c.now, cfg := cfg, geom := geom, pulse := pulse, sent := 0
                        perWin := if free then 0 else c.tchLen cfg / max 1 (fld pulse 11 0), winPs := if free then 0 else c.tchGap cfg
                        tslOut := if linked t then scanFrames geom pulse else []
                        testScan := x.selftest, selftest := false, rebasing := x.rebase, rebase := false, steps := [], spoiled := false })

/-- FREE_MODE_FALLBACK: no window for 2 rate periods; a scan in progress sends its remaining pulses back to back (R338). -/
def execFreeModeFallback (t : Nat) (s : State) : Host.Outcome State Fault Refusal :=
  run s (fun c =>
    let x := c.tch t
    let cfg := if x.scanning then x.cfg else c.rd (rg .TCH_CFG t)
    if !c.tchOn t || decide (1 < fld cfg 31 30) || c.rdB (rg .TCH_STATUS t) 28 || c.tchLen cfg != 0 then c
    else
      let h := c.head (fld cfg 29 26)
      let last := max x.since (if fld cfg 31 30 = 0 then h.lineAt else h.blankAt)
      let c := c.upTo (last + 2 * tchPeriod cfg)
      let c := (c.setB (rg .TCH_STATUS t) 28 true).tchEvt t 3
      if x.scanning then
        let wins := (last - x.startAt) / max 1 x.winPs + 1
        c.setTch t { x with sent := x.sent + wins * x.perWin, perWin := 0, startAt := c.now }
      else c.setTch t { x with armed := true })

/-! ### Nodes -/

def tchSense (x : Touch) : Nat := fld x.geom 13 8
def tchDrive (x : Touch) : Nat := fld x.geom 5 0

/-- The nodes that share an edge with a node. -/
def neighbours (sn dn i : Nat) : List Nat :=
  let r := i / sn
  let k := i % sn
  (if 0 < k then [i - 1] else []) ++ (if k + 1 < sn then [i + 1] else []) ++ (if 0 < r then [i - sn] else [])
    ++ (if r + 1 < dn then [i + sn] else [])

/-- Signal of a mutual node: baseline less raw, in 1/256 count (R340). -/
def nodeSignal (x : Touch) (raw : List Nat) (i : Nat) : Int := kget 0 x.base i - 256 * (raw.getD i 0 : Int)

/-- A group grown over touched nodes that share edges. -/
def growGroup (sn dn : Nat) (t : List Nat) : Nat → List Nat → List Nat
  | 0, g => g
  | k + 1, g =>
    let more := t.filter (fun i => !g.contains i && (neighbours sn dn i).any (fun j => g.contains j))
    if more = [] then g else growGroup sn dn t k (g ++ more)

/-- The groups of touched nodes, each one contact. -/
def groups (sn dn : Nat) : Nat → List Nat → List (List Nat)
  | 0, _ => []
  | _, [] => []
  | k + 1, i :: is =>
    let g := growGroup sn dn (i :: is) (is.length + 1) [i]
    g :: groups sn dn k (is.filter (fun j => !g.contains j))

/-- A contact found: centroid over its nodes and their edge neighbours in 1/256 node (a free bit rounds an inexact one; a free value where
the signals sum to nothing), and peak (R340). Columns are sense lines, rows drive lines. -/
def centroid (x : Touch) (raw : List Nat) (salt : Nat) (g : List Nat) : Int × Int × Nat :=
  let sn := tchSense x
  let dn := tchDrive x
  let all := (g ++ g.flatMap (neighbours sn dn)).eraseDups
  let sum (f : Nat → Int) : Int := all.foldl (fun (a : Int) i => a + nodeSignal x raw i * f i) 0
  let w := (sum (fun _ => 1)).toNat
  let at_ (f : Nat → Int) (v : W64) : Int := if w = 0 then (v.setWidth 14).toNat else roundQ (256 * sum f) w v
  let px := at_ (fun i => ((i % sn : Nat) : Int)) (Config.freeWord salt)
  let py := at_ (fun i => ((i / sn : Nat) : Int)) (Config.freeWord (salt + 1))
  (px, py, (g.foldl (fun (m : Int) i => max m (nodeSignal x raw i / 256)) 0).toNat)

/-- A position in 1/16 pixel (R341). -/
def mapPos (m : W32) (p : Int) : Nat :=
  let off := (BitVec.ofNat 16 (fld m 31 16)).toInt
  (max 0 (min 65535 (off * 16 + p * (fld m 15 0 : Int) / 256))).toNat

/-- Squared distance in 1/256 node. -/
def dist2 (a b : Int × Int) : Nat := ((a.1 - b.1) * (a.1 - b.1) + (a.2 - b.2) * (a.2 - b.2)).toNat

/-- New contacts matched to old ones, nearest pair first, within `jump` nodes: index pairs (R341). -/
def matchPairs (jump : Nat) (old new : List (Int × Int)) : Nat → List (Nat × Nat) → List (Nat × Nat)
  | 0, acc => acc
  | k + 1, acc =>
    let cands := (List.range old.length).flatMap (fun i => (List.range new.length).filterMap (fun j =>
      let d := dist2 (old.getD i (0, 0)) (new.getD j (0, 0))
      if acc.any (fun p => p.1 = i || p.2 = j) || decide ((256 * jump) ^ 2 < d) then none else some (d, i, j)))
    match cands.foldl (fun (r : Option (Nat × Nat × Nat)) p => match r with
        | none => some p
        | some q => if p.1 < q.1 then some p else r) none with
    | none => acc
    | some p => matchPairs jump old new k (acc ++ [(p.2.1, p.2.2)])

/-! ### Reports (R344) -/

/-- A contact's 8 bytes: event 0 down, 1 move, 2 held, 3 lift, 4 cancelled. -/
def contactBytes (k : Contact) (ev : Nat) : List Byte :=
  leBytes 1 (k.id + 16 * ev) ++ leBytes 1 (if k.long then 1 else 0) ++ leBytes 2 k.x16 ++ leBytes 2 k.y16 ++ leBytes 2 (sat 65535 k.peak)

/-- A report written into the ring, or dropped; the witness takes it (R344). -/
def Core.tchReport (c : Core) (t : Nat) (time : Nat) (more : Bool) (cs : List (Contact × Nat)) : Core :=
  let x := c.tch t
  let fl := (if more then 1 else 0) + (if x.perWin = 0 then 2 else 0) + (if cs.any (fun k => k.1.long) then 4 else 0)
  let bs := leBytes 4 x.seq.toNat ++ leBytes 1 t ++ leBytes 1 cs.length ++ leBytes 2 fl ++ leBytes 8 time ++ cs.flatMap (fun k => contactBytes k.1 k.2)
  let c := c.setTch t { x with seq := x.seq + 1 }
  let c := if c.rdB (rg0 .WIT_CTRL) 29 then c.witPut 0 { kind := 2, stream := t, flags := 0, time := time, payload := bs } else c
  let base := c.rdF (rg .TCH_RING_BASE t) 24 7 * 128
  let n := c.rdF (rg .TCH_RING_CFG t) 7 0
  let w := c.rdN (rg .TCH_RING_WPTR t)
  if !c.inBanks (c.owner 9 t) base (n * 128) || n = 0 then (c.setB (rg .TCH_STATUS t) 25 true).tchEvt t 3
  else if (w + 1) % n = c.rdF (rg .TCH_RING_RPTR t) 7 0 then (c.addSat (rg .TCH_STATUS t) 15 8 1).tchEvt t 3
  else
    let u : Client := { tag := c.owner 9 t, cls := 5, no := 32 + t, port := 29, ss := 8 }
    ((c.unitWrite u (base + w * 128) bs).1.wr (rg .TCH_RING_WPTR t) (w32 ((w + 1) % n))).tchEvt t 0

/-! ### The end of a scan -/

/-- Baselines after a scan: untouched nodes move toward raw (R342); a free bit rounds an inexact step. -/
def trackBase (x : Touch) (raw : List Nat) (k salt : Nat) : KMap Int :=
  (List.range (tchSense x * tchDrive x)).foldl (fun m i =>
    if kget false x.touched i then m
    else
      let b := kget 0 m i
      kset 0 m i (b + roundQ (256 * (raw.getD i 0 : Int) - b) (2 ^ k) (Config.freeWord (salt + i)))) x.base

/-- The nodes of an anti-touch re-baseline, and the counts of consecutive scans (R343). -/
def antiTouch (x : Touch) (raw : List Nat) (anti n : Nat) : List Nat × KMap Nat :=
  let sn := tchSense x
  let dn := tchDrive x
  let near (i : Nat) : Bool := (List.range (sn * dn)).any (fun j => kget false x.touched j &&
    decide (((i / sn : Nat) : Int) - ((j / sn : Nat) : Int) ≤ 1 ∧ ((j / sn : Nat) : Int) - ((i / sn : Nat) : Int) ≤ 1 ∧
      ((i % sn : Nat) : Int) - ((j % sn : Nat) : Int) ≤ 1 ∧ ((j % sn : Nat) : Int) - ((i % sn : Nat) : Int) ≤ 1))
  let cnt := (List.range (sn * dn)).foldl (fun (m : KMap Nat) i =>
    if nodeSignal x raw i ≤ -(256 * (anti : Int)) && !near i then kset 0 m i (kget 0 x.anti i + 1) else m) []
  let hit := (cnt.filter (fun p => decide (max 1 n ≤ p.2))).map (fun p => p.1)
  (hit, cnt.filter (fun p => decide (p.2 < max 1 n)))

/-- The self-test's results (R345): self counts by electrode (sense 0 to 47, drive 48 to 79), neighbour changes by electrode. -/
def Core.tchTest (c : Core) (t : Nat) (self adj : List Nat) : Core :=
  let x := c.tch t
  let l := c.rd (rg .TCH_ST_LIM t)
  let es := (List.range 80).filter (fun e => if e < 48 then decide (e < tchSense x) else decide (e - 48 < tchDrive x))
  let opens := es.filter (fun e => decide (self.getD e 0 < 64 * fld l 31 22))
  let joined (e : Nat) : Bool := e != 47 && es.contains e && es.contains (e + 1) && decide (64 * fld l 11 0 < adj.getD e 0)
  let shorts := es.filter (fun e => decide (64 * fld l 21 12 < self.getD e 0) || joined e || (decide (0 < e) && joined (e - 1)))
  let mask (s : List Nat) (i : Nat) : W32 := w32 ((s.filter (fun e => e / 32 = i)).foldl (fun m e => m + 2 ^ (e % 32)) 0)
  let c := (List.range 3).foldl (fun c i => (c.wr (rg2 .TCH_ST_RES t i) (mask opens i)).wr (rg2 .TCH_ST_RES t (i + 3)) (mask shorts i)) c
  let c := c.tchEvt t 2
  if opens = [] ∧ shorts = [] then c
  else ((c.setB (rg .TCH_STATUS t) 27 true).tchEvt t 3).fault (864 + 4 * t + 3) opens.length shorts.length

/-- Raw counts shown (R349). -/
def Core.tchShow (c : Core) (t : Nat) (raw self : List Nat) : Core :=
  let pair (l : List Nat) (i : Nat) : W32 := w32 (l.getD (2 * i) 0 % 65536 + l.getD (2 * i + 1) 0 % 65536 * 65536)
  let c := (List.range (ceilDiv raw.length 2)).foldl (fun c i => if i < 768 then c.wr (rg2 .TCH_RAW t i) (pair raw i) else c) c
  (List.range (ceilDiv self.length 2)).foldl (fun c i => if i < 48 then c.wr (rg2 .TCH_SELF t i) (pair self i) else c) c

/-- Contacts formed, tracked and passed on (R339 to R344). -/
def Core.tchTrack (c : Core) (t : Nat) (raw : List Nat) : Core :=
  let x := c.tch t
  let sn := tchSense x
  let dn := tchDrive x
  let nodes := List.range (sn * dn)
  let thr := c.rd (rg .TCH_THR t)
  let tr := c.rd (rg .TCH_TRACK t)
  let hot := nodes.foldl (fun (m : KMap Bool) i =>
    let s := nodeSignal x raw i
    if (256 * (fld thr 31 16 : Int) ≤ s) || (kget false x.touched i && decide (256 * (fld thr 15 0 : Int) ≤ s)) then kset false m i true else m) []
  let x := { x with touched := hot }
  let gs := groups sn dn (nodes.length + 1) (nodes.filter (fun i => kget false hot i))
  let found := gs.zipIdx.map (fun p => centroid x raw (c.free + 2 * p.2) p.1)
  let ranked := sortBy (fun a b => decide (b.2.2 ≤ a.2.2)) found
  let new := ranked.take 10
  let pairs := matchPairs (fld tr 23 16) (x.contacts.map (fun k => (k.px, k.py))) (new.map (fun p => (p.1, p.2.1))) 16 []
  let made := new.zipIdx.foldl (fun (r : List (Contact × Nat)) q =>
    let p := q.1
    let x16 := mapPos (c.rd (rg .TCH_XMAP t)) p.1
    let y16 := mapPos (c.rd (rg .TCH_YMAP t)) p.2.1
    match pairs.find? (fun z => z.2 = q.2) with
    | some z =>
      let o := x.contacts.getD z.1 { id := 0, px := 0, py := 0, x16 := 0, y16 := 0, peak := 0, since := 0 }
      r ++ [({ o with px := p.1, py := p.2.1, x16 := x16, y16 := y16, peak := p.2.2 }, if o.x16 = x16 ∧ o.y16 = y16 then 2 else 1)]
    | none =>
      let used := (x.contacts.map (fun k => k.id)) ++ r.map (fun k => k.1.id)
      let id := ((List.range 16).find? (fun i => !used.contains i)).getD 15
      r ++ [({ id := id, px := p.1, py := p.2.1, x16 := x16, y16 := y16, peak := p.2.2, since := c.mono }, 0)]) []
  let gone := (x.contacts.zipIdx.filter (fun q => !pairs.any (fun z => z.1 = q.2))).map (fun q => (q.1, if x.rebasing then 4 else 3))
  let olds := x.contacts
  let all := if x.rebasing then olds.map (fun k => (k, 4)) else made ++ gone
  let anti := antiTouch x raw (fld tr 15 0) (fld tr 27 24)
  let base := if x.rebasing then nodes.foldl (fun m i => kset 0 m i (256 * (raw.getD i 0 : Int))) []
    else trackBase x raw (fld tr 31 28) (c.free + 2 * gs.length)
  let fix := (anti.1 ++ anti.1.flatMap (neighbours sn dn)).eraseDups
  let base := if x.rebasing then base else fix.foldl (fun m i => kset 0 m i (256 * (raw.getD i 0 : Int))) base
  let c := c.setTch t { x with base := base, anti := anti.2, touched := if x.rebasing then [] else hot, rebasing := false
                               contacts := if x.rebasing then [] else made.map (fun p => p.1) }
  let c : Core := { c with free := c.free + 2 * gs.length + nodes.length }
  let c := if anti.1 = [] ∨ x.rebasing then c else (c.addSat (rg .TCH_STATUS t) 7 0 1).tchEvt t 1
  let ms := if x.rebasing then [] else (made ++ gone).map (fun p =>
    ({ id := p.1.id, ev := p.2, x16 := p.1.x16, y16 := p.1.y16
       old := (olds.find? (fun k => k.id = p.1.id)).map (fun k => (k.x16, k.y16)) } : MapEvent))
  let time := c.ns
  let c := c.hptFrom t x.cfg (ms.filter (fun m => m.ev != 2))
  if all = [] then c else c.tchReport t time (decide (10 < ranked.length) || decide (10 < all.length)) (all.take 10)

/-! ### Gestures in WATCH (R347) -/

/-- Centroid of the touched electrodes of an axis, `n` of them from `base`, in 1/256 node. -/
def axisPos (x : TchWatch) (sig : Nat → Int) (base n : Nat) : Int :=
  let es := (List.range n).filter (fun i => kget false x.touched (base + i))
  let w := (es.map (fun i => sig (base + i))).foldl (fun a b => a + b) 0
  (es.map (fun (i : Nat) => 256 * (i : Int) * sig (base + i))).foldl (fun a b => a + b) 0 / max 1 w

/-- The gesture followed over one scan's contact: its position when one is down. `v` is TCH_WAKE, `now` in ns. -/
def gestureStep (v : W32) (now : Nat) (x : TchWatch) (at_ : Option (Int × Int)) : TchWatch :=
  let ms (n : Nat) : Nat := 4 * n * 1000000
  match at_, x.down with
  | some p, none =>
    let second := match x.tap with
      | some q => decide (now ≤ q.1 + ms (fld v 15 8)) && decide (dist2 q.2 p ≤ 512 ^ 2)
      | none => false
    { x with down := some now, p0 := p, second := second, moved := false, tap := none }
  | some p, some d =>
    let far := match fld v 29 28 with
      | 0 => p.1 - x.p0.1 | 1 => x.p0.1 - p.1 | 2 => p.2 - x.p0.2 | _ => x.p0.2 - p.2
    { x with moved := x.moved || (decide ((256 * fld v 27 24 : Int) ≤ far) && decide (now ≤ d + ms (fld v 23 16))) }
  | none, some d =>
    let short := decide (now ≤ d + ms (fld v 7 0))
    let hit := if bit v 30 then x.moved else short && x.second
    { x with down := none, hit := x.hit || hit, tap := if short then some (now, x.p0) else none }
  | none, none => x

/-- The end of a self scan in WATCH: baselines from the first 4 scans, then tracking with the thresholds applied to self signals
(raw - baseline), and the gesture. -/
def Core.watchEnd (c : Core) (t : Nat) (x : TchWatch) (self : List Nat) : Core :=
  let y := c.tch t
  let c := c.upTo (y.startAt + 2 * fld y.pulse 23 16 * fld y.pulse 11 0 * 1000)
  let es := List.range (tchSense y) ++ (List.range (tchDrive y)).map (fun i => 48 + i)
  let put (c : Core) (w : TchWatch) : Core := c.setTch t { y with scanning := false, watch := some w }
  if x.learn ≠ 0 then
    let sums := es.foldl (fun m i => kset 0 m i (kget 0 m i + self.getD i 0)) x.sums
    put c { x with sums := sums, learn := x.learn - 1, base := if x.learn = 1 then sums.map (fun p => (p.1, ((64 * p.2 : Nat) : Int))) else [] }
  else
    let sig (i : Nat) : Int := 256 * (self.getD i 0 : Int) - kget 0 x.base i
    let hot := es.foldl (fun (m : KMap Bool) i =>
      if (256 * (fld x.thr 31 16 : Int) ≤ sig i) || (kget false x.touched i && decide (256 * (fld x.thr 15 0 : Int) ≤ sig i))
      then kset false m i true else m) []
    let base := es.foldl (fun m i => if kget false hot i then m
      else kset 0 m i (kget 0 m i + roundQ (sig i) (2 ^ fld x.track 31 28) (Config.freeWord (c.free + i)))) x.base
    let x := { x with touched := hot, base := base }
    let on := es.any (fun i => decide (i < 48) && kget false hot i) && es.any (fun i => decide (48 ≤ i) && kget false hot i)
    let at_ := if on then some (axisPos x sig 0 (tchSense y), axisPos x sig 48 (tchDrive y)) else none
    let c : Core := { c with free := c.free + 80 }
    put c (gestureStep (c.rd (rg .TCH_WAKE t)) c.mono x at_)

/-- The counts of a linked scan in node order. -/
def stepCounts (x : Touch) : List Nat := (List.range (tchDrive x)).flatMap (fun d => (kget [] x.steps d).take (tchSense x))

/-- SCAN_END: the last pulse ends: `raw` are the mutual counts (self counts by electrode in a test scan), `self` the self counts
(neighbour changes in a test scan). -/
def execScanEnd (t : Nat) (raw self : List Nat) (s : State) : Host.Outcome State Fault Refusal :=
  run s (fun c =>
    let x := c.tch t
    match c.watching t with
    | some w => if x.scanning then c.watchEnd t w self else c
    | none =>
    let pulses := (if x.testScan && !linked t then 160 else tchDrive x + 2) * fld x.pulse 23 16
    let end_ := pulseEnd x pulses
    if !x.scanning || !c.tchOn t || (x.perWin != 0 && decide (c.now < end_) && decide (c.tchLen x.cfg = 0)) then c else
    let c := c.upTo end_
    let missing := linked t && (List.range (tchDrive x)).any (fun d => (kget [] x.steps d).length < tchSense x)
    let c := (c.setTch t { x with scanning := false, testScan := false }).tslSend t
    if linked t && (x.spoiled || (missing && !x.testScan)) then
      ((c.addSat (rg .TCH_ERR_CNT t) 15 0 1).setB (rg .TCH_STATUS t) 26 true).tchEvt t 3
    else if x.testScan then c.tchTest t raw self
    else
      let raw := if linked t then stepCounts x else raw
      let self := if linked t then kget [] x.steps 32 ++ kget [] x.steps 33 else self
      let c := c.tchShow t raw self
      let x := c.tch t
      if x.learn = 0 then c.tchTrack t raw
      else
        let nodes := List.range (tchSense x * tchDrive x)
        let sums := nodes.foldl (fun m i => kset 0 m i (kget 0 m i + raw.getD i 0)) x.sums
        let x := { x with sums := sums, learn := x.learn - 1, rebasing := false }
        c.setTch t (if x.learn = 0 then { x with base := sums.map (fun p => (p.1, ((64 * p.2 : Nat) : Int))), sums := [] } else x))

/-! ### The Touch Sample Link (R335, R336) -/

/-- TSL_STEP_FRAME: a step's counts arrive, or `ok` is false: crc failed or data missing. -/
def execTslStepFrame (t step : Nat) (ok : Bool) (counts : List Nat) (s : State) : Host.Outcome State Fault Refusal :=
  run s (fun c =>
    let x := c.tch t
    if !linked t || !x.scanning || decide (33 < step) then c
    else if ok then c.setTch t { x with steps := kset [] x.steps step counts }
    else c.setTch t { x with spoiled := true })

/-- TCH_TSL_CMD written. -/
def Core.tslCmd (c : Core) (t : Nat) (v : W32) : Core :=
  let x := c.tch t
  if !linked t || !(fld v 31 28 = 8 || fld v 31 28 = 9) then c
  else if x.tsl.isSome then c.setB (rg .TCH_TSL_STATUS t) 29 true
  else ((c.setTch t { x with tsl := some v }).wr (rg .TCH_TSL_STATUS t) 0x80000000).tslSend t

def Core.tslEnd (c : Core) (t result : Nat) : Core :=
  let x := c.tch t
  let refused := c.rdB (rg .TCH_TSL_STATUS t) 29
  (c.setTch t { x with tsl := none }).wr (rg .TCH_TSL_STATUS t) (w32 (1073741824 + (if refused then 536870912 else 0) + result))

/-- TSL_REPLY: an acknowledge or read data, between scans. -/
def execTslReply (t : Nat) (crcOk : Bool) (data : List Byte) (s : State) : Host.Outcome State Fault Refusal :=
  run s (fun c => match (c.tch t).tsl with
    | none => c
    | some v =>
      if (c.tch t).scanning then c
      else if !crcOk then c.tslEnd t 1
      else
        let c := if fld v 31 28 = 9 then c.wr (rg .TCH_TSL_DATA t) (w32 (leNat (data.take (fld v 25 24 + 1)))) else c
        c.tslEnd t 0)

/-- TSL_TIMEOUT: no reply within 256 clocks of the command's stop bit. -/
def execTslTimeout (t : Nat) (s : State) : Host.Outcome State Fault Refusal :=
  run s (fun c =>
    let x := c.tch t
    match x.tsl with
    | some v =>
      if x.scanning then c else
      let clk := 20000 * (c.rdF (rg .TCH_CFG t) 11 9 + 1)
      let bits := 18 + 8 * (if fld v 31 28 = 8 then fld v 25 24 + 3 else 3)
      (c.upTo (x.tslAt + (bits + 256) * clk)).tslEnd t 2
    | none => c)

/-! ### Control (R342, R343, R345) -/

/-- The engine starts: baselines from its first 4 scans (R342). -/
def Core.tchStart (c : Core) (t : Nat) : Core :=
  let x := c.tch t
  (c.setB (rg .TCH_STATUS t) 29 true).setTch t { seq := x.seq, tickAt := c.now, since := c.now, armed := true, learn := 4, tsl := x.tsl, tslAt := x.tslAt, tslOut := x.tslOut }

/-- TCH_CTRL written. -/
def Core.tchCtrl (c : Core) (t : Nat) (v : W32) : Core :=
  if !touchPresent c.counts t then c else
  let on := c.rdB (rg .TCH_STATUS t) 29
  let c := if bit v 0 && !on then c.tchStart t else if !bit v 0 && on then c.tchStop t else c
  let x := c.tch t
  if c.rdB (rg .TCH_STATUS t) 29 then c.setTch t { x with rebase := x.rebase || bit v 1, selftest := x.selftest || bit v 2 } else c

/-- LONG_HOLD: contacts down for TCH_HOLD.secs are flagged (R343). -/
def execLongHold (t : Nat) (s : State) : Host.Outcome State Fault Refusal :=
  run s (fun c =>
    let x := c.tch t
    let lim := c.rdF (rg .TCH_HOLD t) 15 0 * 1000000000
    let due := x.contacts.filter (fun k => !k.long)
    match due.head? with
    | none => c
    | some k =>
      let first := (due.map (fun k => k.since)).foldl min k.since
      let c := c.upTo ((first + lim) * 1000)
      (c.setTch t { x with contacts := x.contacts.map (fun k => if k.since + lim ≤ c.mono then { k with long := true } else k) }).tchEvt t 1)

/-- The baselines of two nodes as TCH_BASE reads (R349). -/
def Core.baseView (c : Core) (t w : Nat) : W32 :=
  let f (i : Nat) : Nat := (kget 0 (c.tch t).base i / 256).toNat % 65536
  w32 (f (2 * w) + f (2 * w + 1) * 65536)

end Sys2Proof.Machine
end

