-- ==== Sys2Proof/Machine/Host.lean ====
section
/-! DEFINITION. The host interface (R364 to R377): queue pages and doorbells, the queue engine and its seven commands, MSI-X
with moderation, link and power states of the functions. -/

namespace Sys2Proof.Machine

open Sys2Proof

def Core.hq (c : Core) (f q : Nat) : HQueue := kget {} c.hostIf.queues (4 * f + q)
def Core.setHq (c : Core) (f q : Nat) (x : HQueue) : Core :=
  { c with hostIf := { c.hostIf with queues := kset {} c.hostIf.queues (4 * f + q) x } }
def Core.hostEvt (c : Core) (i : Nat) : Core := c.setB (rg0 .HOST_EVT) i true

/-! ### Links and functions (R364, R374, R377) -/

/-- HOST_LINK.state: 0 down, 1 L0, 2 L1, 3 L1.1, 4 L1.2, 5 L2. -/
def Core.linkState (c : Core) : Nat := c.rdF (rg0 .HOST_LINK) 30 28

/-- What the configuration space of a function reports: class code, device identifier, revision identifier (R365). -/
def Core.pciIds (c : Core) (f : Nat) : Nat × Nat × Nat := (0x038000, if f = 0 then 0x7A40 else 0x7A41, c.rdF (rg0 .SYS_CAP0) 7 0)

/-- A link configuration that R364 has: x1 to x8, 2.5 to 32.0 GT/s. -/
def linkOk (speed width : Nat) : Bool := [1, 2, 4, 8].contains width && decide (1 ≤ speed ∧ speed ≤ 5)

/-- A function's requests to host memory are sent (R367, R374). -/
def Core.hostOpen (c : Core) (f : Nat) : Bool := c.rdB (rg0 .HOST_LINK) 31 && c.fnMaster f

/-! ### MSI-X (R372 to R374) -/

/-- First vector of a function's pool. -/
def Core.vecFirst (c : Core) (f : Nat) : Nat := (kget {} c.parts f).msixFirst
/-- Device vector `v` is in the pool of partition `p` (R372). -/
def Core.vecIn (c : Core) (p v : Nat) : Bool := decide (v < 2048) && sameOwner (c.owner 7 v) { part := p }
/-- Word `j` of table entry `e` of function `f`; entries outside the pool read zero. -/
def Core.msixWord (c : Core) (f e j : Nat) : W32 :=
  if c.vecIn f (c.vecFirst f + e) then
    let w := kget 0 c.hostIf.table ((2048 * f + e) * 4 + j)
    if j = 3 then w ^^^ 1 else w
  else 0
def Core.vecMasked (c : Core) (f e : Nat) : Bool := bit (c.msixWord f e 3) 0 || !c.rdB (rg .HOST_FN f) 27

/-- The message of vector `v` leaves: its data word to its address, the count back to 0. -/
def Core.msixSend (c : Core) (f v : Nat) : Core :=
  let e := v - c.vecFirst f
  let a := (c.msixWord f e 0).toNat + (c.msixWord f e 1).toNat * 4294967296
  let c := c.store (hostBase + a % hostBase) (leBytes 4 (c.msixWord f e 2).toNat)
  let c : Core := { c with hostIf := { c.hostIf with held := kset false c.hostIf.held v false } }
  c.setF (rg .HOST_MOD v) 23 16 0

/-- A due message of an unmasked entry: sent, or held by the link and function state (R374). -/
def Core.msixOut (c : Core) (f v : Nat) : Core :=
  let ls := c.linkState
  if ls = 1 && c.fnMaster f then c.msixSend f v
  else
    let was := kget false c.hostIf.held v
    let c : Core := { c with hostIf := { c.hostIf with held := kset false c.hostIf.held v true } }
    if was then c
    else if ls = 5 then
      ((c.setB (rg0 .HOST_LINK) 27 true).hostEvt 5).log jPower 0 blockOrigin (w32 965) (w32 v) 0
    else if ls = 0 then c.hostEvt 0
    else if c.fnState f = 3 then { c with hostIf := { c.hostIf with pme := kset false c.hostIf.pme f true } }
    else c

/-- A message falls due (R373). -/
def Core.msixDue (c : Core) (v : Nat) : Core :=
  let f := (c.owner 7 v).part
  let e := v - c.vecFirst f
  if c.vecMasked f e then { c with hostIf := { c.hostIf with pba := kset false c.hostIf.pba (2048 * f + e) true } }
  else c.msixOut f v

/-- One event on a vector: a completion or a source message (R373). -/
def Core.msixEvent (c : Core) (v : Nat) : Core :=
  if v ≥ 2048 then c else
  let n := c.rdF (rg .HOST_MOD v) 23 16
  let c : Core := if n = 0 then { c with hostIf := { c.hostIf with since := kset 0 c.hostIf.since v c.mono } } else c
  let c := c.addSat (rg .HOST_MOD v) 23 16 1
  if max 1 (c.rdF (rg .HOST_MOD v) 31 24) ≤ c.rdF (rg .HOST_MOD v) 23 16 then c.msixDue v else c

/-- A table entry unmasked: its pending message goes (R373). -/
def Core.msixFlush (c : Core) (f e : Nat) : Core :=
  if kget false c.hostIf.pba (2048 * f + e) && !c.vecMasked f e then
    let c : Core := { c with hostIf := { c.hostIf with pba := kset false c.hostIf.pba (2048 * f + e) false } }
    c.msixOut f (c.vecFirst f + e)
  else c

/-- A table word written by the function (R368, R372); only the mask bit of the control word is kept. -/
def Core.msixWrite (c : Core) (f e j : Nat) (v : W32) : Core :=
  if !c.vecIn f (c.vecFirst f + e) then c else
  let w := if j = 3 then (v &&& 1) ^^^ 1 else if j = 0 then v &&& 0xFFFFFFFC else v
  let c : Core := { c with hostIf := { c.hostIf with table := kset 0 c.hostIf.table ((2048 * f + e) * 4 + j) w } }
  if j = 3 then c.msixFlush f e else c

/-- Held messages of the functions that may send now. -/
def Core.sendHeld (c : Core) : Core :=
  if c.linkState ≠ 1 then c
  else c.hostIf.held.foldl (fun d p => let f := (d.owner 7 p.1).part; if p.2 && d.fnMaster f then d.msixSend f p.1 else d) c

/-! ### Queues (R368 to R371) -/

/-- Entries of a queue whose size field is `k`. -/
def qSize (k : Nat) : Nat := 2 ^ (min k 11 + 1)

/-- The completion of a command (R371), with its interrupt. -/
def Core.cqPut (c : Core) (f q : Nat) (h : HCmd) (st : Nat) (w1 w2 : W32) : Core :=
  let i := 4 * f + q
  let x := c.hq f q
  let cfg := c.rd (rg2 .HOST_Q_CFG f q)
  let stat := rg2 .HOST_Q_STATUS f q
  let tail := c.rdF stat 23 12
  let rec_ := leBytes 4 w1.toNat ++ leBytes 4 w2.toNat ++ leBytes 2 (c.rdF stat 11 0) ++ leBytes 2 h.cid ++ leBytes 2 st
    ++ [if x.phase then 1 else 0, 0]
  let base := c.rdPair (rg2 .HOST_CQ_BASE_LO f q) (rg2 .HOST_CQ_BASE_HI f q)
  let c := c.store (hostBase + (base + 16 * tail) % hostBase) rec_
  let nxt := (tail + 1) % qSize (fld cfg 7 4)
  let c : Core := { c with hostIf := { c.hostIf with
    queues := kset {} c.hostIf.queues i { x with phase := if nxt = 0 then !x.phase else x.phase, cur := none } } }
  let c := (c.setF stat 23 12 nxt).setB stat 31 false
  if h.irq then c.msixEvent (fld cfg 30 20) else c

/-- A submission entry's reserved fields are zero (R369). -/
def sqReserved (bs : List Byte) : Bool :=
  (leNat ((bs.drop 1).take 1)) / 4 = 0 && leNat ((bs.drop 4).take 12) = 0 && leNat (bs.drop 0x50) = 0

/-- The queue may start its next command: enabled, entries waiting, the rate of this master tick not spent, the function able
to fetch (R370, R374). -/
def Core.hqReady (c : Core) (f q : Nat) : Bool :=
  let x := c.hq f q
  let cfg := c.rd (rg2 .HOST_Q_CFG f q)
  bit cfg 31 && x.cur.isNone && c.rdF (rg2 .HOST_Q_STATUS f q) 11 0 != x.tail % qSize (fld cfg 3 0)
    && decide (x.started < max 1 (fld cfg 19 8)) && c.hostOpen f
    && !kget false c.hostIf.toD3 f

/-- Entries fetched and started: one command in execution, unknown ones completed with BAD_COMMAND; a full completion queue
stops the queue before its next command (R370, R371). -/
def Core.hqRun (c : Core) (f q : Nat) : Nat → Core
  | 0 => c
  | k + 1 =>
    if !c.hqReady f q then c else
    let x := c.hq f q
    let cfg := c.rd (rg2 .HOST_Q_CFG f q)
    let stat := rg2 .HOST_Q_STATUS f q
    if (c.rdF stat 23 12 + 1) % qSize (fld cfg 7 4) = x.cqHead % qSize (fld cfg 7 4) then
      if x.stuck then c else ((c.setHq f q { x with stuck := true }).setB stat 30 true).hostEvt 4
    else
      let head := c.rdF stat 11 0
      let base := c.rdPair (rg2 .HOST_SQ_BASE_LO f q) (rg2 .HOST_SQ_BASE_HI f q)
      let bs := c.bytes (hostBase + (base + 128 * head) % hostBase) 128
      let b1 := leNat ((bs.drop 1).take 1)
      let h : HCmd := { op := leNat (bs.take 1), wait := b1 % 2 = 1, irq := b1 / 2 % 2 = 1,
                        cid := leNat ((bs.drop 2).take 2), pay := (bs.drop 16).take 64 }
      let c := c.setF stat 11 0 ((head + 1) % qSize (fld cfg 3 0))
      let c := (c.setHq f q { x with started := x.started + 1, cur := some h }).setB stat 31 true
      if h.op > 6 || !sqReserved bs then
        (((c.cqPut f q h 2 0 0).setB stat 29 true).hostEvt 4).hqRun f q k
      else c

/-- The queue goes on after a doorbell, a completion or a new tick. -/
def Core.hqGo (c : Core) (f q : Nat) : Core := c.hqRun f q 4096

/-- A function whose D3hot entry waited for its commands enters it (R374). -/
def Core.d3Try (c : Core) (f : Nat) : Core :=
  if kget false c.hostIf.toD3 f && (List.range 4).all (fun q => (c.hq f q).cur.isNone) then
    let c : Core := { c with hostIf := { c.hostIf with toD3 := kset false c.hostIf.toD3 f false } }
    (c.setF (rg .HOST_FN f) 30 29 3).hostEvt 2
  else c

/-- A completion, and what the queue does next. -/
def Core.hqDone (c : Core) (f q : Nat) (h : HCmd) (st : Nat) (w1 w2 : W32) : Core :=
  ((c.cqPut f q h st w1 w2).d3Try f).hqGo f q

/-- The command in execution of a queue, when it is `op`, does not already wait for a commit switch, and its function can take the
completion: on link loss the queues keep what they hold (R374). -/
def Core.hqCur (c : Core) (f q op : Nat) : Option HCmd :=
  match (c.hq f q).cur with
  | some h => if h.op = op && h.till.isNone && c.hostOpen f then some h else none
  | none => none

/-- The epoch has been reached: (EPOCH − e) mod 2^32 < 2^31 (R369). -/
def Core.epochIn (c : Core) (e : W32) : Bool := decide ((c.rd (rg0 .ADM_EPOCH) - e).toNat < 2147483648)

/-- A commit switch completes the commands that waited for it (R370). -/
def Core.hqSwitch (c : Core) : Core :=
  c.hostIf.queues.foldl (fun d p =>
    match p.2.cur with
    | some h => match h.till with
      | some e => if d.epochIn e && d.hostOpen (p.1 / 4) then
          d.hqDone (p.1 / 4) (p.1 % 4) h 0 (if h.op = 5 then d.rd (rg0 .ADM_EPOCH) else e) 0 else d
      | none => d
    | none => d) c

/-- A master tick: every queue's rate begins anew (R370). -/
def Core.hqTick (c : Core) : Core :=
  c.hostIf.queues.foldl (fun d p =>
    let x := d.hq (p.1 / 4) (p.1 % 4)
    (d.setHq (p.1 / 4) (p.1 % 4) { x with started := 0 }).hqGo (p.1 / 4) (p.1 % 4)) c

/-- Every queue of a function goes on, completing first what a commit switch in the meantime has ended. -/
def Core.hqAll (c : Core) (f : Nat) : Core := (List.range 4).foldl (fun d q => d.hqGo f q) c.hqSwitch

/-- The commands in execution of a function end with ABORTED (R371). -/
def Core.hqAbort (c : Core) (f : Nat) (which : HCmd → Bool) : Core :=
  (List.range 4).foldl (fun d q => match (d.hq f q).cur with
    | some h => if which h then d.cqPut f q h 4 0 0 else d
    | none => d) c

/-- A doorbell write of a queue page (R368). -/
def Core.sqTail (c : Core) (f q v : Nat) : Core :=
  if f ≥ 64 ∨ q ≥ 4 then c else let x := c.hq f q; (c.setHq f q { x with tail := v % 4096 }).hqGo f q
def Core.cqHead (c : Core) (f q v : Nat) : Core :=
  if f ≥ 64 ∨ q ≥ 4 then c else
  let x := c.hq f q
  (c.setHq f q { x with cqHead := v % 4096, stuck := false }).hqGo f q

/-- A read of a queue-page word; doorbells read back, reserved offsets zero (R366, R368). -/
def Core.pageRead (c : Core) (f off : Nat) : W32 :=
  if off < 0x8000 then c.msixWord f (off / 16) (off % 16 / 4)
  else if off < 0x8100 then
    (List.range 32).foldl (fun (w : W32) j => setBit w j (kget false c.hostIf.pba (2048 * f + (off - 0x8000) * 8 + j))) 0
  else if 0x9000 ≤ off ∧ off < 0x9020 then
    let x := c.hq f ((off - 0x9000) / 8)
    w32 (if off % 8 = 0 then x.tail else x.cqHead)
  else 0

/-- A write of a queue-page word. -/
def Core.pageWrite (c : Core) (f off : Nat) (v : W32) : Core :=
  if off < 0x8000 then c.msixWrite f (off / 16) (off % 16 / 4) v
  else if 0x9000 ≤ off ∧ off < 0x9020 then
    let q := (off - 0x9000) / 8
    if off % 8 = 0 then c.sqTail f q (fld v 11 0) else c.cqHead f q (fld v 11 0)
  else c

/-- SQ_TAIL_WRITE: a doorbell that moves the tail past the head makes the engine fetch (R370). -/
def execSqTailWrite (f q v : Nat) (s : State) : Host.Outcome State Fault Refusal := run s (fun c => c.sqTail f q v)

/-- CQ_HEAD_WRITE: freed completion entries, and a stopped queue goes on (R371). -/
def execCqHeadWrite (f q v : Nat) (s : State) : Host.Outcome State Fault Refusal := run s (fun c => c.cqHead f q v)

/-! ### Commands (R369) -/

/-- NOP. -/
def execNop (f q : Nat) (s : State) : Host.Outcome State Fault Refusal :=
  run s (fun c => match c.hqCur f q 0 with
    | some h => c.hqDone f q h 0 0 0
    | none => c)

/-- CONTRACT: the descriptor in the payload evaluated as if through the function's ADM window. -/
def Core.hostContract (c : Core) (f q : Nat) (h : HCmd) : Core :=
  let c := c.submitBytes (c.tag (.host f)) h.pay
  let r := c.rd (rg .ADM_PW_RESULT f)
  if bit r 31 then c.hqDone f q h 1 r (c.rd (rg .ADM_PW_EXCESS f)) else c.hqDone f q h 0 r (c.rd (rg .ADM_PW_ID f))

def execContract (f q : Nat) (s : State) : Host.Outcome State Fault Refusal :=
  run s (fun c => match c.hqCur f q 1 with
    | some h => c.hostContract f q h
    | none => c)

/-- COMMIT: the draft sealed as RENNET; with wait it completes at the commit switch. -/
def Core.hostCommit (c : Core) (f q : Nat) (h : HCmd) : Core :=
  let (c, r) := c.sealDraft (c.tag (.host f))
  let lo := lo32 r.toNat
  if r.toNat ≥ 9223372036854775808 then c.hqDone f q h 1 lo 0x80000000
  else if h.wait && !c.epochIn lo then let x := c.hq f q; c.setHq f q { x with cur := some { h with till := some lo } }
  else c.hqDone f q h 0 lo 0

def execCommit (f q : Nat) (s : State) : Host.Outcome State Fault Refusal :=
  run s (fun c => match c.hqCur f q 2 with
    | some h => c.hostCommit f q h
    | none => c)

/-- DISCARD: as ADM_PW_CMD op 0x2. -/
def execDiscard (f q : Nat) (s : State) : Host.Outcome State Fault Refusal :=
  run s (fun c => match c.hqCur f q 3 with
    | some h => (c.discardDraft f).hqDone f q h 0 0 0
    | none => c)

/-- SUBMIT: a publish under R186, its code and the sequence given. -/
def Core.hostSubmit (c : Core) (f q : Nat) (h : HCmd) : Core :=
  let a := leNat (h.pay.take 8)
  let v := w32 (leNat ((h.pay.drop 8).take 4))
  let r := c.pwPublish f (c.tag (.host f)) v a (w32 (leNat ((h.pay.drop 12).take 4)))
  let c := r.1.wr (rg .SYS_SRC_PW_RESULT f) (w32 r.2)
  if r.2 = 0 then c.hqDone f q h 0 0 (stampSeq (c.slot (fld v 9 0)).cur.stamp) else c.hqDone f q h 1 (w32 r.2) 0

def execSubmit (f q : Nat) (s : State) : Host.Outcome State Fault Refusal :=
  run s (fun c => match c.hqCur f q 4 with
    | some h => c.hostSubmit f q h
    | none => c)

/-- WAIT_EPOCH: complete when the epoch is reached, now or at a later commit switch. -/
def Core.hostWait (c : Core) (f q : Nat) (h : HCmd) : Core :=
  let e := w32 (leNat (h.pay.take 4))
  if c.epochIn e then c.hqDone f q h 0 (c.rd (rg0 .ADM_EPOCH)) 0
  else let x := c.hq f q; c.setHq f q { x with cur := some { h with till := some e } }

def execWaitEpoch (f q : Nat) (s : State) : Host.Outcome State Fault Refusal :=
  run s (fun c => match c.hqCur f q 5 with
    | some h => c.hostWait f q h
    | none => c)

/-- READ_SEG: a segment of the function's namespace (the PF: of any) read under R305 into a host buffer that holds it. -/
def Core.hostReadSeg (c : Core) (f q : Nat) (h : HCmd) (retry : Bool) (bad : List Nat) (ok : Bool) : Core :=
  let num := leNat (h.pay.take 8)
  let ns := leNat ((h.pay.drop 8).take 4)
  let buf := leNat ((h.pay.drop 16).take 8)
  let room := leNat ((h.pay.drop 24).take 4)
  if f ≠ 0 && ns != nsOf f then c.hqDone f q h 3 0 0
  else match if ns < 64 then c.findSeg ns num else none with
    | none => c.hqDone f q h 1 0 0
    | some g =>
      match c.caveRead g retry bad with
      | (c, none) => c.hqDone f q h 5 0 0
      | (c, some bs) =>
        if room < bs.length then c.hqDone f q h 1 (w32 bs.length) 0
        else if buf < hostBase || !ok then c.hqDone f q h 6 0 0
        else (c.store buf bs).hqDone f q h 0 (w32 bs.length) 0

def execReadSeg (f q : Nat) (retry : Bool) (bad : List Nat) (hostOk : Bool) (s : State) : Host.Outcome State Fault Refusal :=
  run s (fun c => match c.hqCur f q 6 with
    | some h => c.hostReadSeg f q h retry bad hostOk
    | none => c)

/-! ### Events of the link and the functions -/

/-- MODERATION_TIMER: HOST_MOD.time µs after the count left 0 the message falls due (R373). -/
def execModerationTimer (v : Nat) (s : State) : Host.Outcome State Fault Refusal :=
  run s (fun c =>
    let m := c.rd (rg .HOST_MOD v)
    let e := v - c.vecFirst (c.owner 7 v).part
    if v ≥ 2048 || fld m 15 0 = 0 || fld m 23 16 = 0 || kget false c.hostIf.held v
      || kget false c.hostIf.pba (2048 * (c.owner 7 v).part + e) then c
    else (c.upTo ((kget 0 c.hostIf.since v + fld m 15 0 * 1000) * 1000)).msixDue v)

/-- MSIX_UNMASK: the entry's mask bit cleared, its pending message sent (R373). -/
def execMsixUnmask (f e : Nat) (s : State) : Host.Outcome State Fault Refusal :=
  run s (fun c => if f < 64 ∧ e < 2048 then c.msixWrite f e 3 0 else c)

/-- HOST_SOURCE_MESSAGE: the best eligible host source of a function passes one message to the HOST block (R98); a source
still active from an earlier message waits for its completion (R88). -/
def execHostSourceMessage (f : Nat) (s : State) : Host.Outcome State Fault Refusal :=
  run s (fun c =>
    match c.best (c.eligible (fun s => c.srcTarget s = 255 && !(c.srcBit .EVR_ACTIVE s) && sameOwner (c.owner 6 s) { part := f })) with
    | some src => (c.commitSrc src).msixEvent (c.srcHandler src)
    | none => c)

/-- LINK_L0_RETURN: held messages are sent (R374). -/
def execLinkL0Return (s : State) : Host.Outcome State Fault Refusal :=
  run s (fun c =>
    if 2 ≤ c.linkState ∧ c.linkState ≤ 4 then ((c.setF (rg0 .HOST_LINK) 31 28 9).sendHeld) else c)

/-- PCIE_LINK_CHANGE: link up at a rate and width, or down; source 960. Training releases WAKE# (R374, R376). -/
def execPcieLinkChange (up : Bool) (speed width : Nat) (s : State) : Host.Outcome State Fault Refusal :=
  run s (fun c =>
    if up && (!c.boot.released || !linkOk speed width) then c else
    if up then
      let c := c.set (rg0 .HOST_LINK) (w32 (0x90000000 + width % 16 * 16 + speed % 16))
      let c := (c.hostEvt 0).sendHeld
      (List.range 64).foldl (fun d f => d.hqAll f) c
    else (c.set (rg0 .HOST_LINK) 0).hostEvt 0)

/-- ASPM_L1_ENTRY: the idle link enters L1 (0), L1.1 (1) or L1.2 (2) (R374). -/
def execAspmL1Entry (sub : Nat) (s : State) : Host.Outcome State Fault Refusal :=
  run s (fun c => if 1 ≤ c.linkState ∧ c.linkState ≤ 4 ∧ sub < 3 then c.setF (rg0 .HOST_LINK) 31 28 (8 + 2 + sub) else c)

/-- D3COLD_ENTRY: the PF enters D3cold with the link in L2 (R374). -/
def execD3coldEntry (s : State) : Host.Outcome State Fault Refusal :=
  run s (fun c => ((c.setF (rg .HOST_FN 0) 30 29 2).setF (rg0 .HOST_LINK) 31 28 5).hostEvt 2)

/-- D3HOT_ENTRY: the commands in execution finish, a READ_SEG ends with ABORTED; then the function is in D3hot and fetches
nothing (R374). A command that waits for a commit switch holds the entry until it completes. -/
def execD3hotEntry (f : Nat) (s : State) : Host.Outcome State Fault Refusal :=
  run s (fun c =>
    if f ≥ 64 ∨ c.fnState f ≠ 0 then c else
    let c : Core := { c with hostIf := { c.hostIf with toD3 := kset false c.hostIf.toD3 f true } }
    let c := c.hqAbort f (fun h => h.op = 6)
    let c := (List.range 4).foldl (fun d q => match (d.hq f q).cur with
      | some h =>
        if h.till.isSome then d
        else match h.op with
          | 0 => d.hqDone f q h 0 0 0
          | 1 => d.hostContract f q h
          | 2 => d.hostCommit f q h
          | 3 => (d.discardDraft f).hqDone f q h 0 0 0
          | 4 => d.hostSubmit f q h
          | _ => d.hostWait f q h
      | none => d) c
    c.d3Try f)

/-- FUNCTION_D0_ENTRY: D0 with Bus Master Enable: held messages are sent, queues resume (R374). -/
def execFunctionD0Entry (f : Nat) (msixEn : Bool) (s : State) : Host.Outcome State Fault Refusal :=
  run s (fun c =>
    if f ≥ 64 then c else
    let was := c.fnState f
    let r := rg .HOST_FN f
    let c := ((c.setF r 30 29 0).setB r 28 true).setB r 27 msixEn
    let c : Core := { c with hostIf := { c.hostIf with pme := kset false c.hostIf.pme f false } }
    let c := if was = 0 then c else c.hostEvt 2
    let c := c.hostIf.pba.foldl (fun d p => if p.2 && p.1 / 2048 = f then d.msixFlush f (p.1 % 2048) else d) c
    (c.sendHeld).hqAll f)

/-- The function's own part of an FLR (R375, steps 1 to 4): its queues stop, a command in execution ends without a completion,
queue configuration and MSI-X table return to reset values, held messages are discarded. -/
def Core.flrOwn (c : Core) (f : Nat) : Core :=
  let c := [Fam.HOST_SQ_BASE_LO, .HOST_SQ_BASE_HI, .HOST_CQ_BASE_LO, .HOST_CQ_BASE_HI, .HOST_Q_CFG, .HOST_Q_STATUS].foldl
    (fun c fam => (List.range 4).foldl (fun d q => d.set (rg2 fam f q) (regReset d.var (rg2 fam f q))) c) c
  let x := c.hostIf
  let gone := (x.held.filter (fun p => p.2 && (c.owner 7 p.1).part = f)).map (·.1)
  let c := gone.foldl (fun d v => d.setF (rg .HOST_MOD v) 23 16 0) c
  { c with hostIf := { x with queues := x.queues.filter (fun p => p.1 / 4 != f)
                              table := x.table.filter (fun p => p.1 / 8192 != f)
                              pba := x.pba.filter (fun p => p.1 / 2048 != f)
                              held := x.held.filter (fun p => !gone.contains p.1)
                              toD3 := kset false x.toD3 f false } }

end Sys2Proof.Machine
end

