-- ==== Sys2Proof/Machine/Part.lean ====
section
/-! DEFINITION. Partitions (R111 to R113, R121, R122, R127 to R132, R453): grant descriptors, CREATE, CLAIM and RELEASE, partition
reset, RUN and DESTROY, function-level reset, and the edits of the Page Owner Table (R119, R120). -/

namespace Sys2Proof.Machine

open Sys2Proof

/-! ### Grant descriptors (R111) -/

/-- Little-endian field of `n` bytes at offset `o`. -/
def dAt (bs : List Byte) (o n : Nat) : Nat := leNat ((bs.drop o).take n)

/-- A bit field of a descriptor: PART_RESULT field and ext, owner kind, its bits, its width. -/
structure GField where
  field : Nat
  ext   : Bool
  kind  : Nat
  bits  : Nat
  width : Nat
  deriving DecidableEq, Repr

/-- The bit fields, in the order of PART_RESULT. -/
def gFields (bs : List Byte) : List GField :=
  [⟨1, false, 1, dAt bs 8 2, 16⟩, ⟨2, false, 9, dAt bs 0xA 1, 8⟩, ⟨3, false, 10, dAt bs 0xB 1, 8⟩, ⟨4, false, 8, dAt bs 0xC 4, 30⟩,
   ⟨5, false, 3, dAt bs 0x10 8, 64⟩, ⟨6, false, 2, dAt bs 0x18 8, 64⟩, ⟨7, false, 4, dAt bs 0x20 16, 128⟩,
   ⟨8, false, 5, dAt bs 0x30 16, 128⟩, ⟨9, false, 6, dAt bs 0x40 128, 1024⟩,
   ⟨1, true, 12, dAt bs 0x120 1, 8⟩, ⟨2, true, 13, dAt bs 0x121 1, 8⟩, ⟨3, true, 14, dAt bs 0x122 1, 8⟩,
   ⟨4, true, 11, dAt bs 0x124 3, 24⟩]

/-- The items a field names. -/
def GField.items (g : GField) : List Nat := if g.bits = 0 then [] else (List.range g.width).filter (fun i => g.bits.testBit i)

def gMsixFirst (bs : List Byte) : Nat := dAt bs 0xC0 2 % 2048
def gMsixCount (bs : List Byte) : Nat := dAt bs 0xC2 2 % 4096
def gDec (bs : List Byte) (v : Nat) : Nat := dAt bs (0xC4 + v) 1
def gEnc (bs : List Byte) (e : Nat) : Nat := dAt bs (0xCC + 2 * e) 2
/-- Mixer inputs, mixer outputs, bridge channels, TDM slots. -/
def gAud (bs : List Byte) (j : Nat) : Nat := dAt bs (0xD4 + j) 1
def gShare (bs : List Byte) (q : Nat) : Nat := dAt bs (0xE0 + 2 * q) 2

/-- Magic, version, reserved fields and ranges (R111, R112). -/
def gValid (bs : List Byte) : Bool :=
  bs.length = 320 && dAt bs 0 4 = 0x50470100 && decide (dAt bs 4 4 < 8) && decide (dAt bs 0xC 4 < 0x40000000)
    && decide (dAt bs 0xC0 2 < 2048) && decide (dAt bs 0xC2 2 < 4096) && dAt bs 0xDC 4 = 0 && dAt bs 0x123 1 = 0 && dAt bs 0x127 1 = 0
    && dAt bs 0x128 24 = 0 && (List.range 8).all (fun v => decide (gDec bs v ≤ 32))
    && (List.range 4).all (fun e => decide (gEnc bs e ≤ 1000))
    && decide (gMsixCount bs ≤ 2048 ∧ gMsixFirst bs + gMsixCount bs ≤ 2048)

/-- PART_RESULT's fields. -/
structure PRes where
  code  : Nat := 0
  field : Nat := 0
  index : Nat := 0
  ext   : Bool := false
  deriving DecidableEq, Repr

/-- The first failing result of a list. -/
def firstRes : List PRes → PRes
  | [] => {}
  | r :: rs => if r.code ≠ 0 then r else firstRes rs

/-- The first item of a field with a property, as a result with a code. PART_RESULT.index has 8 bits: a bit position of the events field
shows its low 8 (R112 leaves that open; log entry 201). -/
def GField.find (g : GField) (code : Nat) (p : Nat → Bool) : PRes :=
  match g.items.find? p with
  | some i => { code := code, field := g.field, index := i % 256, ext := g.ext }
  | none => {}

/-- The first number below `n` with a property. -/
def countFind (n code field : Nat) (p : Nat → Bool) : PRes :=
  match (List.range n).find? p with
  | some i => { code := code, field := field, index := i }
  | none => {}

/-- Instance `i` of an owner kind is present in the variant (R5, R112). -/
def Core.kindPresent (c : Core) (kind i : Nat) : Bool :=
  let k := c.counts
  match kind with
  | 1 => decide (i < k.heads)
  | 2 => decide (i < k.le)
  | 6 => !srcAbsent k i
  | 7 => decide (i < 2048)
  | 8 => decide (i < 32)
  | 9 => touchPresent k i
  | 10 => decide (i < k.hpt)
  | 11 => domainPresent k i
  | 12 => decide (i < k.csi)
  | 3 => decide (i < 64)
  | 4 | 5 => decide (i < 128)
  | _ => decide (i < 8)

/-- POT_OWN for POT_OWN_SEL (R121). -/
def Core.potOwn (c : Core) : W32 :=
  let sel := c.rd (rg0 .POT_OWN_SEL)
  let kind := fld sel 31 24
  let i := fld sel 10 0
  if kind = 0 ∨ 11 < kind then 0 else
  let o := c.owner kind i
  w32 ((if o.granted then 2147483648 else 0) + (if o.world then 1073741824 else 0) + o.part % 64 * 16777216
    + (if c.kindPresent kind i then 0 else 8388608))

/-- What partitions and the secure world together hold of a count. -/
def Core.poolSum (c : Core) (f : PartRec → Nat) : Nat := (c.parts.map (fun p => if p.1 = 0 then 0 else f p.2)).sum

/-- Pools of mixer inputs, mixer outputs, bridge channels and TDM slots (R43). -/
def audPool : Nat → Nat
  | 0 => 128
  | 1 => 64
  | 2 => 64
  | _ => 128
def PartRec.aud (p : PartRec) : Nat → Nat
  | 0 => p.mixIn
  | 1 => p.mixOut
  | 2 => p.bridgeCh
  | _ => p.tdmSlots

/-- Every named unit and endpoint is present, then free in its pool (R112, R122). -/
def Core.unitsBad (c : Core) (bs : List Byte) : PRes :=
  let fs := gFields bs
  let free (kind i : Nat) : Bool := !(c.owner kind i).granted
  firstRes (fs.map (fun g => if g.kind = 6 then {} else g.find 3 (fun i => !c.kindPresent g.kind i)) ++
    [countFind 8 3 0xB (fun v => gDec bs v != 0 && decide (c.counts.vde ≤ v)),
     countFind 4 3 0xC (fun e => gEnc bs e != 0 && decide (c.counts.vee ≤ e))] ++
    fs.map (fun g => g.find 2 (fun i => !free g.kind i)) ++
    [countFind (gMsixCount bs) 2 0xA (fun i => !free 7 (gMsixFirst bs + i)),
     countFind 8 2 0xB (fun v => decide (32 < gDec bs v + c.poolSum (fun p => kget 0 p.decCtx v))),
     countFind 4 2 0xD (fun j => decide (audPool j < gAud bs j + c.poolSum (fun p => p.aud j)))])

/-- How an event source is granted (R113): 0 free-standing, 1 device, 2 never, else with the unit `(field kind, index)`. -/
def srcGrant (s : Nat) : Nat × Nat × Nat :=
  let w (kind b k : Nat) : Nat × Nat × Nat := (3, kind, (s - b) / k)
  if s < 69 ∨ (85 ≤ s ∧ s < 88) ∨ 992 ≤ s then (0, 0, 0)
  else if s < 85 then w 1 69 1
  else if s < 96 ∨ (940 ≤ s ∧ s < 944) then (2, 0, 0)
  else if s < 224 then w 1 96 8
  else if s < 288 then w 2 224 1
  else if s < 352 then w 20 288 8
  else if s < 368 then w 21 352 4
  else if s < 384 then (1, 0, 0)
  else if s < 640 then w 4 384 2
  else if s < 768 then w 5 640 1
  else if s < 832 then (1, 0, 0)
  else if s < 840 then w 13 832 1
  else if s < 864 then (1, 0, 0)
  else if s < 896 then w 9 864 4
  else if s < 912 then w 10 896 2
  else if s < 920 then w 12 912 1
  else if s < 932 then (1, 0, 0)
  else if s < 940 then w 12 932 1
  else (1, 0, 0)

/-- A descriptor names the unit that a source goes with. -/
def gNames (bs : List Byte) (kind i : Nat) : Bool :=
  if kind = 20 then gDec bs i != 0 else if kind = 21 then gEnc bs i != 0
  else (gFields bs).any (fun g => g.kind = kind && g.bits.testBit i)

/-- A source that this CREATE may not grant (R113). -/
def srcBadIn (bs : List Byte) (s : Nat) : Bool :=
  match srcGrant s with
  | (0, _, _) => false
  | (3, kind, i) => !gNames bs kind i
  | _ => true

/-- The share sums of R112. -/
def Core.sharesBad (c : Core) (bs : List Byte) : PRes :=
  let mem := c.poolSum (fun p => ((List.range 32).map (fun q => kget 0 p.memShare q)).sum)
    + ((List.range 32).map (gShare bs)).sum
  let gib := c.poolSum (fun p => p.caveGib) + dAt bs 0xD8 4
  let cap := c.caveFreeGib
  firstRes [if 10000 < mem then { code := 4, field := 0xF } else {},
    countFind 4 4 0xC (fun e => decide (1000 < gEnc bs e + c.poolSum (fun p => kget 0 p.encShare e))),
    if cap < gib then { code := 4, field := 0xE } else {}]

/-- The non-zero values of a numbered list of fields. -/
def kmapOf (n : Nat) (f : Nat → Nat) : KMap Nat := (List.range n).foldl (fun m i => kset 0 m i (f i)) []

/-- What a CREATE leaves in the partition's record. -/
def recOf (bs : List Byte) : PartRec :=
  { dbgInv := (dAt bs 4 1).testBit 1, dbgNinv := (dAt bs 4 1).testBit 2, msixFirst := gMsixFirst bs, msixCount := gMsixCount bs
    decCtx := kmapOf 8 (gDec bs), encShare := kmapOf 4 (gEnc bs), mixIn := gAud bs 0, mixOut := gAud bs 1, bridgeCh := gAud bs 2
    tdmSlots := gAud bs 3, caveGib := dAt bs 0xD8 4, memShare := kmapOf 32 (gShare bs) }

/-- Every item of a descriptor's bit fields given to an owner. -/
def Core.ownAll (c : Core) (bs : List Byte) (o : Owner) : Core :=
  (gFields bs).foldl (fun c g => g.items.foldl (fun d i => d.setOwner g.kind i o) c) c

/-- The manager's descriptor, read as a device unit of a tag (R452): the requester's for CLAIM and RELEASE; for CREATE partition 0's, which
must be able to read it (R112; log entry 202). -/
def Core.grantDesc (c : Core) (t : Owner) : Core × Option (List Byte) :=
  c.readFor t (c.rdPair (rg0 .PART_DESC_LO) (rg0 .PART_DESC_HI)) 320

def Core.partState (c : Core) (p : Nat) : Nat := c.rdF (rg .PART_STATE p) 31 28
def Core.setPartState (c : Core) (p n : Nat) : Core := c.setF (rg .PART_STATE p) 31 28 n

/-- The gate of every source of a partition closed (R128, R130). -/
def Core.gateShut (c : Core) (p : Nat) : Core :=
  (List.range 1024).foldl (fun d s => if sameOwner (d.owner 6 s) { part := p } then
    { d with evr := { d.evr with gated := kset false d.evr.gated s true } } else d) c

/-- CREATE (R112). -/
def Core.partCreate (c : Core) (t : Owner) (p : Nat) : Core × PRes :=
  if c.partState p ≠ 0 then (c, { code := 1 }) else
  match c.grantDesc { granted := true } with
  | (c, none) => (c, { code := 5 })
  | (c, some bs) =>
    let r := firstRes [if !gValid bs || dAt bs 0x124 3 != 0 then { code := 5 } else {}, c.unitsBad bs,
      (match ((gFields bs).getD 8 ⟨0, false, 0, 0, 0⟩).items.find? (srcBadIn bs) with
       | some s => { code := 5, field := 9, index := s % 256 }
       | none => {}),
      c.sharesBad bs, if c.canLog t then {} else { code := 7 }]
    if r.code ≠ 0 then (c, r) else
    let o : Owner := { granted := true, part := p }
    let c := c.ownAll bs o
    let c := (List.range (gMsixCount bs)).foldl (fun d i => d.setOwner 7 (gMsixFirst bs + i) o) c
    let c : Core := { c with parts := kset {} c.parts p (recOf bs) }
    let c := (c.setPartState p 1).setB (rg .PART_STATE p) 27 ((dAt bs 4 1).testBit 0)
    (c.gateShut p, {})

/-- The fields without meaning for the secure world are zero (R122). -/
def gSecure (bs : List Byte) : Bool :=
  dAt bs 4 4 = 0 && dAt bs 0xC0 4 = 0 && dAt bs 0xCC 8 = 0 && dAt bs 0xD8 4 = 0 && dAt bs 0xE0 64 = 0

/-- The secure world's counts changed by a descriptor's (R122). -/
def Core.claimCounts (c : Core) (bs : List Byte) (op : Nat → Nat → Nat) : Core :=
  let r : PartRec := kget {} c.parts 64
  { c with parts := kset {} c.parts 64 { r with
      decCtx := kmapOf 8 (fun v => op (kget 0 r.decCtx v) (gDec bs v)), mixIn := op r.mixIn (gAud bs 0)
      mixOut := op r.mixOut (gAud bs 1), bridgeCh := op r.bridgeCh (gAud bs 2), tdmSlots := op r.tdmSlots (gAud bs 3) } }

/-- CLAIM of a descriptor (R122). One that names a never-firing source fails with BAD_DESC, the code that R113 gives CREATE; R122 names
none for it (log entry 203). -/
def Core.claimBytes (c : Core) (t : Owner) (bs : List Byte) : Core × PRes :=
  let r := firstRes [if !gValid bs || !gSecure bs then { code := 5 } else {}, c.unitsBad bs,
    (match ((gFields bs).getD 8 ⟨0, false, 0, 0, 0⟩).items.find? (fun s => (srcGrant s).1 = 2) with
     | some s => { code := 5, field := 9, index := s % 256 }
     | none => {}),
    if c.canLog t then {} else { code := 7 }]
  if r.code ≠ 0 then (c, r)
  else ((c.ownAll bs { granted := true, world := true }).claimCounts bs (· + ·), {})

def Core.partClaim (c : Core) (t : Owner) : Core × PRes :=
  match c.grantDesc t with
  | (c, none) => (c, { code := 5 })
  | (c, some bs) => c.claimBytes t bs

/-- RELEASE (R122). -/
def Core.partRelease (c : Core) (t : Owner) : Core × PRes :=
  match c.grantDesc t with
  | (c, none) => (c, { code := 5 })
  | (c, some bs) =>
    let mine (kind i : Nat) : Bool := (c.owner kind i).granted && (c.owner kind i).world
    let h : PartRec := kget {} c.parts 64
    let r := firstRes ([if !gValid bs || !gSecure bs then { code := 5 } else {}] ++
      (gFields bs).map (fun g => g.find 2 (fun i => !mine g.kind i)) ++
      [countFind 8 2 0xB (fun v => decide (kget 0 h.decCtx v < gDec bs v)),
       countFind 4 2 0xD (fun j => decide (h.aud j < gAud bs j)),
       if c.canLog t then {} else { code := 7 }])
    if r.code ≠ 0 then (c, r) else ((c.ownAll bs {}).claimCounts bs (· - ·), {})

/-! ### Reset, RUN, DESTROY (R128 to R132) -/

def Core.partRun (c : Core) (p : Nat) : PartRun := kget {} c.partRuns p
def Core.setPartRun (c : Core) (p : Nat) (r : PartRun) : Core := { c with partRuns := kset {} c.partRuns p r }

/-- Units of a kind that a partition owns. -/
def Core.ownedBy (c : Core) (p kind n : Nat) : List Nat := (List.range n).filter (fun i => sameOwner (c.owner kind i) { part := p })
/-- Sequencers that a partition owns. -/
def Core.partSeqs (c : Core) (p : Nat) : List Nat := c.ownedBy p 3 64
/-- The live contracts of a submitter. -/
def Core.consOf (c : Core) (win : Nat) : List Contract := c.adm.live.filter (fun x => x.sub = win)

/-- A source's dynamic state cleared, its gate shut (R128). -/
def Core.srcQuiet (c : Core) (s : Nat) : Core :=
  let c := ((c.setSrcBit .EVR_PEND s false).setSrcBit .EVR_ACTIVE s false).setSrcBit .EVR_QUAR s false
  let c := c.setF (rg .EVR_SRC_STAT s) 15 0 0
  ({ c with evr := { c.evr with gated := kset false c.evr.gated s true, rearm := kset false c.evr.rearm s false } } : Core).setSample s false

/-- The start of a partition reset (R128): window and draft, event sources, sequencers that sleep, DMA channels, decoder contexts,
encoder streams, haptic channels, source slots, and the function's commands in execution (R371). Touch engines stop at their
next scan start, audio at the next sample, heads at the next strip. -/
def Core.resetStart (c : Core) (p : Nat) (flr : Bool) : Core :=
  let c := c.discardDraft p
  let c := (c.setPartState p 3).setPartRun p { resetAt := some c.nextBoundary, t0 := c.ns }
  let c := (c.ownedBy p 6 1024).foldl Core.srcQuiet c
  let c := (c.partSeqs p).foldl (fun d n =>
    let q := d.seq n
    if q.mode = .waiting ∨ q.mode = .sleeping then d.setSeq n { q with mode := .halted, restart := true } else d) c
  let c := (c.ownedBy p 4 128).foldl (fun d ch =>
    if d.dmaState ch = 1 ∨ d.dmaState ch = 2 then (d.setDma ch { d.dma ch with mute := true }).dmaStop ch else d) c
  let c := (c.consOf p).foldl (fun d x =>
    if x.kind = kDECODE then d.vdeCancel x.unit (x.f 4 15 8)
    else if x.kind = kENCODE then d.encStop x.unit (x.f 9 2 0) x
    else if x.kind = kSOURCE then
      let d := d.srcLose x.unit 4
      let q := d.slot x.unit
      d.setSlot x.unit { q with inFrame := false, shown := false, net := { q.net with frame := none, pieces := [], ends := [] } }
    else d) c
  let c := (c.ownedBy p 10 8).foldl Core.hptStop c
  if flr then c else c.hqAbort p (fun _ => true)

/-- A reset asked for: merged with one that runs (R131). -/
def Core.partReset (c : Core) (p : Nat) (flr : Bool) : Core × PRes :=
  match c.partState p with
  | 0 => (c, { code := 8 })
  | 4 => (c, { code := 6 })
  | 3 => (c, {})
  | _ => (c.resetStart p flr, {})

/-- Registers of a CRC unit (R172). -/
def crcFams : List Fam :=
  [.CRC_CFG, .CRC_CTRL, .CRC_STATUS, .CRC_ERR_CNT, .CRC_POLY_LO, .CRC_POLY_HI, .CRC_INIT_LO, .CRC_INIT_HI, .CRC_XOROUT_LO,
   .CRC_XOROUT_HI, .CRC_DATA8, .CRC_DATA16, .CRC_DATA32, .CRC_ALIVE_RX, .CRC_ALIVE, .CRC_RX_LO, .CRC_RX_HI, .CRC_REGION_POS,
   .CRC_REGION_SIZE, .CRC_REGION_HEAD, .CRC_REF0_LO, .CRC_REF0_HI, .CRC_REF1_LO, .CRC_REF1_HI, .CRC_FRAME]

/-- Registers of instance `i` of some families back at their reset values. -/
def Core.regsReset (c : Core) (fs : List Fam) (i : Nat) : Core := fs.foldl (fun d f => d.set (rg f i) (regReset d.var (rg f i))) c

/-- RUN (R130): held programs restart at the next boundaries of their domains, touch engines restart, streams begin. -/
def Core.partGo (c : Core) (p : Nat) : Core :=
  let c := c.setPartState p 2
  let c := (c.partSeqs p).foldl (fun d n =>
    let q := d.seq n
    if q.live.isSome then
      let t := d.st n
      (d.setSeq n { q with mode := .waiting, restart := true }).setSt n { t with first := true, woken := false }
    else d) c
  let c := (c.ownedBy p 9 8).foldl (fun d t => if d.rdB (rg .TCH_CTRL t) 0 && touchPresent d.counts t then d.tchStart t else d) c
  (c.consOf p).foldl (fun d x =>
    if x.kind = kENCODE && d.rdF (rg2 .VEE_STR_STATE x.unit (x.f 9 2 0)) 31 28 = 3 then d.encBegin x.unit (x.f 9 2 0) x else d) c

/-- RUN asked for (R131). -/
def Core.partRunCmd (c : Core) (p : Nat) : Core × PRes :=
  match c.partState p with
  | 1 => (c.partGo p, {})
  | 2 => (c, {})
  | 3 => (c, { code := 6 })
  | _ => (c, { code := 8 })

/-- DESTROY asked for (R131, R132). -/
def Core.partDestroy (c : Core) (p : Nat) : Core × PRes :=
  if p = 0 then (c, { code := 8 }) else
  let r := c.partRun p
  match c.partState p with
  | 1 => ((c.setPartState p 4).setPartRun p { r with releaseAt := some (if c.tkg.inApply then c.tickOf 0 else c.tickOf 0 + 1) }, {})
  | 2 => let c := c.resetStart p false; (c.setPartRun p { c.partRun p with destroy := true }, {})
  | 3 => (c.setPartRun p { r with destroy := true }, {})
  | _ => (c, {})

/-- The reset completes at a commit switch (R128, R129): on-chip state cleared, STOPPED, source 987, journalled; a DESTROY queued
behind it begins, or RUN follows for HOST_FN.auto_run (R375). -/
def Core.resetDone (c : Core) (p : Nat) : Core :=
  let r := c.partRun p
  let c := (c.partSeqs p).foldl (fun d n =>
    let q := d.seq n
    let d := d.clearRange (localAddr n 0x10000) (0x30000 - d.svcSize n)
    if q.live.isSome then d.setSeq n { q with mode := .halted, restart := true } else d) c
  let c := (c.ownedBy p 8 30).foldl (fun d b => d.clearRange (b * 0x100000) 0x100000) c
  let c := (c.ownedBy p 5 128).foldl (fun d i =>
    let d := d.regsReset crcFams i
    { d with crcs := d.crcs.filter (fun e => e.1 != i) }) c
  let c := (c.addSat (rg .PART_STATE p) 15 0 1).setPartState p 1
  let c := (c.setB (rg0 .POT_EVT) 3 true).log jReset 0 blockOrigin (w32 p) (lo32 r.t0) (lo32 c.ns)
  if r.destroy then (c.setPartState p 4).setPartRun p { releaseAt := some (c.tickOf 0 + 1) }
  else
    let c := c.setPartRun p {}
    if r.autoRun then c.partGo p else c

/-- At the commit switch that releases a destroyed partition's contracts: units, sources, vectors and shares return (R132). -/
def Core.partDismantle (c : Core) (p : Nat) : Core :=
  let c := c.discardDraft p
  let c : Core := { c with evr := { c.evr with gated := c.evr.gated.filter (fun e => !sameOwner (c.owner 6 e.1) { part := p }) } }
  let gone := c.owners.filter (fun e => !e.2.world && e.2.part = p)
  let c := gone.foldl (fun (d : Core) e => d.setOwner (e.1 / 65536) (e.1 % 65536) {}) c
  let c : Core := { c with parts := kset {} c.parts p {}, pot := { c.pot with rewrites := kset false c.pot.rewrites p true } }
  (c.setB (rg .PART_STATE p) 27 false).setPartRun p {}

/-- POT_REWRITE_DONE: every entry that named the partition is valid, partition 0, without rights; FREE (R132). -/
def execPotRewriteDone (p : Nat) (s : State) : Host.Outcome State Fault Refusal :=
  run s (fun c =>
    if !kget false c.pot.rewrites p then c else
    let base := c.potBase
    let hits := if base = 0 then [] else
      c.mem.filter (fun x => decide (base ≤ x.1 ∧ x.1 < base + 4 * c.potPages) && (x.1 - base) % 4 = 3 && x.2.toNat % 128 = p)
    let c := hits.foldl (fun d x => (d.store (x.1 - 3) (leBytes 4 (potWord 0x8000).toNat)).potDrop ((x.1 - base) / 64)) c
    ({ c with pot := { c.pot with rewrites := kset false c.pot.rewrites p false } } : Core).setPartState p 0)

/-- PART_CMD by a tag (R131, R453): rights, effect, PART_RESULT, journal. -/
def Core.partCmd (c : Core) (ag : Agent) (p op : Nat) : Core :=
  let t := c.tag ag
  let sec := c.isSecure t
  let mgr := isP0 t
  let ok := if op = 5 ∨ op = 6 then t.world else if op = 3 then sec || (mgr && p != 0) else sec || mgr
  if op = 0 ∨ 6 < op then c else
  let r : Core × PRes :=
    if !ok then (c, { code := 8 })
    else match op with
      | 1 => c.partCreate t p
      | 5 => c.partClaim t
      | 6 => c.partRelease t
      | _ => if !c.canLog t then (c, { code := 7 }) else match op with
        | 2 => c.partDestroy p
        | 3 => c.partReset p false
        | _ => c.partRunCmd p
  let x := r.2
  let c := r.1.wr (rg0 .PART_RESULT) (w32 ((if x.ext then 65536 else 0) + x.index % 256 * 256 + x.field % 16 * 16 + x.code))
  if x.code = 7 || !c.canLog t then c else c.log jPart x.code (c.origin ag) (w32 p) (w32 op) 0

/-- FLR: the function's own state, then a partition reset unless the partition is FREE or DESTROYING (R375). -/
def execFlr (f : Nat) (s : State) : Host.Outcome State Fault Refusal :=
  run s (fun c =>
    if f ≥ 64 then c else
    let c := (c.flrOwn f).addSat (rg .HOST_FN f) 15 0 1
    let c := if f = 0 then c else c.hostEvt 1
    let c := (c.partReset f true).1
    if c.partState f = 3 && c.rdB (rg .HOST_FN f) 31 then c.setPartRun f { c.partRun f with autoRun := true } else c)

/-! ### Edits of the Page Owner Table (R119, R120) -/

/-- A write of POT_EDIT_STATUS with go: the permission test first, then BUSY while an edit runs, then the range (R115, R119, R120). A count
of 0 or above 65,536 reports RANGE, and an address inside a page stands for its page: the spec is silent on both (log entry 204). -/
def Core.potEdit (c : Core) (t : Owner) : Core :=
  let st := rg0 .POT_EDIT_STATUS
  let n := c.rdF (rg0 .POT_EDIT_COUNT) 16 0
  let a := c.rdPair (rg0 .POT_EDIT_ADDR_LO) (rg0 .POT_EDIT_ADDR_HI)
  let first := (a - 0x1000000000) / 16384
  let hi0 := c.rdF (rg0 .POT_EDIT_ENTRY) 31 16
  let hi := if c.secure || hi0 / 16384 % 2 = 0 then hi0 else hi0 - 16384
  let base := c.potBase
  let secureNow := base != 0 && decide (0x1000000000 ≤ a) && c.mem.any (fun x =>
    decide (base + 4 * first ≤ x.1 ∧ x.1 < base + 4 * min (first + n) c.potPages) && (x.1 - base) % 4 = 3 && x.2.toNat / 64 % 2 = 1)
  let allowed := c.isSecure t || (isP0 t && hi / 16384 % 2 = 0 && !secureNow)
  if !allowed then c.setF st 7 4 1
  else if c.pot.edit.isSome then c.setF st 7 4 2
  else if base = 0 ∨ a < 0x1000000000 ∨ n = 0 ∨ 65536 < n ∨ c.potPages < first + n then c.setF st 7 4 3
  else
    let c : Core := { c with pot := { c.pot with edit := some { next := first, left := n, count := n, entry := potWord hi } } }
    (c.setF st 7 4 0).setB st 1 false

/-- One entry of a running edit rewritten and its cached copy invalidated, in ascending order (R120). -/
def Core.potStep (c : Core) : Core :=
  match c.pot.edit with
  | some e =>
    if e.left = 0 then c
    else
      let c := (c.store (c.potBase + 4 * e.next) (leBytes 4 e.entry.toNat)).potDrop (e.next / 16)
      { c with pot := { c.pot with edit := some { e with next := e.next + 1, left := e.left - 1 } } }
  | none => c

/-- `n` entries rewritten. -/
def Core.potSteps (c : Core) : Nat → Core
  | 0 => c
  | n + 1 => c.potStep.potSteps n

/-- A request already checked against an entry of pages `first` to `first + n - 1` is still at the controller (R120). -/
def Core.editWaits (c : Core) (first n : Nat) : Bool :=
  let a := 0x1000000000 + first * 16384
  c.dmc.reqs.any (fun r => decide (r.addr < a + n * 16384 ∧ a < r.addr + r.len))

/-- POT_EDIT_DONE: every entry written and every earlier access to the range finished: done (R120). While a request to the range is
outstanding the entries are rewritten and the edit runs on. -/
def execPotEditDone (s : State) : Host.Outcome State Fault Refusal :=
  run s (fun c => match c.pot.edit with
    | some e =>
      let c := c.potSteps e.left
      if c.editWaits (e.next + e.left - e.count) e.count then c
      else ({ c with pot := { c.pot with edit := none } } : Core).setB (rg0 .POT_EDIT_STATUS) 1 true
    | none => c)

end Sys2Proof.Machine
end

