-- ==== Sys2Proof/Machine/Rogar.lean ====
section
/-! DEFINITION. Rogar links and the wheel (R378 to R396): link frames, ports, discovery and paths, exports and imports of strips. -/

namespace Sys2Proof.Machine

open Sys2Proof

def Core.setRgl (c : Core) (r : Rgl) : Core := { c with rgl := r }
def Core.rglEvt (c : Core) (i : Nat) : Core := c.setB (rg0 .RGL_EVT) i true
/-- This member's number and wheel. -/
def Core.wheelNo (c : Core) : Nat := c.rdF (rg0 .RGL_ID) 7 0
def Core.wheel (c : Core) : Nat := c.rdF (rg0 .RGL_ID) 15 8
def Core.portUp (c : Core) (p : Nat) : Bool := c.rdB (rg .RGL_PORT_STATUS p) 0
def Core.rglImp (c : Core) (i : Nat) : RglImp := kget {} c.rgl.imps i
def Core.setImp (c : Core) (i : Nat) (m : RglImp) : Core := c.setRgl { c.rgl with imps := kset {} c.rgl.imps i m }
def Core.rglExp (c : Core) (x : Nat) : RglExp := kget {} c.rgl.exps x
def Core.setExp (c : Core) (x : Nat) (e : RglExp) : Core := c.setRgl { c.rgl with exps := kset {} c.rgl.exps x e }

/-! ### The transmit queues (R378 to R380, R387) -/

/-- Time in ps that a link frame takes: 50,105,838 frames a second (R378). -/
def framePs : Nat := 19958

/-- The waiting frame goes before the other: time, control, strip, witness row; strips by their deadline; else in arrival order, forwarded
and local alike (R380). -/
def TxFrame.before (x y : TxFrame) : Bool :=
  if x.f.cls ≠ y.f.cls then decide (x.f.cls < y.f.cls)
  else if x.f.cls = 3 ∧ x.due ≠ y.due then decide (x.due < y.due) else false

/-- The frame that leaves next of those that came by `t`: its place in the queue. -/
def nextTx (t : Nat) (q : List TxFrame) : Option (Nat × TxFrame) :=
  q.zipIdx.foldl (fun (r : Option (Nat × TxFrame)) e =>
    if t < e.1.at_ then r
    else match r with
      | none => some (e.2, e.1)
      | some b => if e.1.before b.2 then some (e.2, e.1) else r) none

/-- Frames leave a direction one after the other up to `now`: what is left waiting, when the direction is free again, what has left. -/
def drainTx (now : Nat) : Nat → Nat → List TxFrame → List TxFrame × Nat × List RFrame
  | 0, free, q => (q, free, [])
  | k + 1, free, q =>
    let t := max free ((q.map (fun e => e.at_)).foldl min now)
    if now < t then (q, free, [])
    else match nextTx t q with
      | none => (q, free, [])
      | some (i, e) =>
        let r := drainTx now k (t + framePs) (q.eraseIdx i)
        (r.1, r.2.1, e.f :: r.2.2)

/-- The frames of a port that have had their turn by now leave. -/
def Core.txDrain (c : Core) (p : Nat) : Core :=
  let q := kget [] c.rgl.txq p
  if q = [] then c else
  let r := drainTx c.now q.length (kget 0 c.rgl.txAt p) q
  if r.2.2 = [] then c else
  c.setRgl { c.rgl with txq := kset [] c.rgl.txq p r.1, txAt := kset 0 c.rgl.txAt p r.2.1, sent := kset [] c.rgl.sent p r.2.2 }

/-- The link of port `p` carries discovery alone: this member reported a number already in the topology, or the neighbour is miswired, of
another wheel, or a one-port member that is not the root (R383). -/
def Core.linkShut (c : Core) (p : Nat) : Bool :=
  let st := c.rd (rg0 .RGL_WHEEL_STATUS)
  (bit st 27 && !bit st 31) || match kget [] c.rgl.along p with
    | n :: _ => decide (n.entry ≠ 1 - p ∨ n.wheel ≠ c.wheel ∨ (n.ports < 2 ∧ n.member ≠ 0))
    | [] => false

/-- Frames enter a port's queue, strip frames with the time they are due at; those whose turn it is leave (R380). -/
def Core.rglSendBy (c : Core) (p due : Nat) (fs : List RFrame) : Core :=
  let c := c.txDrain p
  let fs := fs.filter (fun f => f.cls = 2 || !c.linkShut p)
  (c.setRgl { c.rgl with txq := kset [] c.rgl.txq p (kget [] c.rgl.txq p ++ fs.map (fun f => ({ f := f, at_ := c.now, due := due } : TxFrame))) }).txDrain p

/-- Frames with no deadline of their own: a forwarded one is due 1.5 µs after it came (R379). -/
def Core.rglSend (c : Core) (p : Nat) (fs : List RFrame) : Core := c.rglSendBy p (c.now + 1500000) fs

/-! ### Topology (R383, R384) -/

/-- What a walk along one direction finds: the members admitted, whether it comes back to this member, and the faults: miswired,
duplicate, foreign wheel or one-port. -/
structure Walk where
  nodes  : List WheelNode := []
  closed : Bool := false
  mis    : Bool := false
  dup    : Bool := false
  other  : Bool := false
  deriving DecidableEq, Repr

/-- The members along port `p`: port 0 faces port 1; a foreign wheel, a number already met or a one-port non-root ends the walk. -/
def walkRing (p wheel own : Nat) : List Nat → List WheelNode → Walk
  | _, [] => {}
  | seen, n :: ns =>
    if n.entry ≠ 1 - p then { mis := true }
    else if n.wheel ≠ wheel then { other := true }
    else if n.member = own then { closed := true }
    else if seen.contains n.member then { dup := true }
    else if n.ports < 2 ∧ n.member ≠ 0 then { other := true }
    else if n.ports < 2 then { nodes := [n] }
    else
      let w := walkRing p wheel own (n.member :: seen) ns
      { w with nodes := n :: w.nodes }

def Core.walk (c : Core) (p : Nat) : Walk := walkRing p c.wheel c.wheelNo [] (kget [] c.rgl.along p)

/-- Port and hops to a member: fewer hops, port 0 on a tie (R384). -/
def pathTo (a b : List WheelNode) (m : Nat) : Option (Nat × Nat) :=
  let at_ (l : List WheelNode) : Option Nat := (l.findIdx? (fun n => n.member = m)).map (· + 1)
  match at_ a, at_ b with
  | some x, some y => if y < x then some (1, y) else some (0, x)
  | some x, none => some (0, x)
  | none, some y => some (1, y)
  | none, none => none

/-- The root's master rate as the topology has it. -/
def Core.rootRate (c : Core) : Ratio :=
  if c.wheelNo = 0 then c.fM
  else match ((c.walk 0).nodes ++ (c.walk 1).nodes).find? (fun n => n.member = 0) with
    | some n => (n.num, n.den)
    | none => c.fM

def sameRate (a b : Ratio) : Bool := a.1 * b.2 == b.1 * a.2

/-- A member may be origin or destination: its master rate is the root's (R383). -/
def Core.rateOk (c : Core) (m : Nat) : Bool :=
  sameRate c.rootRate (if m = c.wheelNo then c.fM
    else match ((c.walk 0).nodes ++ (c.walk 1).nodes).find? (fun n => n.member = m) with
      | some n => (n.num, n.den)
      | none => c.rootRate)

/-- RGL_TOPO's half-word for a member. -/
def topoHalf (own : Nat) (a b : List WheelNode) (m : Nat) : Nat :=
  if m = own then 0xC000
  else match pathTo a b m with
    | some (p, h) => 0xC000 + p * 256 + h % 256
    | none => 0

/-- Discovery's result from what the two directions hold: RGL_TOPO, RGL_WHEEL_STATUS and their events (R383, R395). `late`: this
member reported a number already in the topology. -/
def Core.topology (c : Core) (late : Bool) : Core :=
  let w0 := c.walk 0
  let w1 := c.walk 1
  let own := c.wheelNo
  let st := rg0 .RGL_WHEEL_STATUS
  let was := c.rd st
  let old := (List.range 128).map (fun w => c.rd (rg .RGL_TOPO w))
  let ns := w0.nodes ++ w1.nodes
  let oneBad := c.counts.rogar < 2 && own != 0
  let formed := !late && !oneBad
  let ids := (own :: ns.map (fun n => n.member)).eraseDups
  let root := own = 0 || ids.contains 0
  let rate := !sameRate c.rootRate c.fM || ns.any (fun n => !sameRate c.rootRate (n.num, n.den))
  let closed := w0.closed && w1.closed
  let mis := w0.mis || w1.mis
  let dup := w0.dup || w1.dup || late
  let c := (List.range 128).foldl (fun c w =>
    c.wr (rg .RGL_TOPO w) (w32 (topoHalf own w0.nodes w1.nodes (2 * w + 1) * 65536 + topoHalf own w0.nodes w1.nodes (2 * w)))) c
  let c := c.wr st (w32 ((if formed then 2147483648 else 0) + (if closed then 1073741824 else 0) + (if root then 536870912 else 0)
    + (if mis then 268435456 else 0) + (if dup then 134217728 else 0) + (if rate then 67108864 else 0)
    + (if formed then ids.length else 0)))
  let new := (List.range 128).map (fun w => c.rd (rg .RGL_TOPO w))
  let c := if old != new || bit was 30 != closed || bit was 31 != formed then c.rglEvt 2 else c
  let c := if bit was 29 && !root then c.rglEvt 3 else c
  if mis || dup || rate || w0.other || w1.other || oneBad then c.rglEvt 6 else c

/-- Time frames: one per link per 125 µs from a member that has the root's time, to its neighbour (R385). They wait for their
acknowledgement as every time frame does (R379). -/
def Core.timeFrames (c : Core) : Core :=
  if c.counts.rogar = 0 || decide (c.now < c.rgl.timeAt) || !c.rdB (rg0 .RGL_WHEEL_STATUS) 29 then c else
  let c := c.setRgl { c.rgl with timeAt := c.now + 125000000 }
  [0, 1].foldl (fun (c : Core) p =>
    match kget [] c.rgl.along p with
    | n :: _ =>
      if !c.portUp p || c.linkShut p then c else
      let f : RFrame := { cls := 1, dst := n.member, src := c.wheelNo, hops := 0, stream := 0, seq := c.rgl.ctlSeq }
      (c.setRgl { c.rgl with ctlSeq := c.rgl.ctlSeq + 1, unacked := c.rgl.unacked ++ [(p, 0, f)] }).rglSend p [f]
    | [] => c) c

/-! ### Exports (R386 to R388) -/

/-- Source lines sent for destination strip `k` (R387). -/
def stripSpan (k s yd hd h : Nat) : Option (Nat × Nat) :=
  let r0 : Int := max (k * s : Nat) (yd : Nat) - (yd : Int)
  let r1 : Int := (min ((k + 1) * s) (yd + hd) : Nat) - 1 - (yd : Int)
  let clip (i : Int) : Nat := min (h - 1) (max 0 i).toNat
  if r1 < r0 then none
  else if h = hd then some (clip r0, clip r1)
  else
    let f (r : Int) : Int := ((2 * r + 1) * h - hd) / (2 * (hd : Int))
    some (clip (f r0 - 2), clip (f r1 + 3))

/-- Bytes of the planes of a rectangle `w` wide for source lines `first` to `last`. -/
def spanBytes (ps : List Plane) (w first last : Nat) : Nat := (ps.map (fun p => planeBytes p w * planeLines p first last)).sum

/-- Link frames of a strip: its header and its data, 240 bytes a frame. -/
def spanFrames (ps : List Plane) (w first last : Nat) : Nat := ceilDiv (spanBytes ps w first last) 240 + 1

/-- The reference head's contract when it is locked, and the layer of that head that shows the slot: its format and registers. -/
def Core.expRef (c : Core) (x : Nat) : Option (Contract × Nat × Contract) :=
  let h := c.rdF (rg .RGL_EXP_CTRL x) 27 24
  let slot := c.rdF (rg .RGL_EXP_CTRL x) 9 0
  match c.headCon h with
  | none => none
  | some k => if k.hMode ≠ 1 then none else
    ((List.range 32).findSome? (fun s => match c.layerCon h s with
      | some y => if y.f 7 15 0 = slot then some (s, y) else none
      | none => none)).map (fun p => (k, p.1, p.2))

def Core.expRect (c : Core) (x : Nat) : Nat × Nat × Nat × Nat :=
  (c.rdF (rg .RGL_EXP_RECT_POS x) 12 0, c.rdF (rg .RGL_EXP_RECT_POS x) 28 16, c.rdF (rg .RGL_EXP_RECT_SIZE x) 13 0,
   c.rdF (rg .RGL_EXP_RECT_SIZE x) 29 16)
/-- y_dst and h_dst. -/
def Core.expDst (c : Core) (x : Nat) : Nat × Nat := (c.rdF (rg .RGL_EXP_DST x) 12 0, c.rdF (rg .RGL_EXP_DST x) 28 16)

/-- Frames per second reserved: the largest strip in half of t_strip,min (R388). -/
def Core.expRate (c : Core) (x : Nat) (k y : Contract) : Nat :=
  let (_, _, w, h) := c.expRect x
  let (yd, hd) := c.expDst x
  let ps := planesOf (y.f 4 7 0) 0 0 0 0
  let most := ((List.range (stripCount k)).map (fun n => match stripSpan n k.hStrip yd hd h with
    | some (a, b) => spanFrames ps w a b
    | none => 0)).foldl max 0
  let p := headPix c.fM k
  ceilDiv (most * 2 * p.1 * 10000) (k.hStrip * k.hTotal * p.2 * 9999)

/-- An export's reservation given back. -/
def Core.expFree (c : Core) (x : Nat) : Core :=
  let e := c.rglExp x
  let r := rg .RGL_PORT_RES e.port
  let n := c.rdN (rg .RGL_EXP_RES x)
  let c := if n = 0 then c else c.wr r (w32 (c.rdN r - n))
  let c := c.wr (rg .RGL_EXP_RES x) 0
  (c.setF (rg .RGL_EXP_CTRL x) 30 28 0).setExp x {}

/-- An export reserves: REFUSED, PATH, BANDWIDTH, or active (R386, R388, R391). `room`: every further link of the path takes the
reservation. A reservation held on another path is given back when the new one holds. -/
def Core.expReserve (c : Core) (x : Nat) (room : Bool) : Core :=
  let ctl := rg .RGL_EXP_CTRL x
  let dst := c.rdF ctl 23 16
  let fail (code : Nat) : Core :=
    let c := c.expFree x
    ((c.setF ctl 30 28 code).setExp x { suspended := true }).rglEvt 4
  let st := c.rd (rg0 .RGL_WHEEL_STATUS)
  match c.expRef x with
  | none => fail 3
  | some (k, _, y) =>
    let fmt := y.f 4 7 0
    if !bit st 31 || !c.rateOk c.wheelNo || !c.rateOk dst || decide (2 ≤ fmt ∧ fmt ≤ 4) || planesOf fmt 0 0 0 0 == [] || dst = c.wheelNo then fail 3
    else match pathTo (c.walk 0).nodes (c.walk 1).nodes dst with
      | none => fail 2
      | some (p, hops) =>
        let q := headPix c.fM k
        if q.2 * k.hStrip * k.hTotal * 9999 * 100000000 < hops * 1500 * 2 * q.1 * 1000 then fail 2
        else
          let rate := c.expRate x k y
          let e := c.rglExp x
          let held := if e.port = p then c.rdN (rg .RGL_EXP_RES x) else 0
          if !room || decide (45095254 < c.rdN (rg .RGL_PORT_RES p) - held + rate) then fail 1
          else
            let c := c.expFree x
            let c := c.wr (rg .RGL_PORT_RES p) (w32 (c.rdN (rg .RGL_PORT_RES p) + rate))
            let c := c.wr (rg .RGL_EXP_RES x) (w32 rate)
            (c.setF ctl 30 28 4).setExp x { port := p }

/-- RGL_EXP_CTRL written (R388). -/
def Core.expCtrl (c : Core) (x : Nat) (v : W32) (room : Bool) : Core :=
  let c := c.expFree x
  let c := c.wr (rg .RGL_EXP_CTRL x) (v &&& 0x8FFF03FF)
  if bit v 31 then c.expReserve x room else c

/-- Exports on a changed path reserve again; suspended ones retry (R391). -/
def Core.expPaths (c : Core) (room : Bool) : Core :=
  let w0 := (c.walk 0).nodes
  let w1 := (c.walk 1).nodes
  (List.range 16).foldl (fun c x =>
    let v := c.rd (rg .RGL_EXP_CTRL x)
    if !bit v 31 then c
    else if bit v 30 && (pathTo w0 w1 (fld v 23 16)).map (·.1) == some (c.rglExp x).port then c
    else c.expReserve x room) c

/-- DISCOVERY: the flooded topology, nearest member first along each port (R383). The member floods its own in turn. -/
def execDiscovery (late : Bool) (a0 a1 : List WheelNode) (s : State) : Host.Outcome State Fault Refusal :=
  run s (fun c =>
    if c.counts.rogar = 0 then c else
    let set (c : Core) (p : Nat) (l : List WheelNode) : Core :=
      if c.portUp p then c.setRgl { c.rgl with along := kset [] c.rgl.along p l } else c.setRgl { c.rgl with along := kset [] c.rgl.along p [] }
    let c := (set (set c 0 a0) 1 a1).topology late
    let flood (c : Core) (p : Nat) : Core :=
      if !c.portUp p then c else
      let f : RFrame := { cls := 2, dst := c.wheelNo, src := c.wheelNo, hops := 0, stream := 0, seq := c.rgl.ctlSeq }
      (c.setRgl { c.rgl with ctlSeq := c.rgl.ctlSeq + 1, unacked := c.rgl.unacked ++ [(p, 0, f)] }).rglSend p [f]
    (flood (flood c 0) 1).expPaths true)

/-- PATH_REBUILD: paths after a link change, nearest member first along each port; exports on changed paths reserve again or are
suspended (R391). -/
def execPathRebuild (a0 a1 : List WheelNode) (room : Bool) (s : State) : Host.Outcome State Fault Refusal :=
  run s (fun c =>
    if c.counts.rogar = 0 then c else
    let l (p : Nat) (a : List WheelNode) : List WheelNode := if c.portUp p then a else []
    let c := c.setRgl { c.rgl with along := kset [] (kset [] c.rgl.along 0 (l 0 a0)) 1 (l 1 a1) }
    (c.topology false).expPaths room)

/-- EXPORT_SNAPSHOT: at L − S lines of the reference head the slot's held record is taken for the frame (R387); t_change is L when
its sequence is new (R254). -/
def execExportSnapshot (x : Nat) (s : State) : Host.Outcome State Fault Refusal :=
  run s (fun c =>
    let ctl := c.rd (rg .RGL_EXP_CTRL x)
    let h := fld ctl 27 24
    match (c.head h).con with
    | none => c
    | some k =>
      if x ≥ 16 || !bit ctl 30 || !c.scanning h || c.headLine h + 2 * k.hStrip != k.vTotal then c else
      let e := c.rglExp x
      let r := (c.slot (fld ctl 9 0)).held
      let latchAt := ((c.head h).lineAt + c.linesPs k k.hStrip) / 1000
      let (c, good) : Core × Bool := if r.stamp = [] then (c, false) else c.recRead (fld ctl 9 0) r
      if !good then c.setExp x { e with snap := {}, nextK := stripCount k }
      else
        let q := stampSeq r.stamp
        c.setExp x { e with snap := r, snapAt := c.mono, frame := c.rdN (rg .HD_FRAME h), latchAt := latchAt, nextK := 0,
                            seqLast := q, tChange := if q = e.seqLast ∧ q ≠ 0 then e.tChange else c.ptpOf (latchAt * 1000) })

/-- Frames of at most 240 bytes. -/
def chunks240 : Nat → List Byte → List (List Byte)
  | 0, _ => []
  | n + 1, l => if l = [] then [] else l.take 240 :: chunks240 n (l.drop 240)

/-- Where source lines `first` to `last` of the exported rectangle lie, plane after plane, lines in order. -/
def expRanges (addr x0 y0 w first last : Nat) (ps : List Plane) : List (Nat × Nat) :=
  ps.flatMap (fun p =>
    let a := if p.half then (y0 + first) / 2 else y0 + first
    (List.range (planeLines p first last)).map (fun i => (addr + p.off + p.pitch * (a + i) + x0 * p.num / p.den, planeBytes p w)))

/-- Ranges read one after the other by a unit: their bytes, none when one is refused or poisoned. -/
def Core.gather (c : Core) (u : Client) (l : List (Nat × Nat)) : Core × Option (List Byte) :=
  l.foldl (fun (r : Core × Option (List Byte)) p =>
    let y := r.1.unitRead u p.1 p.2
    (y.1, if y.2.2 = 0 then r.2.map (fun bs => bs ++ y.2.1) else none)) (c, some [])

/-- STRIP_SEND: in its window, which opens S lines before L for strip 0, the strip is read through port 31 under the slot owner's tag, and its
header frame and data frames leave on the export's port; a strip that cannot be read is not sent (R387). -/
def execStripSend (x k : Nat) (s : State) : Host.Outcome State Fault Refusal :=
  run s (fun c =>
    let ctl := c.rd (rg .RGL_EXP_CTRL x)
    let e := c.rglExp x
    match c.expRef x with
    | none => c
    | some (hc, ls, y) =>
      if x ≥ 16 || !bit ctl 30 || e.snap.stamp = [] || e.nextK != k || decide (stripCount hc ≤ k) || !c.portUp e.port then c else
      let (x0, y0, w, h) := c.expRect x
      let (yd, hd) := c.expDst x
      let c := c.setExp x { e with nextK := k + 1 }
      match stripSpan k hc.hStrip yd hd h with
      | none => c
      | some (a, b) =>
        let hn := fld ctl 27 24
        let f (r : Fam) (hi lo : Nat) : Nat := snapF c.var (c.head hn).act (rg2 r hn ls) hi lo
        let ps := planesOf (y.f 4 7 0) (f .LAYER_PITCH0 19 0) (f .LAYER_PITCH1 19 0) (f .LAYER_PLANE1 31 0) (f .LAYER_PLANE2 31 0)
        let t := match c.slotSrc (fld ctl 9 0) with | some z => ownerOf z.sub | none => {}
        let c := c.upTo (e.latchAt * 1000 - c.linesPs hc hc.hStrip + c.linesPs hc (k * hc.hStrip))
        let r := c.gather { tag := t, cls := 5, no := 31, port := 31, ss := 6 } (expRanges e.snap.addr x0 y0 w a b ps)
        match r.2 with
        | none => r.1
        | some bytes =>
          let hdr : StripHdr := { stamp := e.snap.stamp, tChange := e.tChange, frame := e.frame, k := k, first := a, last := b, w := w, h := h
                                  yDst := yd, hDst := hd, timing := [hc.hTotal, hc.vTotal, hc.vActive, hc.hStrip, hc.hN, hc.hD] }
          let mk (i : Nat) (hd : Option StripHdr) (d : List Byte) : RFrame :=
            { cls := 3, dst := fld ctl 23 16, src := c.wheelNo, hops := 0, stream := x, seq := (e.seq + i) % 4294967296, hdr := hd, data := d }
          let fs := mk 0 (some hdr) [] :: ((chunks240 (spanFrames ps w a b) bytes).zipIdx.map (fun q => mk (q.2 + 1) none q.1))
          let e := r.1.rglExp x
          (r.1.setExp x { e with seq := (e.seq + fs.length) % 4294967296 }).rglSendBy e.port
            (e.latchAt * 1000 + c.linesPs hc (k * hc.hStrip)) fs)

/-! ### Imports (R389, R390) -/

/-- The device address within a strip slot of byte `t` of the data as sent: plane after plane, lines at the import's pitches. -/
def tightAddr (w first last : Nat) : Nat → List Plane → List Nat → Nat → Option Nat
  | _, [], _, _ => none
  | base, p :: ps, offs, t =>
    let n := planeBytes p w
    let whole := n * planeLines p first last
    if t < whole then some (base + offs.headD 0 + t / max 1 n * planePitch p w + t % max 1 n)
    else tightAddr w first last base ps offs.tail (t - whole)

/-- The head that shows a Rogar-bound slot, with the format of its layer. -/
def Core.impHead (c : Core) (slot : Nat) : Option (Contract × Contract) :=
  (c.adm.live.filter (fun y => y.kind = kLAYER && y.f 7 15 0 = slot)).findSome? (fun y => (c.headCon y.unit).map (fun k => (k, y)))

/-- The slot of an import records a valid stamp, for its state and loss; the source table keeps none of it (R187). A slot whose partition does
not run stays LOST (R180). -/
def Core.impStamp (c : Core) (slot : Nat) (st : List W32) : Core :=
  let s := c.slot slot
  let was := c.slotState slot
  let runs : Bool := match c.slotSrc slot with | some z => c.partActive z.sub | none => false
  if was = 0 || !runs then c else
  let c := (c.setSlot slot { s with far := st, lastPub := c.mono }).setF (rg .SYS_SRC_STATE slot) 31 30 2
  if was = 3 then (c.setArr .SYS_SRC_BACK slot true).fault 929 slot 0 else c

/-- A strip header arrives: its stamp's crc, the head's timing, the slot's size (R386, R389, R390). -/
def Core.impHeader (c : Core) (f : RFrame) (hdr : StripHdr) : Core :=
  let find := (List.range 16).find? (fun i =>
    c.rdB (rg .RGL_IMP_CFG i) 31 && (match c.slotSrc (c.rdF (rg .RGL_IMP_CFG i) 9 0) with
      | some z => z.f 7 3 0 = 3 && z.w 9 = stampW hdr.stamp 0
      | none => false))
  match (if c.rateOk c.wheelNo && c.rateOk f.src then find else none) with
  | none => c
  | some i =>
    let m := c.rglImp i
    let slot := c.rdF (rg .RGL_IMP_CFG i) 9 0
    if m.missed = some (hdr.frame, hdr.k) then c else
    let good := stampOk hdr.stamp
    let (fit, timed) : Bool × Bool := match c.impHead slot with
      | some (k, y) =>
        let ps := planesOf (y.f 4 7 0) 0 0 0 0
        let size := (planeOffs hdr.first hdr.last hdr.w 0 (ps ++ [⟨0, 0, 1, 1, false⟩])).getLast?.getD 0
        (decide (size ≤ c.rdF (rg .RGL_IMP_SLOT i) 31 12 * 4096 ∧ hdr.first ≤ hdr.last ∧ 0 < hdr.w),
         hdr.timing = [k.hTotal, k.vTotal, k.vActive, k.hStrip, k.hN, k.hD])
      | none => (false, false)
    let c := if good then c.impStamp slot hdr.stamp else (c.setB (rg0 .SYS_SRC_EVT) 0 true).fault 930 slot 0
    c.setImp i { m with src := f.src, stream := f.stream, seq0 := f.seq, cur := some hdr, got := 0, bad := !good || !fit || !timed }

/-- Bytes with their addresses, as runs of consecutive ones. -/
def runsOf : List (Nat × Byte) → List (Nat × List Byte)
  | [] => []
  | (a, b) :: r => match runsOf r with
    | (x, bs) :: rs => if x = a + 1 then (a, b :: bs) :: rs else (a, [b]) :: (x, bs) :: rs
    | [] => [(a, [b])]

/-- Strip data arrives and is written into the ring in DRAM through port 31, in pages its owner may write (R389). -/
def Core.impData (c : Core) (f : RFrame) : Core :=
  match (List.range 16).find? (fun i => let m := c.rglImp i; m.cur.isSome && m.src = f.src && m.stream = f.stream) with
  | none => c
  | some i =>
    let m := c.rglImp i
    let slot := c.rdF (rg .RGL_IMP_CFG i) 9 0
    match m.cur, c.impHead slot, c.slotSrc slot with
    | some hdr, some (_, y), some z =>
      if m.bad then c else
      let ps := planesOf (y.f 4 7 0) 0 0 0 0
      let offs := planeOffs hdr.first hdr.last hdr.w 0 ps
      let size := c.rdF (rg .RGL_IMP_SLOT i) 31 12 * 4096
      let base := c.rdPair (rg .RGL_IMP_BASE_LO i) (rg .RGL_IMP_BASE_HI i) + hdr.k % 3 * size
      let at_ := ((f.seq + 4294967296 - m.seq0 - 1) % 4294967296) * 240
      let total := spanBytes ps hdr.w hdr.first hdr.last
      let u : Client := { tag := ownerOf z.sub, cls := 5, no := 31, port := 31, ss := 6 }
      let runs := runsOf (f.data.zipIdx.filterMap (fun q => (tightAddr hdr.w hdr.first hdr.last base ps offs (at_ + q.2)).map (fun a => (a, q.1))))
      let r := runs.foldl (fun (r : Core × Bool) w => let y := r.1.unitWrite u w.1 w.2; (y.1, r.2 || y.2 != 0)) (c, c.place base != .dram || base % 4096 != 0)
      let c := r.1
      let got := m.got + f.data.length
      if r.2 then c.setImp i { m with bad := true }
      else if got < total then c.setImp i { m with got := got }
      else c.setImp i { m with cur := none, got := 0, last := hdr,
                               strips := kset none m.strips hdr.k (some { hdr := hdr, base := base, at_ := c.mono }) }
    | _, _, _ => c

/-- STRIP_MISSING: strip `k` is not complete by its deadline: counted, 949 at each 256, what arrives later discarded (R390). -/
def execStripMissing (i k : Nat) (s : State) : Host.Outcome State Fault Refusal :=
  run s (fun c =>
    let slot := c.rdF (rg .RGL_IMP_CFG i) 9 0
    let m := c.rglImp i
    let have_ := match c.impHead slot with
      | some (hc, _) => (c.rogarStrip hc slot k).isSome
      | none => true
    if i ≥ 16 || !c.rdB (rg .RGL_IMP_CFG i) 31 || have_ then c else
    let (frame, cur) : Nat × Option StripHdr := match m.cur with
      | some hd => if hd.k = k then (hd.frame, none) else (hd.frame, some hd)
      | none => (if m.last.k < k then m.last.frame else (m.last.frame + 1) % 4294967296, none)
    let c := c.setImp i { m with cur := cur, count := m.count + 1, missed := some (frame, k) }
    let c := c.addSat (rg .RGL_IMP_MISS i) 15 0 1
    if (m.count + 1) % 256 = 0 then c.rglEvt 5 else c)

/-! ### Frames and ports (R379, R381) -/

/-- LINK_FRAME: a frame of an UP port is checked, consumed or forwarded (R379). Witness rows announce themselves to the encoder by
CTU_ROW_READY (R290, R393). -/
def execLinkFrame (p : Nat) (f : RFrame) (s : State) : Host.Outcome State Fault Refusal :=
  run s (fun c =>
    if p ≥ c.counts.rogar || !c.portUp p then c
    else if !f.crcOk then c.addSat (rg .RGL_PORT_CRCERR p) 15 0 1
    else if f.cls != 2 && c.linkShut p then c
    else if f.dst ≠ c.wheelNo then
      if c.portUp (1 - p) then c.rglSend (1 - p) [{ f with hops := f.hops + 1 }] else c
    else if f.cls ≤ 2 then
      if f.ack then c.setRgl { c.rgl with unacked := c.rgl.unacked.filter (fun q => !(q.1 = p && q.2.2.cls = f.cls && q.2.2.seq = f.seq)) }
      else c.rglSend p [{ f with dst := f.src, src := c.wheelNo, hops := 0, ack := true, hdr := none, data := [] }]
    else if f.cls = 3 then match f.hdr with
      | some hdr => c.impHeader f hdr
      | none => c.impData f
    else c)

/-- FRAME_RESEND: the oldest unacknowledged time or control frame goes again, up to 3 times (R379). -/
def execFrameResend (s : State) : Host.Outcome State Fault Refusal :=
  run s (fun c => match c.rgl.unacked with
    | [] => c
    | (p, n, f) :: rest =>
      if n < 3 then (c.setRgl { c.rgl with unacked := rest ++ [(p, n + 1, f)] }).rglSend p [f]
      else c.setRgl { c.rgl with unacked := rest })

/-- PORT_UP: every lane locked and no uncorrectable block for 1 ms (R381). -/
def execPortUp (p farPort : Nat) (s : State) : Host.Outcome State Fault Refusal :=
  run s (fun c =>
    if p ≥ c.counts.rogar || !c.rdB (rg .RGL_PORT_CTRL p) 0 || c.portUp p then c
    else ((c.wr (rg .RGL_PORT_STATUS p) (w32 (0x80000001 + farPort % 2 * 2))).rglEvt p).fault (944 + p) 1 0)

/-- A port goes DOWN: its links are gone, the slots bound to it LOST (R180, R381). -/
def Core.portDown (c : Core) (p : Nat) : Core :=
  if !c.portUp p then c else
  let v := c.rd (rg .RGL_PORT_STATUS p)
  let c := ((c.wr (rg .RGL_PORT_STATUS p) (setFld v 1 0 0)).rglEvt p).fault (944 + p) 0 0
  let c := c.setRgl { c.rgl with along := kset [] c.rgl.along p [], unacked := c.rgl.unacked.filter (fun q => q.1 != p)
                                 txq := kset [] c.rgl.txq p [] }
  (c.adm.live.filter (fun x => x.kind = kSOURCE && x.f 7 3 0 = 3 && x.f 10 0 0 = p)).foldl (fun c x => c.srcLose x.unit 3) c

/-- PORT_DOWN: 8 uncorrectable blocks within 1 ms, lost lane lock or 10 µs of silence (R381). -/
def execPortDown (p : Nat) (s : State) : Host.Outcome State Fault Refusal := run s (fun c => c.portDown p)

/-- RGL_PORT_CTRL written: a port disabled goes DOWN. -/
def Core.portCtrl (c : Core) (p : Nat) (v : W32) : Core :=
  let c := c.wr (rg .RGL_PORT_CTRL p) (v &&& 1)
  if bit v 0 then c else c.portDown p

/-- RGL_ID is accepted only while both ports are disabled, root exactly for member 0 (R382). -/
def Core.rglIdOk (c : Core) (v : W32) : Bool :=
  !c.rdB (rg .RGL_PORT_CTRL 0) 0 && !c.rdB (rg .RGL_PORT_CTRL 1) 0 && bit v 16 == decide (fld v 7 0 = 0)

end Sys2Proof.Machine
end

