-- ==== Sys2Proof/Machine/Commit.lean ====
section
/-! DEFINITION. A schedule epoch going live (R38, R47, R50 to R52, R82, R86): the contracts that come and go at a commit switch
and what each kind changes in its block, the bank switch of a sequencer, and the return from an event handler, which a bank
switch may wait for (R97). -/

namespace Sys2Proof.Machine

open Sys2Proof

/-! ### Bank switches (R59, R82, R86) -/

/-- The local address of handler `k` of sequencer `n` in its active bank; of the image that waits while no program runs (R86). -/
def Core.handlerAddr (c : Core) (n k : Nat) : Nat :=
  let q := c.seq n
  match q.live with
  | some i => bankBase q.bank + 4 * (i.handlers.getD k (0, 0)).1
  | none => match q.next with
    | some i => bankBase (!q.bank) + 4 * (i.handlers.getD k (0, 0)).1
    | none => 0

/-- EVR_SRC_TARGET of a live EVENT contract: the target, and the handler's address or the vector (R86). -/
def Core.setTarget (c : Core) (x : Contract) : Core :=
  let tgt := x.f 4 7 0
  let low := if tgt = 255 then x.f 5 15 0 % 2048 else c.handlerAddr tgt (x.f 5 15 0) % 262144
  c.wr (rg .EVR_SRC_TARGET x.unit) (w32 (tgt * 16777216 + low))

/-- Every source that targets sequencer `n` resolved again (R86). -/
def Core.resolve (c : Core) (n : Nat) : Core :=
  (c.adm.live.filter (fun x => x.kind = kEVENT && x.f 4 7 0 = n)).foldl Core.setTarget c

/-- The owner of a sequencer lets programs run: the secure world, or a partition in ACTIVE (R130). -/
def Core.ownerRuns (c : Core) (n : Nat) : Bool :=
  let o := c.owner 3 n
  o.world || c.partActive o.part

/-- The sequencer stops, both banks empty, its register sets cleared (R82). -/
def Core.stopProg (c : Core) (n : Nat) : Core :=
  let q := c.seq n
  (c.setSeq n { bank := q.bank, dbg := q.dbg }).setSt n {}

/-- The bank switch: the waiting image becomes active in the state of R59, waiting for its first tick, deliveries held until
then (R97); without one the sequencer stops. Of a partition that is not ACTIVE the program is held (R130). -/
def Core.bankSwitch (c : Core) (n : Nat) : Core :=
  let q := c.seq n
  match q.stopping, q.next with
  | false, some i =>
    let b := !q.bank
    let c := c.setSeq n { mode := if c.ownerRuns n then .waiting else .halted, dbg := q.dbg, bank := b, live := some i,
                          pc := bankBase b + 4 * i.entry, restart := true }
    let q := c.seq n
    let c := c.setSeq n { q with sets := c.freshSets n }
    (c.setSt n { first := true, excWait := true }).resolve n
  | _, _ => c.stopProg n

/-- The switch at its boundary, or at the EVRET of the handler that runs (R82, R97); a halt or an exception has ended the
handlers, no EVRET is to come. -/
def Core.switchNow (c : Core) (n : Nat) : Core :=
  let q := c.seq n
  if q.level = 0 then c.bankSwitch n
  else if q.mode = .halted ∨ (c.st n).excWait then (c.dropLevels n).bankSwitch n else c.setSeq n { q with deferred := true, asleep := true }

/-- After an EVRET to level 0, the switch that waited for it (R97). -/
def Core.switchLate (c : Core) (n : Nat) : Core :=
  let q := c.seq n
  if q.deferred && q.level = 0 then c.bankSwitch n else c

/-- EVRET: the handler's source is released and sampled again; an eligible source above the context returned to is
tail-chained at the same level, EVPC and EVPS kept; else the context is restored (R72, R88, R96), and a bank switch that waited for this EVRET takes place
(R97). At level 0, where no EVPC or EVPS exists, the spec is silent: it costs its 4 cycles and the PC stays (the model's choice, log
entry 215). -/
def execEvret (n : Nat) (s : State) : Host.Outcome State Fault Refusal :=
  run s (fun c => c.instr n 0 0 (fun c =>
    let q := c.seq n
    if q.level = 0 then c.charge n 4 else
    let x := kget {} q.ctx q.level
    let c := c.releaseSrc x.source
    let back := x.evps / 256 % 4
    let nxt := if c.held n then none else c.best (c.eligible (fun s => c.srcTarget s = n))
    match nxt with
    | some src =>
      if q.prioOf back < c.srcPrio src + 1 then
        let c := c.commitSrc src
        let q := c.seq n
        let c := c.setSeq n { q with ctx := kset {} q.ctx q.level { x with source := src, prio := c.srcPrio src },
                                     pc := c.srcHandler src, loops := kset [] q.loops q.level [] }
        c.charge n 6
      else ((c.charge n 4).restore n).switchLate n
    | none => ((c.charge n 4).restore n).switchLate n))

/-! ### What comes and goes -/

/-- A contract that goes, with the one that takes its place, or one that comes. -/
structure Swap where
  old : Option Contract := none
  new : Option Contract := none
  deriving DecidableEq, Repr

/-- What a contract holds: kind, unit, and layer slot, decoder context or encoder stream. -/
def Contract.place (x : Contract) : Nat × Nat × Nat :=
  (x.kind, x.unit, if x.kind = kLAYER ∨ x.kind = kDECODE then x.f 4 15 8 else if x.kind = kENCODE then x.f 9 2 0 else 0)

/-- The live contract that each replacing contract leads back to. -/
def rootsOf (ops : List DraftOp) : List (W32 × W32) :=
  ops.foldl (fun m o => match o with
    | .replace i x => (x.id, kget i m i) :: m
    | _ => m) []

/-- The contract takes the place of the other: by REPLACE, or in the same draft on the same sequencer or source. -/
def follows (roots : List (W32 × W32)) (y x : Contract) : Bool :=
  x.place == y.place && (kget 0 roots x.id == y.id || x.kind == kPROGRAM || x.kind == kEVENT)

/-- What changes from one list of live contracts to another. -/
def swapsOf (roots : List (W32 × W32)) (old new : List Contract) : List Swap :=
  let gone := old.filter (fun y => !(new.any (fun x => x.id == y.id)))
  let came := new.filter (fun x => !(old.any (fun y => y.id == x.id)))
  (gone.filter (fun y => !(came.any (follows roots y)))).map (fun y => { old := some y }) ++
    came.map (fun x => { old := gone.find? (fun y => follows roots y x), new := some x })

/-! ### What each kind changes -/

/-- PROGRAM (R82): a master-domain program switches now, any other at the first boundary of its domain, the sequencer running
nothing in between when the domain changes. -/
def Core.swapProgram (c : Core) (s : Swap) : Core :=
  match s.new with
  | some x =>
    let n := x.unit
    let dom := x.f 6 7 0
    let q := c.seq n
    let was := match q.live with | some i => i.domain | none => dom
    if dom = 0 ∧ was = 0 then c.switchNow n
    else if was = dom then c.setSeq n { q with change := some dom }
    else
      let t := c.st n
      (c.setSeq n { q with change := some dom, tw := [], asleep := decide (q.level ≠ 0)
                           mode := if q.level = 0 ∧ q.mode ≠ .halted then .waiting else q.mode }).setSt n { t with closed := true }
  | none =>
    match s.old with
    | some y =>
      let n := y.unit
      let q := c.seq n
      match q.live with
      | some i => if i.domain = 0 then (c.setSeq n { q with stopping := true }).switchNow n
                  else c.setSeq n { q with change := some i.domain, stopping := true }
      | none => c.stopProg n
    | none => c

/-- EVENT (R86): rate, priority, target and handler into the source's registers; a source newly named is sampled, one that
is no longer named has its pending bit held clear. -/
def Core.swapEvent (c : Core) (s : Swap) : Core :=
  match s.new with
  | some x =>
    let n := x.unit
    let cfg := srcKind n * 4194304 + 16777216 + x.f 4 13 8 * 65536 + x.f 4 31 16
    ((c.wr (rg .EVR_SRC_CFG n) (w32 cfg)).setTarget x).relevel n
  | none =>
    match s.old with
    | some y =>
      let n := y.unit
      (((c.wr (rg .EVR_SRC_CFG n) (regReset c.var (rg .EVR_SRC_CFG n))).wr (rg .EVR_SRC_TARGET n) 0).setSrcBit .EVR_PEND n false).setSample n false
    | none => c

/-- SOURCE (R177, R180): a new contract begins in NEVER, a replacing one keeps the slot's count and state. -/
def Core.swapSource (c : Core) (s : Swap) : Core :=
  match s.old, s.new with
  | none, some x => (c.setSlot x.unit {}).wr (rg .SYS_SRC_STATE x.unit) 0x40000000
  | some y, none => (c.setSlot y.unit {}).wr (rg .SYS_SRC_STATE y.unit) 0
  | _, _ => c

/-- HEAD (R30, R235). -/
def Core.swapHead (c : Core) (s : Swap) : Core :=
  match s.new with
  | some x =>
    let h := x.unit
    let c := c.wr (rg .TKG_HEAD_CFG h) (w32 (x.f 7 13 0))
    if c.scanning h then c else (c.setB (rg .HD_STATUS h) 29 (isDirect x)).headCond h
  | none =>
    match s.old with
    | some y => (c.wr (rg .TKG_HEAD_CFG y.unit) 1).headCond y.unit
    | none => c

/-- DECODE (R193): a new contract arms the context; a change of profile, format or slot cancels it. -/
def Core.swapDecode (c : Core) (s : Swap) : Core :=
  match s.old, s.new with
  | none, some x => c.vdeArm x.unit (x.f 4 15 8)
  | some y, some x =>
    if x.f 4 7 0 = y.f 4 7 0 ∧ x.f 8 15 12 = y.f 8 15 12 ∧ x.f 8 9 0 = y.f 8 9 0 then c else c.vdeCancel x.unit (x.f 4 15 8)
  | some y, none => c.vdeFree y.unit (y.f 4 15 8)
  | none, none => c

/-- ENCODE (R279, R294): the stream ends with its contract and begins with the new one, at once or, for a partition that is not
ACTIVE, at its RUN. -/
def Core.swapEncode (c : Core) (s : Swap) : Core :=
  let c := match s.old with | some y => c.encEnd y.unit (y.f 9 2 0) y | none => c
  match s.new with
  | some x =>
    if c.partActive x.sub then c.encBegin x.unit (x.f 9 2 0) x
    else ((c.setEnc x.unit (x.f 9 2 0) { tokenAt := c.mono }).setEncState x.unit (x.f 9 2 0) 3).encShow x.unit
  | none => c

/-- The rate an audio domain's contracts ask for; 0 without one (R31). -/
def audioRateOf (l : List Contract) (d : Nat) : Nat :=
  match (l.filter (fun x => x.kind = kAUDIO && x.unit = d)).getLast? with
  | some x => x.n 4
  | none => 0

/-- AUDIO (R31, R318): rates of the domains, and the domain that each TDM port follows. -/
def Core.swapAudio (c : Core) : Core :=
  let c := (List.range 3).foldl (fun (c : Core) d =>
    let r := audioRateOf c.adm.live d
    if c.rdN (rg .TKG_AUDIO_CFG d) = r then c
    else
      let c := c.wr (rg .TKG_AUDIO_CFG d) (w32 r)
      if r = 0 then c.audStop d else c.audStart d r (d != 1)) c
  (List.range 8).foldl (fun (c : Core) t =>
    let d := match (c.adm.live.filter (fun x => x.kind = kAUDIO && x.f 6 15 8 = t)).getLast? with
      | some x => x.unit | none => 0
    c.setF (rg .AUD_TDM_CFG t) 13 12 d) c

/-- A locked head's grid after a change of rate: its next tick is the first master boundary at least one frame of the new rate after its
last tick, and every d boundaries from there one coincides again (R30; log entry 219). -/
def Core.relock (c : Core) (x : Head) : Head :=
  match x.con with
  | some k =>
    if k.hMode = 1 then
      let frame := k.hD * c.rdN (rg0 .TKG_MASTER_DEN) * 1000000000 / max 1 (k.hN * c.rdN (rg0 .TKG_MASTER_NUM))
      { x with base := c.psOf (c.boundaryNs (c.nextBoundaryAt (c.ptpOf x.blankAt + frame))), baseIdx := x.tickIdx + 1 }
    else x
  | none => x

/-- RATE (R28, R40): the numbers of the new rate. Under a time source, or its last discipline, the boundaries take their places of R28 and
TKG_TICK its index; a local tick goes on from the boundary that switched (log entry 115). -/
def Core.swapRate (c : Core) (s : Swap) : Core :=
  match s.new with
  | some x =>
    let den := c.rdN (rg0 .TKG_MASTER_DEN)
    let led := decide (2 ≤ c.rdF (rg0 .TKG_STATUS) 1 0)
    let c : Core := { c with tkg := { c.tkg with idx0 := c.tickOf 0, origin := c.strobeNs } }
    let c := (c.wr (rg0 .TKG_MASTER_NUM) (x.w 4)).wr (rg0 .TKG_MASTER_DEN) (x.w 5)
    let c := (if led then c.onGrid 0 else c).creditScale den (x.n 5)
    { c with heads := c.heads.map (fun e => (e.1, c.relock e.2)) }
  | none => c

/-- One swap's effect. LAYER contracts take effect with their head's tick (R51); MEMORY contracts only weigh the ports. -/
def Core.swapOne (c : Core) (k : Nat) (s : Swap) : Core :=
  match k with
  | 1 => c.swapProgram s
  | 2 => c.swapEvent s
  | 3 => c.swapSource s
  | 6 => c.swapDecode s
  | 7 => c.swapEncode s
  | 8 => c.swapAudio
  | 9 => c.swapHead s
  | 10 => c.swapRate s
  | _ => c

def Swap.kind (s : Swap) : Nat :=
  match s.new, s.old with
  | some x, _ => x.kind
  | none, some y => y.kind
  | none, none => 0

/-- The engines of the LAYER contracts in force at a head. -/
def Head.mask (x : Head) : Nat :=
  x.lays.foldl (fun m p => match p.2 with | some y => m ||| y.n64 8 | none => m) 0

/-- Engines that still serve another scanning head, whose first tick after the switch has not come (R51). -/
def Core.elsewhere (c : Core) (h : Nat) : Nat :=
  (List.range 16).foldl (fun m g => if g != h && c.scanning g then (c.head g).group.foldl (fun m n => m ||| 2 ^ n) (m ||| (c.head g).mask) else m) 0

/-- The engines a head's contracts no longer name leave its group at its tick, but for spares no contract names; those of a scanning head
that they newly name join it, for the next strip whose composition begins (R51, R207). -/
def Core.shedEngines (c : Core) (h : Nat) : Core :=
  let g := (c.head h).group
  let m := (c.head h).mask
  let keep := g.filter (fun n => m.testBit n || !(List.range 16).any (fun k => (groupMask c.adm.live k).testBit n))
  let come := if !c.scanning h then [] else (List.range c.counts.le).filter (fun n =>
    m.testBit n && !g.contains n && c.leState n != 2 && !(List.range 16).any (fun k => k != h && (c.head k).group.contains n))
  if keep ++ come = g then c else c.showGroup h (keep ++ come)

/-- The LAYER contracts of a head put into force: shown in LAYER_SRC and LAYER_CTRL; another source counts as changed now; a
layer one of whose engines still serves another head is not shown until a tick after that engine has arrived (R51, R208,
R211, R254). -/
def Core.layersIn (c : Core) (h : Nat) : Core :=
  let away := c.elsewhere h
  Core.shedEngines (h := h) <| (List.range 32).foldl (fun (c : Core) s =>
    let x := c.head h
    let was := c.layerNow h s
    let now := (c.layerCon h s).filter (fun y => y.n64 8 &&& away = 0)
    let lock := match now with
      | some y => (match c.slotSrc (y.f 7 15 0) with | some z => isRing z | none => false)
      | none => false
    let word : W32 := match now with | some y => w32 (y.f 4 7 0 * 16777216 + y.f 7 9 0) | none => 0
    let ctl := rg2 .LAYER_CTRL h s
    let c := (c.wr (rg2 .LAYER_SRC h s) word).wr ctl (setBit (setBit (c.rd ctl) 30 now.isSome) 29 lock)
    let same := was.map (fun y => y.f 7 15 0) == now.map (fun y => y.f 7 15 0)
    let x : Head := { x with lays := kset none x.lays s now }
    c.setHead h (if same then x else { x with fresh := kset {} x.fresh s { tChange := c.ns } })) c

/-- The contracts of some drafts go live in one epoch `ep` (R38, R50 to R52). -/
def Core.goLive (c : Core) (ds : List (Nat × Draft)) (ep : W32) : Core :=
  let old := c.adm.live
  let ops := ds.flatMap (fun d => d.2.ops)
  let new := applyOps old ops
  let c := c.creditSettle.wr (rg0 .ADM_EPOCH) ep
  let c := ds.foldl (fun (c : Core) d => c.log jCommit 0 (originWord (ownerOf d.1) 5 0) 0 ep (w32 d.2.ops.length)) c
  let c := ds.foldl (fun (c : Core) d => c.setDraft d.1 {}) c
  let c : Core := { c with adm := { c.adm with live := new } }
  let sw := swapsOf (rootsOf ops) old new
  let c := [10, 3, 9, 6, 7, 8, 1, 2].foldl (fun (c : Core) k => (sw.filter (fun s => s.kind = k)).foldl (fun c s => c.swapOne k s) c) c
  (List.range 16).foldl (fun (c : Core) h => if c.scanning h then c else c.layersIn h) c

/-- The drafts sealed for the boundary in progress (R48). -/
def Core.dueDrafts (c : Core) : List (Nat × Draft) :=
  let k := c.tickOf 0
  c.adm.drafts.filter (fun d => match d.2.sealed with | some b => decide (b ≤ k) | none => false)

end Sys2Proof.Machine
end

