-- ==== Sys2Proof/Machine/Power.lean ====
section
/-! DEFINITION. Power (R91, R123, R347, R397 to R409, R435, R436): power domains and what they hold, performance levels, thermal
protection, the native sleep states with entry and wake, and the domain requests of compatibility mode. -/

namespace Sys2Proof.Machine

open Sys2Proof

/-! ### Domains (R397, R398, R407) -/

/-- The power domain of a register's block. -/
def regDomain (r : Reg) : Nat :=
  let a := r.addr - 0x20000000
  match a / 0x100000 with
  | 0 => if 0x40000 ≤ a ∧ a < 0x50000 then 0 else 1
  | 1 => if a < 0x110000 then 17 + r.i / 8 else 1
  | 4 => 2 + r.i / 16
  | 5 => 10 + r.i / 32
  | 6 => 10 + r.i / 8
  | 7 => 12 + r.i / 4
  | 8 => 14 + r.i / 4
  | 9 => 16
  | 10 => 16
  | 11 => 22
  | 12 => 23
  | 13 => 23
  | 14 => 23
  | 15 => 19
  | 16 => 19
  | 17 => 20
  | 18 => 21
  | _ => 1

/-- The device runs: ACTIVE and not tripped. -/
def Core.awake (c : Core) : Bool := c.pwr.asleep = 0 && !c.pwr.tripped

def Core.setPwr (c : Core) (p : Pwr) : Core := { c with pwr := p }
/-- PWR_DOM_STATE: 0 ON, 1 RET, 2 OFF, 4 FAILED. -/
def Core.setDom (c : Core) (d st : Nat) : Core := c.setF (rg .PWR_DOM_STATE d) 31 29 st
/-- A power event (R408). -/
def Core.pwrEvt (c : Core) (i : Nat) : Core := c.setB (rg0 .PWR_EVT) i true
def Core.domPresent (c : Core) (d : Nat) : Bool := domainPresent c.counts d

/-- Units with owner records in a domain: owner kind and index. -/
def domUnits (d : Nat) : List (Nat × Nat) :=
  let run (k b n : Nat) : List (Nat × Nat) := (List.range n).map (fun i => (k, b + i))
  match d with
  | 1 => run 4 0 128 ++ run 5 0 128 ++ run 6 0 1024
  | 2 => run 3 0 16
  | 3 => run 3 16 16
  | 4 => run 3 32 16
  | 5 => run 3 48 16
  | 6 => run 8 0 8
  | 7 => run 8 8 8
  | 8 => run 8 16 8
  | 9 => run 8 24 8
  | 10 => run 1 0 8 ++ run 2 0 32
  | 11 => run 1 8 8 ++ run 2 32 32
  | 12 => run 1 0 8
  | 13 => run 1 8 8
  | 19 => run 12 0 8
  | 21 => run 7 0 2048
  | 23 => run 9 0 8 ++ run 10 0 8 ++ run 13 0 8 ++ run 14 0 8
  | _ => []

/-- The domains whose units a contract names. -/
def Contract.domains (x : Contract) : List Nat :=
  match x.kind with
  | 1 => [2 + x.unit / 16]
  | 2 => if x.f 4 7 0 < 64 then [1, 2 + x.f 4 7 0 / 16] else [1, 21]
  | 3 => match x.f 7 3 0 with | 0 => [19] | 1 => [19] | 3 => [20] | _ => [21]
  | 4 => [10 + x.unit / 8] ++ (if x.n64 8 % 4294967296 = 0 then [] else [10]) ++ (if x.n64 8 / 4294967296 = 0 then [] else [11])
  | 5 => [17, 18]
  | 6 => [14 + x.unit / 4]
  | 7 => [16]
  | 8 => [23]
  | 9 => [10 + x.unit / 8, 12 + x.unit / 8]
  | _ => []

/-- The units of a domain belong to a partition that differs from a window's, counts of decoder contexts and encoder shares
among them. -/
def Core.domShared (c : Core) (d win : Nat) : Bool :=
  let other (p : Nat) : Bool := if win = 0 then p != 0 else p != win
  (domUnits d).any (fun u => let o := c.owner u.1 u.2; o.granted && !o.world && other o.part) ||
    c.parts.any (fun e => e.1 != 64 && e.1 != 0 && other e.1 &&
      ((d = 14 && (List.range 4).any (fun v => kget 0 e.2.decCtx v != 0)) ||
       (d = 15 && (List.range 4).any (fun v => kget 0 e.2.decCtx (4 + v) != 0)) || (d = 16 && e.2.encShare != [])))

/-- A domain is in secure use (R123). -/
def Core.domSecure (c : Core) (d : Nat) : Bool :=
  let mine : PartRec := kget {} c.parts 64
  (c.owner 11 d).world || (domUnits d).any (fun u => (c.owner u.1 u.2).world) ||
    ((d = 10 || d = 11 || d = 12 || d = 13) && (List.range 8).any (fun h =>
      let h := 8 * (d % 2) + h
      (c.layerNow h 30).isSome || (c.layerNow h 31).isSome)) ||
    ((d = 14 || d = 15) && (List.range 4).any (fun v => decide (0 < kget 0 mine.decCtx (4 * (d - 14) + v)))) ||
    (d = 23 && (List.range 4).any (fun j => decide (0 < mine.aud j))) ||
    (d = 23 && c.secure && c.aud.voices.any (fun v => v.2.on))

/-- The controller's knowledge of eight channels whose DRAM loses power: metadata, open rows, windows, queues (R148, R150). -/
def Core.dmcForget (c : Core) (g : Nat) : Core :=
  let d := c.dmc
  let other (h : Nat) : Bool := h / 8 != g
  c.setDmc { d with rows := d.rows.filter (fun e => other (e.1 / 2097152)), acts := d.acts.filter (fun e => other (e.1 / 512))
                    lastAct := d.lastAct.filter (fun e => other (e.1 / 512)), openRow := d.openRow.filter (fun e => other (e.1 / 16))
                    throttles := d.throttles.filter (fun e => other (e.1 / 16)), window := d.window.filter (fun e => other e.1)
                    corrQ := d.corrQ.filter (fun a => other (c.chan a)), training := d.training.filter other
                    reqs := d.reqs.filter (fun r => !(c.reqChans r).any (fun h => !other h)) }

/-- Eight channels whose domain comes back are trained and ACTIVE, FAILED ones excepted (R147, R407). -/
def Core.chanUp (c : Core) (g : Nat) : Core :=
  ((List.range c.counts.dram).filter (fun h => h / 8 = g)).foldl (fun (d : Core) h => if d.chState h = 5 then d else d.setChState h 1) c

/-- What the cave finds again on its members when its power returns (R298, R417). -/
def caveRecord (r : Reg) : Bool := r.fam = .CAVE_MEMBER_CFG || r.fam = .CAVE_MEMBER_STATUS || r.fam = .CAVE_CH_STATUS

/-- What a domain that loses power held is gone: registers back at reset, contents cleared (R135, R397, R406). -/
def Core.domLose (c : Core) (d : Nat) : Core :=
  let dead := (List.range 16).filter (fun h => c.chState h = 5)
  let c := (c.regs.filter (fun e => regDomain e.1 = d && !caveRecord e.1)).foldl (fun (c : Core) e => c.set e.1 (regReset c.var e.1)) c
  let c := dead.foldl (fun (c : Core) h => c.setChState h 5) c
  let base := 16 * (d - 2)
  match d with
  | 1 => { c with owners := [], evr := { latched := c.evr.latched }, jnl := { c.jnl with inFlight := 0, merge := [] }, tkg := { origin := c.tkg.origin }
                  adm := {}, parts := [], partRuns := [], pot := {}, dmas := [], crcs := [], slots := [], loLatch := [] }
  | 2 | 3 | 4 | 5 =>
    let c := (List.range 16).foldl (fun (c : Core) i => c.clearRange (localAddr (base + i) 0) 0x40000) c
    { c with seqs := c.seqs.filter (fun e => !(decide (base ≤ e.1 ∧ e.1 < base + 16)))
             seqTicks := c.seqTicks.filter (fun e => !(decide (base ≤ e.1 ∧ e.1 < base + 16))) }
  | 6 | 7 | 8 | 9 => c.clearRange ((d - 6) * 0x800000) 0x800000
  | 10 | 11 => { c with heads := c.heads.filter (fun e => e.1 / 8 != d - 10) }
  | 12 | 13 => { c with dpts := c.dpts.filter (fun e => e.1 / 4 != d - 12) }
  | 14 | 15 => { c with vctxs := c.vctxs.filter (fun e => e.1 / 128 != d - 14) }
  | 16 => { c with encs := [], encCaches := [], wit := {} }
  | 17 | 18 =>
    let c := c.dmcForget (d - 17)
    let hit := (c.mem ++ c.posted).filter (fun x => decide (0x1000000000 ≤ x.1 ∧ x.1 < dramEnd c.counts) &&
      (dramChannel c.counts.dram x.1) / 8 == d - 17)
    hit.foldl (fun (c : Core) x => { c with posted := (x.1, 0) :: c.posted }) c
  | 19 => { c with netCnt := [], trig := [], pulses := []
                   evr := { c.evr with blk := c.evr.blk.filter (fun e => !decide (912 ≤ e.1 ∧ e.1 < 928)) } }
  | 20 => { c with rgl := {} }
  | 21 => { c with hostIf := {} }
  | 22 => { c with cave := { c.cave with cmd := none, rebuild := false } }
  | 23 => { c with aud := {}, tchs := [], hpts := [] }
  | _ => c

/-- POWER_GOOD_LOSS: power-good drops while a domain's clamps are open: clamped, FAILED until chip reset, source 981, journalled
(R398). -/
def execPowerGoodLoss (d : Nat) (s : State) : Host.Outcome State Fault Refusal :=
  run s (fun c =>
    if !c.awake || d = 0 || 24 ≤ d || !c.domPresent d || c.rdF (rg .PWR_DOM_STATE d) 31 29 ≠ 0 then c
    else (((c.domLose d).setDom d 4).pwrEvt 5).log jPower 0 blockOrigin (w32 d) 4 0)

/-! ### Performance levels (R399, R400) -/

/-- L of R400. -/
def Core.levelWanted (c : Core) : Nat :=
  min (max (c.rdF (rg0 .ADM_PL_FLOOR) 2 0) (max (c.rdF (rg0 .PWR_PL) 2 0) (c.rdF (rg0 .PWR_PL) 6 4))) (c.rdF (rg0 .PWR_STATUS) 6 4)

/-- The level of the last request. -/
def Core.levelAsked (c : Core) : Nat := match c.pwr.asks.getLast? with | some a => a.2 | none => c.level

/-- A request, floor or cap as it now stands: a new level is due at a later boundary. -/
def Core.levelAsk (c : Core) : Core :=
  let l := c.levelWanted
  if l = c.levelAsked then c
  else (c.setPwr { c.pwr with asks := c.pwr.asks ++ [(c.mono, l)] }).setF (rg0 .PWR_PL) 10 8 l

/-- The level change of a boundary's commit switch: requests at least 200 µs old; raising only once the regulator has
acknowledged, 20 µs ago or more; every clock in one step; source 976, journalled. -/
def Core.levelSwitch (c : Core) : Core :=
  let b := c.psOf c.strobeNs / 1000
  match (c.pwr.asks.filter (fun a => decide (a.1 + 200000 ≤ b))).getLast? with
  | none => c
  | some a =>
    let l := a.2
    let old := c.level
    let rest := c.pwr.asks.filter (fun x => decide (b < x.1 + 200000))
    if l = old then c.setPwr { c.pwr with asks := rest }
    else if old < l ∧ (c.pwr.volt < l ∨ c.mono < c.pwr.voltAt + 20000) then c
    else
      let c := (c.cycSync).setF (rg0 .PWR_STATUS) 2 0 l
      let c := c.setPwr { c.pwr with asks := rest, volt := if l < old then l else c.pwr.volt }
      let c := c.setF (rg0 .PWR_PL) 10 8 c.levelAsked
      (c.pwrEvt 0).log jPower 0 blockOrigin 0x20040008 (w32 l) (w32 old)

/-- LEVEL_CHANGE: at a boundary whose commit switch is still to come, its level change (R34, R400). -/
def execLevelChange (s : State) : Host.Outcome State Fault Refusal :=
  run s (fun c => if c.awake && c.tkg.inApply then (c.upTo (c.psOf (c.strobeNs + 2000))).levelSwitch else c)

/-- A raise waits for the regulator. -/
def Core.levelRaises (c : Core) : Option Nat :=
  let top := (c.pwr.asks.map (fun a => a.2)).foldl max 0
  if c.pwr.volt < top && c.level < top then some top else none

/-- REGULATOR_ACK: the voltage asked for is set (R400). -/
def execRegulatorAck (s : State) : Host.Outcome State Fault Refusal :=
  run s (fun c => match c.levelRaises with
    | some l => c.setPwr { c.pwr with volt := l, voltAt := c.mono }
    | none => c)

/-- REGULATOR_TIMEOUT: no acknowledgement within 1 ms: the old level stays, source 982, retried at each boundary (R400). -/
def execRegulatorTimeout (s : State) : Host.Outcome State Fault Refusal :=
  run s (fun c => match c.levelRaises, c.pwr.asks with
    | some _, a :: _ => (c.upTo ((a.1 + 1000000) * 1000)).pwrEvt 6
    | _, _ => c)

/-! ### What a loss of power keeps (R402, R404, R417) -/

/-- Registers that survive in domain 0 or with what it serves: PWR, the armed latches of the pins, the wake paths of touch engines
0 to 3, and what the cave finds again on its members (R298). -/
def keptInSleep (r : Reg) : Bool :=
  regDomain r = 0 || r.fam = .EVR_PIN_CFG || (r.fam = .TCH_WAKE && decide (r.i < 4)) || caveRecord r

/-- The journal's pointers. -/
def journalReg (r : Reg) : Bool :=
  r.fam = .JNL_WSEQ || r.fam = .JNL_SSEQ || r.fam = .JNL_BLOCK_LO || r.fam = .JNL_BLOCK_HI

/-- The device with every domain but 0 lost: banks that are kept by number, DRAM and the journal when they stay. The flash,
the cave's stores and the wake latches remain. -/
def Core.powerDown (c : Core) (bank : Nat → Bool) (dram journal : Bool) (reg : Reg → Bool) : Core :=
  let c := c.cycSync
  let c : Core :=
    { var := c.var, now := c.now, ptpOff := c.ptpOff, loLatch := c.loLatch, free := c.free, resp := c.resp, mem := c.mem, posted := c.posted, cycNum := c.cycNum, cycAt := c.cycAt
      regs := c.regs.filter (fun e => reg e.1 || (journal && journalReg e.1))
      flips := c.flips.filter (fun e => decide (e.1 < 0x2000000) && bank (e.1 / 0x100000))
      poison := c.poison.filter (fun e => if e.1 < 0x2000000 then bank (e.1 / 0x100000) else dram)
      jnl := if journal then { c.jnl with inFlight := 0, merge := [] } else {}
      evr := { latched := c.evr.latched }
      cave := { c.cave with cmd := none, rebuild := false }
      pwr := c.pwr, boot := c.boot }
  let c := (List.range 32).foldl (fun (c : Core) k => if bank k then c else c.clearRange (k * 0x100000) 0x100000) c
  let c := c.clearRange 0x10000000 0x1000000
  if dram then c else c.clearRange 0x1000000000 (dramEnd c.counts - 0x1000000000)

/-- A FAILED channel returns to service only after chip reset: no other loss of power changes that (R147). -/
def Core.keepFailed (c : Core) (was : Core) : Core :=
  (List.range 16).foldl (fun (d : Core) h => if was.chState h = 5 then d.setChState h 5 else d) c

/-! ### Thermal protection (R401) -/

/-- The trip threshold in °C: the field holds the low 7 bits of 115 to 135. -/
def Core.tripAt (c : Core) : Nat := let t := c.rdF (rg0 .PWR_THERM) 30 24; if t < 8 then t + 128 else t

/-- The greatest refresh multiplier code of the channels (R148): 0, 1 for m = 2, 2 for m = 4. -/
def Core.worstRefresh (c : Core) : Nat :=
  ((List.range c.counts.dram).map (fun h => c.rdF (rg .DMC_CH_STATUS h) 27 26)).foldl max 0

/-- The cap moved, and the level with it; 978 when it takes the level below the floor. -/
def Core.setCap (c : Core) (cap : Nat) : Core :=
  let lower := decide (cap < c.rdF (rg0 .PWR_STATUS) 6 4)
  let c := c.setF (rg0 .PWR_STATUS) 6 4 cap
  let c := if lower then c.pwrEvt 3 else c
  let c := if lower && decide (cap < c.rdF (rg0 .ADM_PL_FLOOR) 2 0) then
      (c.pwrEvt 2).log jPower 0 blockOrigin 0x20040004 (w32 cap) (w32 (c.rdF (rg0 .ADM_PL_FLOOR) 2 0)) else c
  c.levelAsk

/-- The thermal trip: a journal entry attempted, every domain but 0 off until chip reset. -/
def Core.trip (c : Core) : Core :=
  let c := c.log jPower 0 blockOrigin 0x2004001C (w32 (c.rdF (rg0 .PWR_TEMP) 15 0)) (w32 (c.rdF (rg0 .PWR_TEMP) 31 16))
  let c := (c.powerDown (fun _ => false) false false keptInSleep).keepFailed c
  let c := (List.range 24).foldl (fun (c : Core) d => if d = 0 || !c.domPresent d then c else c.setDom d 2) c
  (c.setB (rg0 .PWR_STATUS) 7 true).setPwr { c.pwr with tripped := true, asks := [], wake := none }

/-- THERMAL_SAMPLE: the hottest sensor, every 100 µs, and what the thresholds ask for. -/
def execThermalSample (sensor : Nat) (t16 : Int) (s : State) : Host.Outcome State Fault Refusal :=
  run s (fun c =>
    if c.pwr.tripped || 8 ≤ sensor then c else
    let c := c.upTo (c.pwr.sampleAt + 100000000)
    let c := c.setPwr { c.pwr with sampleAt := c.now }
    let c := c.set (rg0 .PWR_TEMP) (w32 (sensor * 65536 + (t16 % 65536).toNat))
    let th := c.rd (rg0 .PWR_THERM)
    let m := c.worstRefresh
    if decide (((c.tripAt * 16 : Nat) : Int) ≤ t16) then c.trip else
    if !c.awake then c else
    let warm := decide (((fld th 7 0 * 16 : Nat) : Int) ≤ t16) || decide (1 ≤ m)
    let c := if warm && !c.pwr.crossed then c.pwrEvt 1 else c
    let c := c.setPwr { c.pwr with crossed := warm }
    let hot := decide (((fld th 15 8 * 16 : Nat) : Int) ≤ t16) || decide (2 ≤ m)
    let cool := decide (t16 < ((fld th 15 8 * 16 : Nat) : Int) - 80) && decide (m ≤ 1)
    let cap := c.rdF (rg0 .PWR_STATUS) 6 4
    if hot then
      let due := match c.pwr.capAt with | some a => decide (a + 10000000 ≤ c.mono) | none => true
      let c := c.setPwr { c.pwr with coolAt := none, capAt := if due then some c.mono else c.pwr.capAt }
      if due && 0 < cap then c.setCap (cap - 1) else c
    else if cool then
      match c.pwr.coolAt with
      | none => c.setPwr { c.pwr with coolAt := some c.mono, capAt := none }
      | some a =>
        if a + 100000000 ≤ c.mono then
          let c := c.setPwr { c.pwr with coolAt := some c.mono }
          if cap < 7 then c.setCap (cap + 1) else c
        else c
    else c.setPwr { c.pwr with coolAt := none, capAt := none })

/-! ### Wakes (R91, R347, R402, R403) -/

/-- PIN_LATCH_CAPTURE: while the reference is stopped an armed latch captures the first raw edge in the pin's active direction; it
wakes the device if the pin is enabled (R91, R402). While the reference runs the latch is not armed and captures nothing. -/
def execPinLatchCapture (pin : Nat) (rising : Bool) (s : State) : Host.Outcome State Fault Refusal :=
  run s (fun c =>
    if 32 ≤ pin || !c.refStopped || !c.rdB (rg .EVR_PIN_CFG pin) 4 || !c.pinDir pin rising
        || (kget none c.evr.latched pin).isSome then c else
    let c : Core := { c with evr := { c.evr with latched := kset none c.evr.latched pin (some rising) } }
    if c.pinWakes pin then c.wakeBy 1 pin else c)

/-- WAKE_GESTURE: an integrated engine that scans in WATCH has recognised its gesture and asks for a wake (R347). -/
def execWakeGesture (t : Nat) (s : State) : Host.Outcome State Fault Refusal :=
  run s (fun c =>
    if c.pwr.asleep ≠ 1 || 4 ≤ t || !touchPresent c.counts t || !c.rdB (rg .TCH_WAKE t) 31 || !c.rdB (rg0 .PWR_WAKE_EN2) t ||
        !((c.watching t).map (fun w => w.hit)).getD false then c
    else c.wakeBy 2 t)

/-- Engines 0 to 3 that scanned with TCH_WAKE.en go on in WATCH, as the front ends' domain 0 does (R347, R397). -/
def Core.watchStart (c : Core) (was : Core) : Core :=
  (List.range 4).foldl (fun (c : Core) t =>
    if was.tchOn t && was.rdB (rg .TCH_WAKE t) 31 then
      c.setTch t { seq := (was.tch t).seq, tickAt := c.now, armed := true, geom := was.rd (rg .TCH_GEOM t), pulse := was.rd (rg .TCH_PULSE t)
                   watch := some { thr := was.rd (rg .TCH_THR t), track := was.rd (rg .TCH_TRACK t) } }
    else c) c

/-- PWR_ON: high for 1 ms wakes the device from OFF, once PWR_OFF_REQ has been high for the 10 ms that an entry gives it; elsewhere
it wakes nothing (R402, R435, R436). -/
def execPwrOn (s : State) : Host.Outcome State Fault Refusal :=
  run s (fun c => if c.pwr.asleep = 3 then (c.upTo (max (c.now + 1000000000) (c.pwr.sleptAt + 10020000000))).wakeBy 5 0 else c)

/-- An enabled wake source pending in the cycle of a request: a pin's latch or event. -/
def Core.wakePending (c : Core) : Option (Nat × Nat) :=
  ((List.range 32).find? (fun p => c.pinWakes p &&
    ((kget none c.evr.latched p).isSome || c.srcBit .EVR_PEND (992 + p)))).map (fun p => (1, p))

/-- WAKE: the wake that is held, the timer or PCIe ends WATCH or REST: the domains return in order within 370 µs, 2 ms later from
REST; a wake held during the entry starts once that has finished, the timer counts from the WAITS; PL0, cause and unit recorded, the
starter's warm path to follow (R402 to R405). -/
def execWake (cause : Nat) (s : State) : Host.Outcome State Fault Refusal :=
  run s (fun c =>
    if !(c.pwr.asleep = 1 || c.pwr.asleep = 2) || c.pwr.tripped then c else
    let w : Option (Nat × Nat) := match c.pwr.wake with
      | some w => some w
      | none =>
        if cause = 3 && c.rdB (rg0 .PWR_WAKE_EN2) 8 && c.rdN (rg0 .PWR_WAKE_TIMER) != 0 then some (3, 0)
        else if cause = 4 && c.rdB (rg0 .PWR_WAKE_EN2) 9 then some (4, 0) else none
    match w with
    | none => c
    | some w =>
      let c := c.upTo (c.pwr.sleptAt + (if w.1 = 3 then c.rdN (rg0 .PWR_WAKE_TIMER) * 1000000000 else 18000000))
      let c := c.upTo (c.now + (if c.pwr.asleep = 2 then 2000000000 else 0) + 370000000)
      let c := (List.range 24).foldl (fun (c : Core) d => if c.domPresent d && c.rdF (rg .PWR_DOM_STATE d) 31 29 != 4 then c.setDom d 0 else c) c
      let c := ((c.setF (rg0 .PWR_STATUS) 28 24 w.1).setF (rg0 .PWR_STATUS) 23 16 w.2).setF (rg0 .PWR_STATUS) 2 0 0
      let c := c.setPwr { c.pwr with asleep := 0, wake := none, asks := [], volt := 0, voltAt := 0 }
      let c := (List.range 4).foldl (fun (c : Core) t => if (c.tch t).watch.isSome then c.tchStart t else c) c
      { c with cycAt := c.now, tkg := { c.tkg with origin := c.ns }, boot := { c.boot with warmDue := true } })

/-! ### WAITS: sleep entry and domain requests (R403, R404, R406, R407) -/

/-- The abort causes of R403: none when the entry may commit. -/
def Core.sleepAbort (c : Core) : Option (Nat × Nat) :=
  match c.wakePending with
  | some w => some w
  | none =>
    if (List.range 64).any (fun p => p != 0 && c.rdF (rg .PART_STATE p) 31 28 != 0 && c.rdF (rg .PART_STATE p) 31 28 != 1) then some (6, 0)
    else if c.adm.live.any (fun x => [kHEAD, kLAYER, kSOURCE, kDECODE, kENCODE, kAUDIO, kMEMORY].contains x.kind) then some (7, 0)
    else if !(c.fnState 0 = 2 || c.fnState 0 = 3) then some (8, 0)
    else if c.rdB (rg0 .PWR_CFG) 0 then some (9, 0)
    else none

/-- An entry or request aborted: PWR_STATUS.aborted with its cause, source 983. -/
def Core.aborted (c : Core) (w : Nat × Nat) : Core :=
  let c := ((c.setF (rg0 .PWR_STATUS) 28 24 w.1).setF (rg0 .PWR_STATUS) 23 16 w.2).setB (rg0 .PWR_STATUS) 29 true
  c.pwrEvt 7

/-- The committed entry (R404): the journal entry, then every domain but 0 and the retained banks lost. -/
def Core.sleepEnter (c : Core) (n target : Nat) : Core :=
  let c := c.log jPower 0 (c.origin (.seq n)) 0x20040004 (w32 target) 0
  let keep := c.rd (rg0 .PWR_RETAIN)
  let ret (k : Nat) : Bool := target != 3 && (decide (30 ≤ k) || bit keep k)
  let was := c
  let c := (c.powerDown ret false (target != 3) keptInSleep).keepFailed c
  let c := if target = 1 then c.watchStart was else c
  let c := (List.range 24).foldl (fun (c : Core) d =>
    if d = 0 || !c.domPresent d then c
    else c.setDom d (if 6 ≤ d && d ≤ 9 && (List.range 8).any (fun k => ret (8 * (d - 6) + k)) then 1 else 2)) c
  let c := c.setF (rg0 .PWR_STATUS) 31 30 target
  c.setPwr { c.pwr with asleep := target, wake := none, asks := [], sleptAt := c.now }

/-- One domain of a request: 0, or the code of R406. -/
def Core.domCode (c : Core) (t : Owner) (own : Option Nat) (d : Nat) (ret off : Bool) : Nat :=
  let leaves := ret || off
  let normal := !c.isSecure t
  if normal && leaves && c.domSecure d then 1
  else if normal && c.domShared d t.part then 2
  else if (c.adm.live ++ c.adm.drafts.flatMap (fun e => e.2.ops.filterMap (fun o => match o with
      | .add x | .replace _ x => some x | .release _ => none))).any (fun x => x.domains.contains d) ||
      (leaves && (match own with | some n => d == 2 + n / 16 | none => false)) then 3
  else if leaves && c.rdB (rg0 .PWR_CFG) (24 + d / 3) then 7
  else if (leaves && d ≤ 1) || (ret && off) then 8
  else 0

/-- A domain in state `st` returns to ON: DRAM channels that lost power are trained, the cave starts up (R298, R407). -/
def Core.domBack (c : Core) (d st : Nat) : Core :=
  let c := c.setDom d 0
  if st ≠ 2 then c else
  match d with
  | 17 | 18 => c.chanUp (d - 17)
  | 22 => c.caveStart
  | _ => c

/-- A domain request from a window (R406, R407): evaluated whole, refused whole at the first failing domain, else applied: leaving
domains lose or keep their state, returning ones come back; source 980, journalled. The code, 0 when applied. -/
def Core.domRequest (c : Core) (ag : Agent) (win : Nat) : Core × Nat :=
  let t := c.tag ag
  let sel := c.rd (rg .PWR_DOM_SEL win)
  let ret := c.rd (rg .PWR_DOM_RET win)
  let off := c.rd (rg .PWR_DOM_OFF win)
  let own := match ag with | .seq n => some n | _ => none
  let ds := (bitsOf sel).filter (fun d => d < 24)
  let c := c.upTo (c.pwr.busyTill * 1000)
  let bad := (ds.map (fun d => (d, c.domCode t own d (bit ret d) (bit off d)))).find? (fun x => x.2 != 0)
  let res : Nat × Nat :=
    if !c.rdB (rg0 .PWR_CFG) 0 then (0, 6)
    else match bad with
      | some x => x
      | none => if c.wakePending.isSome then (0, 4) else (0, 0)
  let c := c.wr (rg .PWR_REQ_RESULT win) (w32 (res.1 * 16777216 + res.2))
  if res.2 = 1 then
    ((c.setB (rg0 .POT_EVT) 0 true).log jPower 1 (c.origin ag) (w32 res.1) sel 0, 1)
  else if res.2 = 4 then (c.aborted (c.wakePending.getD (1, 0)), 4)
  else if res.2 ≠ 0 then (c, res.2)
  else
    let change := ds.filter (fun d => c.domPresent d && c.rdF (rg .PWR_DOM_STATE d) 31 29 != 4)
    let c := change.foldl (fun (c : Core) d =>
      let st := c.rdF (rg .PWR_DOM_STATE d) 31 29
      let new := if bit off d then 2 else if bit ret d then 1 else 0
      let c := if new = 2 ∧ st ≠ 2 then c.domLose d else c
      let c := if new = 0 then c.domBack d st else c.setDom d new
      if new = 0 ∧ st ≠ 0 then c.setPwr { c.pwr with busyTill := max c.pwr.busyTill (c.mono + (if st = 1 then 10000 else 370000)) } else c) c
    ((c.pwrEvt 4).log jPower 0 (c.origin ag) sel ret off, 0)

/-- DOMAIN_REQUEST: PWR_DOM_GO in a host function's window (R406). -/
def execDomainRequest (f : Nat) (s : State) : Host.Outcome State Fault Refusal :=
  run s (fun c => if c.awake && decide (f < 64) then (c.domRequest (.host f) (64 + f)).1 else c)

/-- PWR_CFG: a change of compat only while every partition 1 to 63 is FREE or STOPPED; it returns every domain to ON (R407). -/
def Core.pwrCfg (c : Core) (v : W32) : Core :=
  let r := rg0 .PWR_CFG
  let flip := bit v 0 != c.rdB r 0
  let idle := (List.range 64).all (fun p => p == 0 || c.rdF (rg .PART_STATE p) 31 28 == 0 || c.rdF (rg .PART_STATE p) 31 28 == 1)
  if flip && !idle then c
  else
    let c := c.wr r (v &&& 0xFF000001)
    if flip then (List.range 24).foldl (fun (c : Core) d =>
      let st := c.rdF (rg .PWR_DOM_STATE d) 31 29
      if c.domPresent d && st != 4 then c.domBack d st else c) c
    else c

/-- WAITS: the request in the sequencer's window, of a sleep state in native mode or of domains in compatibility mode: g`d` = 0
when it is taken, 1 when it is aborted or refused; either way the tick ends as with WAITT, and the program sleeps in WAITS (R58, R82, R402, R403, R406). -/
def execWaits (n p d : Nat) (s : State) : Host.Outcome State Fault Refusal :=
  run s (fun c => c.instr n p 1 (fun c =>
    let ag : Agent := .seq n
    let target := c.rdF (rg .PWR_MODE n) 1 0
    let sel := c.rd (rg .PWR_DOM_SEL n)
    let compat := c.rdB (rg0 .PWR_CFG) 0
    let fin (c : Core) (r : Nat) : Core :=
      if d = 29 ∧ r < c.stkLim n then c.exception n 3 else ((c.setG n d (w64 r)).endTick n).tickOver n .sleeping
    let res (c : Core) (code : Nat) : Core := c.wr (rg .PWR_REQ_RESULT n) (w32 code)
    if compat then
      if target ≠ 0 && sel = 0 then fin ((res c 6).aborted (9, 0)) 1
      else
        let r := c.domRequest ag n
        fin r.1 (if r.2 = 0 then 0 else 1)
    else if target = 0 then (if sel = 0 then fin (res c 0) 0 else fin (res c 6) 1)
    else if !c.isSecure (c.tag ag) then fin (res c 7) 1
    else match c.sleepAbort with
      | some w => fin (c.aborted w) 1
      | none => (fin c 0).sleepEnter n target))

end Sys2Proof.Machine
end

