-- ==== Sys2Proof/Machine/Boot.lean ====
section
/-! DEFINITION. Boot and reset (R410 to R419): the manifest, the choice and loading of a copy, chip reset, recovery and the warm
path, unit and head resets; the spill of the configuration journal (R421, R422); debug halts (R127). -/

namespace Sys2Proof.Machine

open Sys2Proof

/-! ### The manifest (R410 to R412) -/

def mfVersion (bs : List Byte) : Nat := dAt bs 4 2
def mfTrials (bs : List Byte) : Nat := dAt bs 6 1
def mfConfirmed (bs : List Byte) : Bool := dAt bs 7 1 = 0xA5
def mfRollback (bs : List Byte) : Nat := dAt bs 8 1
def mfEntries (bs : List Byte) : Nat := dAt bs 0xA 2
def mfLength (bs : List Byte) : Nat := dAt bs 0xC 4
/-- The signed bytes: trials and confirmed taken as zero. -/
def mfSigned (bs : List Byte) : List Byte := bs.take 6 ++ [0, 0] ++ (bs.take (mfLength bs)).drop 8

/-- An entry: type, target, item. -/
structure MfItem where
  type   : Nat
  target : Nat
  body   : List Byte
  hash   : List Byte
  deriving DecidableEq, Repr

def mfItem (bs : List Byte) (i : Nat) : MfItem :=
  let e := (bs.drop (0x100 + 64 * i)).take 64
  { type := dAt e 0 1, target := dAt e 2 2, body := (bs.drop (dAt e 4 4)).take (dAt e 8 4), hash := e.drop 16 }
def mfItems (bs : List Byte) : List MfItem := (List.range (mfEntries bs)).map (mfItem bs)

/-- A hash as bytes, most significant first. -/
def hashBytes (h : BitVec 384) : List Byte := (leBytes 48 h.toNat).reverse

/-- A valid copy: R410's four conditions, every item's hash (R411), a field layout that holds together. -/
def mfValid (fuseRb : Nat) (bs : List Byte) : Bool :=
  let key := (bs.drop 0x10).take 97
  dAt bs 0 4 = 0x4B4D4631 && decide (1 ≤ mfEntries bs ∧ mfEntries bs ≤ 64) && decide (mfLength bs + 96 ≤ bs.length) &&
    decide (Config.sha384 key = Config.fusedKeyHash) && Config.ecdsaVerify key (mfSigned bs) ((bs.drop (mfLength bs)).take 96) &&
    decide (fuseRb ≤ mfRollback bs) && (mfItems bs).all (fun m => decide (hashBytes (Config.sha384 m.body) = m.hash))

/-- The copy in flash by number: 0 A, 1 B. -/
def Boot.flash (b : Boot) (k : Nat) : List Byte := if k = 0 then b.copyA else b.copyB

/-- The copy to boot among those not excluded (R412). -/
def Core.chooseCopy (c : Core) (fuse : Nat) (excl : List Nat) : Option Nat :=
  let valid := [0, 1].filter (fun k => !excl.contains k && mfValid fuse (c.boot.flash k))
  let good := valid.filter (fun k => mfConfirmed (c.boot.flash k) || decide (mfTrials (c.boot.flash k) < 3))
  match (if good = [] then valid else good) with
  | [] => none
  | [k] => some k
  | _ => some (if mfVersion c.boot.copyA < mfVersion c.boot.copyB then 1 else 0)

/-- Byte `i` of a copy in flash written. -/
def Core.flashWrite (c : Core) (k i v : Nat) : Core :=
  let w (bs : List Byte) : List Byte := bs.take i ++ [BitVec.ofNat 8 v] ++ bs.drop (i + 1)
  { c with boot := if k = 0 then { c.boot with copyA := w c.boot.copyA } else { c.boot with copyB := w c.boot.copyB } }

/-- The fused rollback counter, shown in SYS_BOOT_STATUS. -/
def Core.fuseRb (c : Core) : Nat := c.rdF (rg0 .SYS_BOOT_STATUS) 23 16

/-! ### Loading (R411, R413) -/

/-- The starter's tag: the secure world, partition 0 on the N series. -/
def Core.starterTag (c : Core) : Owner := { granted := true, world := c.secure }

/-- A secure program loaded with the boot schedule's descriptor for its sequencer, or one in the master domain. -/
def Core.bootProgram (c : Core) (n : Nat) (desc : List Byte) (img : List Byte) : Option Core :=
  let t := c.starterTag
  let win := winOf t
  let id := c.newId t
  let words := if desc = [] then [0x01010100, 0, w32 n] ++ List.replicate 13 (0 : W32) else (wordsOf desc).map w32
  let x : Contract := { id := id, sub := win, words := words }
  match parseImage (c.loadCtx t n (x.f 6 7 0) c.bootKeys) img with
  | none => none
  | some p =>
    let x : Contract := { x with image := some { p.image with id := id } }
    let e : EvalCtx := { tag := t, win := win, new := x, items := c.itemsFor win ++ [(x, none)], image := some img
                         parsed := some p, peek := peekImage img }
    if (c.judgeNew e (some n) []).code ≠ 0 then none
    else
      let c := { c with adm := { c.adm with serial := (c.adm.serial + 1) % 33554432 } }
      some (((c.enterOp win (.add x)).fillBank n p id).log jLoad 0 (originWord t 5 0) id (w32 n) 0)

/-- The 64-byte descriptors of a boot schedule. -/
def descs : Nat → List Byte → List (List Byte)
  | 0, _ => []
  | k + 1, bs => if bs.length < 64 then [] else bs.take 64 :: descs k (bs.drop 64)

/-- A descriptor of a program for sequencer `n`. -/
def isProgOf (n : Nat) (d : List Byte) : Bool := dAt d 3 1 = 1 && dAt d 8 2 = n

/-- One item loaded; none when it fails. On the N series types 0x02 and 0x06 are ignored, and 0x03 has no secure world to claim
for. -/
def Core.loadItem (c : Core) (sched : List (List Byte)) (m : MfItem) : Option Core :=
  let t := c.starterTag
  match m.type with
  | 1 => if m.target < 64 then c.bootProgram m.target ((sched.find? (isProgOf m.target)).getD []) m.body else none
  | 2 =>
    if !c.secure then some c
    else if 64 ≤ m.target then none
    else (parseService c.bootKeys m.body).map (fun region =>
      let c := c.wr (rg .SEQ_SVC_CFG m.target) (w32 (if region.length ≤ 16384 then 1 else 2))
      c.lmFill (localAddr m.target (0x40000 - c.svcSize m.target)) region)
  | 3 => if !c.secure then some c else let r := c.claimBytes t m.body; if r.2.code = 0 then some r.1 else none
  | 5 =>
    if 30 ≤ m.target ∨ 1048576 < m.body.length then none
    else
      let c := c.store (m.target * 0x100000) m.body
      some { c with boot := { c.boot with telltale := m.target * 0x100000 } }
  | 6 =>
    if !c.secure then some c
    else match Config.unwrapKeys m.body with
      | some ks => some { c with wit := { c.wit with keys := kmapOf 4 (fun i => ks.getD i 0 + 1), signKey := ks.getD 4 0 + 1 } }
      | none => none
  | _ => some c

/-- Items of a type loaded in their order. -/
def Core.loadType (c : Core) (sched : List (List Byte)) (items : List MfItem) (ty : Nat) : Option Core :=
  (items.filter (fun m => m.type = ty)).foldl (fun (o : Option Core) m => o.bind (fun c => c.loadItem sched m)) (some c)

/-- The boot schedule submitted: the programs that came with images apart, each descriptor must be admitted. -/
def Core.loadSchedule (c : Core) (sched : List (List Byte)) (items : List MfItem) : Option Core :=
  (sched.filter (fun d => !items.any (fun m => m.type = 1 && isProgOf m.target d))).foldl (fun (o : Option Core) d => o.bind (fun c =>
    let c := c.submitBytes c.starterTag d
    if c.rdB (rg .ADM_PW_RESULT (winOf c.starterTag)) 31 then none else some c)) (some c)

/-- The telltale's layer block set from its LAYER contract: protected slot 31, slot 0 on the N series (R413). -/
def Core.ttLayer (c : Core) : Core :=
  let s := if c.secure then 31 else 0
  match c.layerCon 0 s with
  | none => c
  | some x =>
    let ws := x.f 5 31 16
    let hs := x.f 5 15 0
    let c := c.layersIn 0
    let put (c : Core) (f : Fam) (v : Nat) : Core := c.wr (rg2 f 0 s) (w32 v)
    let c := put c .LAYER_CROP_SIZE (hs * 65536 + ws)
    let c := put c .LAYER_DST_SIZE (x.f 6 15 0 * 65536 + x.f 6 31 16)
    let c := put c .LAYER_PITCH0 (ws * 4)
    c.layerWrite .starter (rg2 .LAYER_CTRL 0 s) 1

/-- Programs, services, claims, keys, telltale and boot schedule of a copy, live in epoch 0; head 0 enabled, DPT 0 training
(R411, R413). -/
def Core.loadCopy (c : Core) (bs : List Byte) : Option Core :=
  let items := mfItems bs
  let sched := (items.filter (fun m => m.type = 4)).flatMap (fun m => descs (m.body.length / 64) m.body)
  let c : Core := { c with bootKeys := (bs.drop 0x80).take 97 }
  let o := [3, 2, 5, 6, 1].foldl (fun (o : Option Core) ty => o.bind (fun c => c.loadType sched items ty)) (some c)
  (o.bind (fun c => c.loadSchedule sched items)).map (fun c =>
    let w := winOf c.starterTag
    let c := c.goLive [(w, c.draft w)] 0
    let c := (c.ttLayer).headCtrl 0 1
    let c := c.wr (rg2 .DPT_STREAM 0 0) (setBit (c.rd (rg2 .DPT_STREAM 0 0)) 31 true)
    c.dptCtrl 0 (c.rd (rg .DPT_CTRL 0) ||| 3))

/-! ### Starting (R304, R413 to R416, R421) -/

/-- A table base that R115 allows: 16 KiB aligned, the table inside the window. -/
def Core.potBaseOk (c : Core) (a : Nat) : Bool :=
  a % 16384 = 0 && decide (0x1000000000 ≤ a ∧ a + 4 * c.potPages ≤ dramEnd c.counts)
/-- DRAM channels trained or FAILED, one FAILED before a warm path staying so; POT_BASE as the parameters give it (R115, R147, R413). -/
def Core.dramUp (c : Core) (bad : List Nat) (pot : Nat) : Core :=
  let c := (List.range c.counts.dram).foldl (fun (c : Core) h =>
    if c.chState h = 5 then c else if bad.contains h then (c.setChState h 5).fault (768 + h) 4 0 else c.setChState h 1) c
  if c.potBaseOk pot then c.wrPair (rg0 .POT_BASE_LO) (rg0 .POT_BASE_HI) pot else c

/-- At start-up the WIT goes on after the newest intent entry of each namespace, with a gap record where its body did not commit
(R304), and the journal's block number and hash go on from the newest block (R421). -/
def Core.witStart (c : Core) : Core :=
  let c := c.cave.intents.foldl (fun (c : Core) e =>
    let done := c.cave.segs.any (fun g => g.ns = e.1 && g.number = e.2.1 && g.done)
    let c := c.wrPair (rg .WIT_SEG_LO e.1) (rg .WIT_SEG_HI e.1) (e.2.1 + 1)
    let w := { c.wit with prevs := kset 0 c.wit.prevs e.1 e.2.2 }
    { c with wit := if done then w else { w with gaps := kset {} w.gaps e.1 { open_ := true, t0 := c.ns, t1 := c.ns } } }) c
  match (c.cave.segs.filter (fun g => g.ns = 64 && g.done)).getLast? with
  | some g =>
    ({ c with jnl := { c.jnl with prevHash := Config.sha256 (c.segBytes g []) } } : Core).wrPair (rg0 .JNL_BLOCK_LO) (rg0 .JNL_BLOCK_HI) (g.number + 1)
  | none => c

/-- The copy booted: shown, journalled, its hash kept in domain 0, the starter running, the link released (R412 to R414). -/
def Core.booted (c : Core) (k : Nat) (bs : List Byte) (warm : Bool) (bad : List Nat) (pot : Nat) : Core :=
  let st : W32 := w32 (k % 2 * 2147483648 + (if k = 2 then 1073741824 else 0) + (if warm then 536870912 else 0)
    + (if mfConfirmed bs then 268435456 else 0) + c.fuseRb * 65536 + mfVersion bs)
  let c := (c.wr (rg0 .SYS_BOOT_STATUS) st).log jBoot 0 (c.origin .starter) (w32 k) (w32 (mfVersion bs)) (w32 (mfTrials bs))
  let c := c.dramUp bad pot
  { c with boot := { c.boot with copy := bs, source := k, hash := Config.sha384 (mfSigned bs), starter := true, released := true
                                 recovery := false, warmDue := false } }

/-- Recovery: no valid copy, the link released (R415). -/
def Core.enterRecovery (c : Core) (bad : List Nat) (pot : Nat) : Core :=
  let c := (c.setB (rg0 .SYS_BOOT_STATUS) 30 true).dramUp bad pot
  let c := c.log jBoot 1 (c.origin .starter) 0 0 0
  { c with boot := { c.boot with released := true, recovery := true, warmDue := false } }

/-- The starter's choice, and again without a copy whose load failed (R412); each load begins from the device as reset. -/
def Core.bootFrom (c : Core) (bad : List Nat) (pot : Nat) (excl : List Nat) : Nat → Core
  | 0 => c.enterRecovery bad pot
  | n + 1 =>
    match c.chooseCopy c.fuseRb excl with
    | none => c.enterRecovery bad pot
    | some k =>
      let bs := c.boot.flash k
      let d := if mfConfirmed bs then c else c.flashWrite k 6 (sat 255 (mfTrials bs + 1))
      match d.loadCopy (d.boot.flash k) with
      | some e => e.booted k (d.boot.flash k) false bad pot
      | none => d.bootFrom bad pot (k :: excl) n

/-- What a chip reset keeps while VDD_AON stays up: domain 0, but for the domain states and the level, which follow the reset (R409,
R417), and what the cave finds again on its members. -/
def keptInReset (r : Reg) : Bool :=
  (regDomain r = 0 && r.fam != .PWR_DOM_STATE && r.fam != .PWR_STATUS) || caveRecord r

/-- A chip reset (R409, R413, R417): every domain but 0 reset, banks 30 and 31, DRAM and the journal kept with the supplies, domain 0
with VDD_AON, which OFF keeps; PWR_THERM.lock ends; boundary 0 of the master tick at reset release; then the starter. -/
def Core.chipReset (c : Core) (cause : Nat) (supplies : Bool) (bad : List Nat) (pot : Nat) : Core :=
  let aon := supplies || decide (cause = 3)
  let st := c.rd (rg0 .PWR_STATUS)
  let wake := c.pwr.wake
  let fuse := c.fuseRb
  let c := if supplies then c.powerDown (fun k => decide (30 ≤ k)) true true keptInReset
    else c.powerDown (fun _ => false) false false (fun r => if aon then keptInReset r else caveRecord r)
  let c := ((c.setB (rg0 .PWR_THERM) 31 false).setF (rg0 .PWR_PL) 10 8 0)
  let c : Core := { c with loLatch := [], pwr := { sampleAt := c.now }, cycNum := 0, cycAt := c.now, tkg := { origin := c.ns }
                           evr := if aon then c.evr else {}
                           boot := { c.boot with copy := [], starter := false, released := false, recovery := false, warmDue := false } }
  let kept : W32 := if aon then (st &&& 0xDFFF0080) ||| 0x70 else 0x70
  let kept := match wake with
    | some w => if cause = 3 then setFld (setFld kept 28 24 w.1) 23 16 w.2 else kept
    | none => kept
  let c := (c.wr (rg0 .PWR_STATUS) kept).setF (rg0 .SYS_BOOT_STATUS) 23 16 fuse
  let c := ((c.log jReset 0 blockOrigin 0 (w32 cause) 0).levelAsk).caveStart.witStart
  c.bootFrom bad pot [] 2

/-- CHIP_RESET: power-on (0), PERST# (1), PCIe hot reset (2) or a wake from OFF (3); new flash contents when given, the channels whose
training failed, the table base of the type 0x07 parameters. -/
def execChipReset (cause : Nat) (flash : Option (List Byte × List Byte)) (bad : List Nat) (pot : Nat) (s : State) :
    Host.Outcome State Fault Refusal :=
  run s (fun c =>
    let c : Core := match flash with | some f => { c with boot := { c.boot with copyA := f.1, copyB := f.2 } } | none => c
    if 3 < cause ∨ (cause = 3 ∧ (c.pwr.asleep ≠ 3 ∨ c.pwr.wake = none)) then c
    else c.chipReset cause (cause = 1 || cause = 2) bad pot)

/-- SUPPLY_LOSS: the always-on supply lost: a chip reset that keeps nothing (R435). -/
def execSupplyLoss (bad : List Nat) (pot : Nat) (s : State) : Host.Outcome State Fault Refusal :=
  run s (fun c => c.chipReset 0 false bad pot)

/-- SYS_BOOT_CTRL.recover: the copy in bank 0 checked and booted, never written to flash; by the secure world, or by the PF in
recovery (R415). -/
def Core.recover (c : Core) (ag : Agent) (bad : List Nat) (pot : Nat) : Core :=
  let ok := c.isSecure (c.tag ag) || (c.boot.recovery && (match ag with | .host f => f = 0 | _ => false))
  if !ok then c else
  let n := mfLength (c.bytes 0 16) + 96
  let bs := c.bytes 0 (min n 1048576)
  if !mfValid c.fuseRb bs then c
  else match c.loadCopy bs with
    | some d => d.booted 2 bs false bad pot
    | none => c

/-- RECOVER (R415). -/
def execRecover (ag : Agent) (bad : List Nat) (pot : Nat) (s : State) : Host.Outcome State Fault Refusal :=
  run s (fun c => if c.awake then c.recover ag bad pot else c)

/-- SYS_BOOT_CTRL.chip by the secure world (R417). -/
def Core.chip (c : Core) (ag : Agent) (bad : List Nat) (pot : Nat) : Core :=
  if c.isSecure (c.tag ag) then c.chipReset 4 true bad pot else c

/-- CHIP (R417). -/
def execChip (ag : Agent) (bad : List Nat) (pot : Nat) (s : State) : Host.Outcome State Fault Refusal :=
  run s (fun c => if c.awake then c.chip ag bad pot else c)

/-- SYS_BOOT_CTRL.confirm: confirmed = 0xA5 into the booted copy; journalled (R419). -/
def Core.confirm (c : Core) (ag : Agent) : Core :=
  if !c.isSecure (c.tag ag) || 2 ≤ c.boot.source || c.boot.copy = [] then c
  else
    let c := (c.flashWrite c.boot.source 7 0xA5).setB (rg0 .SYS_BOOT_STATUS) 28 true
    c.log jBoot 0 (c.origin ag) 0x20000204 2 0

/-- CONFIRM (R419). -/
def execConfirm (ag : Agent) (s : State) : Host.Outcome State Fault Refusal :=
  run s (fun c => if c.awake then c.confirm ag else c)

/-- SYS_BOOT_CTRL.rollback_commit: fuse bits blown up to the booted copy's rollback level; ignored in an unconfirmed boot (R419). -/
def Core.rollbackCommit (c : Core) (ag : Agent) : Core :=
  if !c.isSecure (c.tag ag) || !c.rdB (rg0 .SYS_BOOT_STATUS) 28 then c
  else
    let n := max c.fuseRb (min 128 (mfRollback c.boot.copy))
    (c.setF (rg0 .SYS_BOOT_STATUS) 23 16 n).log jBoot 0 (c.origin ag) 0x20000204 4 (w32 n)

/-- ROLLBACK_COMMIT (R419). -/
def execRollbackCommit (ag : Agent) (s : State) : Host.Outcome State Fault Refusal :=
  run s (fun c => if c.awake then c.rollbackCommit ag else c)

/-- WARM_PATH: after a wake the booted copy's hash is compared with the one held in domain 0; a match loads it without signature
checks, a mismatch falls back to the full sequence (R416). -/
def execWarmPath (bad : List Nat) (pot : Nat) (s : State) : Host.Outcome State Fault Refusal :=
  run s (fun c =>
    if !c.awake || !c.boot.warmDue then c else
    let k := c.boot.source
    let bs := if k = 2 then c.boot.copy else c.boot.flash k
    let c := (c.levelAsk).caveStart.witStart
    if decide (Config.sha384 (mfSigned bs) = c.boot.hash) then
      match c.loadCopy bs with
      | some d => d.booted k bs true bad pot
      | none => c.bootFrom bad pot [] 2
    else c.bootFrom bad pot [] 2)

/-! ### Unit and head resets (R37, R417) -/

/-- A sequencer unit reset: as the restart of R78 at its next boundary; of a partition that is not ACTIVE the program stays held. -/
def Core.seqReset (c : Core) (n : Nat) : Core :=
  if (c.seq n).live.isNone then c else
  let c := (if (c.seq n).inCall then c.scrub n 0 else c).dropLevels n
  let q := c.seq n
  let t := c.st n
  let c := c.setSeq n { q with tw := [], rets := [], loops := [], restart := true
                               mode := if c.ownerRuns n then .waiting else .halted }
  c.setSt n { t with excWait := true, drain := false, overs := 0, late := false }

/-- A CRC unit at its reset values (R172). -/
def Core.crcReset (c : Core) (n : Nat) : Core :=
  let c := c.regsReset crcFams n
  { c with crcs := c.crcs.filter (fun e => e.1 != n) }

/-- A unit reset by kind (R417). -/
def Core.unitReset (c : Core) (kind i : Nat) : Core :=
  match kind with
  | 1 => c.headReset i
  | 2 =>
    if (List.range 16).any (fun h => c.scanning h && ((c.head h).group.contains i || (groupMask c.adm.live h).testBit i))
    then { c with leResets := kset false c.leResets i true } else c.leReset i
  | 3 => c.seqReset i
  | 4 => let c := c.dmaStop i; c.setF (rg .DMA_CH_STATUS i) 8 4 0
  | 5 => c.crcReset i
  | 9 => if c.rdB (rg .TCH_STATUS i) 29 then (c.tchStop i).tchStart i else c.tchStop i
  | 10 => c.hptStop i
  | _ => c

/-- SYS_RST (R417): the unit's owner, partition 0 for a normal-world unit, and the secure world; KIND, ABSENT, NOT_PERMITTED. -/
def Core.sysRst (c : Core) (ag : Agent) (kind i : Nat) : Core :=
  let t := c.tag ag
  let o := c.owner kind i
  let code :=
    if !([1, 2, 3, 4, 5, 9, 10].contains kind) then 3
    else if !c.kindPresent kind i then 2
    else if c.isSecure t || sameOwner t o || (isP0 t && !o.world) then 0 else 1
  let c := c.wr (rg0 .SYS_RST_RESULT) (w32 code)
  let c := c.log jReset code (c.origin ag) 0x20000210 (w32 (kind * 16777216 + i)) 0
  if code = 0 then c.unitReset kind i else c

/-- HEAD_RESET: SYS_RST of a head (R417). -/
def execHeadReset (ag : Agent) (h : Nat) (s : State) : Host.Outcome State Fault Refusal :=
  run s (fun c => if c.awake then c.sysRst ag 1 h else c)

/-- UNIT_RESET: SYS_RST of another unit (R417). -/
def execUnitReset (ag : Agent) (kind i : Nat) (s : State) : Host.Outcome State Fault Refusal :=
  run s (fun c => if c.awake && kind != 1 then c.sysRst ag (kind % 256) (i % 2048) else c)

/-! ### The journal's spill (R421, R422) -/

def Core.setJnl (c : Core) (j : Journal) : Core := { c with jnl := j }

/-- The spill block of `k` entries from the oldest one waiting. -/
def Core.spillBlock (c : Core) (k : Nat) : List Byte :=
  let first := (c.rd (rg0 .JNL_SSEQ)).toNat
  let es := (List.range k).map (fun i => kget ({} : JEntry) c.jnl.ring ((first + i) % 65536))
  let t := match es with | e :: _ => e.time.toNat | [] => 0
  leBytes 4 0x4A424C31 ++ leBytes 2 1 ++ leBytes 2 k ++ leBytes 8 (c.rdPair (rg0 .JNL_BLOCK_LO) (rg0 .JNL_BLOCK_HI)) ++ leBytes 8 t
    ++ leBytes 32 c.jnl.prevHash.toNat ++ leBytes 8 0 ++ es.flatMap JEntry.bytes

/-- JOURNAL_SPILL: 128 waiting entries, or fewer once 100 ms have passed, handed to the cave as a block; spill_err and source 990
when the journal area takes none. -/
def execJournalSpill (s : State) : Host.Outcome State Fault Refusal :=
  run s (fun c =>
    let n := c.jfill
    if !c.awake || n = 0 || c.jnl.inFlight != 0 then c else
    let k := min n 128
    let c := if n < 128 then c.upTo ((c.jnl.waitSince + 100000000) * 1000) else c
    let bs := c.spillBlock k
    match (if c.caveTakes then c.storeSeg 64 (c.rdPair (rg0 .JNL_BLOCK_LO) (rg0 .JNL_BLOCK_HI)) bs [] else none) with
    | some d => d.setJnl { d.jnl with inFlight := k, inHash := Config.sha256 bs }
    | none => (c.setB (rg0 .JNL_STATUS) 29 true).setB (rg0 .JNL_EVT) 2 true)

/-- The overflow summary when space has returned (R422). -/
def Core.spillSummary (c : Core) : Core :=
  let j := c.jnl
  if j.lostOpen = 0 ∨ 65536 ≤ c.jfill then c
  else
    let c := c.setJnl { j with lostOpen := 0 }
    (c.jpush { origin := blockOrigin, kind := jSummary, count := sat 65535 j.lostOpen, aux := lo32 j.lostFirst, value := lo32 j.lostLast }).setB
      (rg0 .JNL_EVT) 3 true

/-- JOURNAL_BLOCK_COMMIT: the cave has committed the block: its entries leave the ring, spill_err clears, refusals end below
64,512 (R421, R422). -/
def execJournalBlockCommit (s : State) : Host.Outcome State Fault Refusal :=
  run s (fun c =>
    let k := c.jnl.inFlight
    if !c.awake || k = 0 then c else
    let first := (c.rd (rg0 .JNL_SSEQ)).toNat
    let num := c.rdPair (rg0 .JNL_BLOCK_LO) (rg0 .JNL_BLOCK_HI)
    let ring : KMap JEntry := (List.range k).foldl (fun (m : KMap JEntry) i => kset {} m ((first + i) % 65536) {}) c.jnl.ring
    let next : JEntry := kget {} ring ((first + k) % 65536)
    let c : Core := c.setJnl { c.jnl with ring := ring, inFlight := 0, prevHash := c.jnl.inHash, waitSince := (c.psOf next.time.toNat) / 1000 }
    let c : Core := c.setCave { c.cave with segs := c.cave.segs.map (fun (g : CSeg) =>
      if g.ns = 64 ∧ g.number = num then { g with done := true } else g) }
    let c := (c.wr (rg0 .JNL_SSEQ) (w32 (first + k))).wrPair (rg0 .JNL_BLOCK_LO) (rg0 .JNL_BLOCK_HI) (num + 1)
    let c := c.setB (rg0 .JNL_STATUS) 29 false
    let c := if c.jfill < 64512 then c.setJnl { c.jnl with nwBusy := false } else c
    c.spillSummary)

/-- JNL_STATUS as it reads (R422). -/
def Core.jnlStatus (c : Core) : W32 :=
  w32 ((if c.jnl.nwBusy then 2147483648 else 0) + (if 65536 ≤ c.jfill then 1073741824 else 0)
    + (if c.rdB (rg0 .JNL_STATUS) 29 then 536870912 else 0) + c.jfill % 131072)

/-! ### Debug (R127) -/

/-- Invasive debug may act on a sequencer: the secure or normal enable, and for a partition's its descriptor's dbg_inv. -/
def Core.dbgMay (c : Core) (n : Nat) : Bool :=
  let o := c.owner 3 n
  let en := rg0 .POT_DBG_EN
  if o.world then c.rdB en 3 else c.rdB en 1 && (o.part = 0 || (kget ({} : PartRec) c.parts o.part).dbgInv)

/-- Non-invasive debug may observe a sequencer: the secure or normal enable, and for a partition's its descriptor's dbg_ninv. -/
def Core.dbgSees (c : Core) (n : Nat) : Bool :=
  let o := c.owner 3 n
  let en := rg0 .POT_DBG_EN
  if o.world then c.rdB en 2 else c.rdB en 0 && (o.part = 0 || (kget ({} : PartRec) c.parts o.part).dbgNinv)

/-- Debug as a client of memory: the rights of the sequencer it halts, the secure world's with its invasive enable (R127, R133). -/
def Core.dbgClient (c : Core) (n : Nat) : Client :=
  { tag := if c.secure && c.rdB (rg0 .POT_DBG_EN) 3 then { granted := true, world := true } else { c.owner 3 n with granted := true }
    cls := 5, no := 1, port := 29, ss := 10 }

/-- An answer to debug. -/
def Core.dbgAnswer (c : Core) (bs : List Byte) : Core := { c with resp := { data := w64 (leNat (bs.take 8)), rest := bs.drop 8 } }

/-- One act of debug at sequencer `n`: registers and memory need invasive debug, the PC sample either kind; without the enable debug
sees zero and changes nothing (R127). -/
def Core.debugAct (c : Core) (n : Nat) (a : DebugAct) : Core :=
  match a with
  | .samplePc => c.dbgAnswer (if c.dbgMay n || c.dbgSees n then leBytes 8 (c.seq n).pc else leBytes 8 0)
  | .readG k j =>
    c.dbgAnswer (leBytes 8 (if c.dbgMay n && j != 0 then (kget 0 (kget ({} : RegSet) (c.seq n).sets k).g j).toNat else 0))
  | .writeG k j v =>
    if !c.dbgMay n ∨ j = 0 ∨ 31 < j ∨ 3 < k then c else
    let q := c.seq n
    let r := kget ({} : RegSet) q.sets k
    c.setSeq n { q with sets := kset {} q.sets k { r with g := kset 0 r.g j v } }
  | .readMem a m =>
    if !c.dbgMay n then c.dbgAnswer (List.replicate m 0)
    else
      let x := c.unitRead (c.dbgClient n) a m
      x.1.dbgAnswer (if x.2.2 = 0 then x.2.1 else List.replicate m 0)
  | .writeMem a bs => if c.dbgMay n then (c.deviceWrite (c.dbgClient n) a bs).1 else c

/-- DEBUG_HALT: the sequencer halts, and debug then reads and writes its registers and memory (R36, R97, R127). -/
def execDebugHalt (d : DebugHalt) (s : State) : Host.Outcome State Fault Refusal :=
  run s (fun c =>
    let n := d.seq
    if !c.awake || decide (64 ≤ n) then c else
    let c := if c.dbgMay n then let q := c.seq n; c.setSeq n { q with dbg := true } else c
    d.acts.foldl (fun (c : Core) a => c.debugAct n a) c)

/-- DEBUG_RESUME: deliveries resume; the program runs again at its next boundary, the tick it was halted in being lost; with `step` it runs
one instruction and halts again (R127). -/
def execDebugResume (d : DebugResume) (s : State) : Host.Outcome State Fault Refusal :=
  run s (fun c =>
    let n := d.seq
    let q := c.seq n
    if !c.awake || !q.dbg || !c.dbgMay n then c
    else if d.step then c.setSeq n { q with dbg := false, step := true } else
    let t := c.st n
    if q.mode = .running && q.level = 0 then
      (c.setSeq n { q with dbg := false, mode := .waiting, tw := [], loops := kset [] q.loops 0 [], rets := kset [] q.rets 0 [] }).setSt n
        { t with late := true, drain := false }
    else c.setSeq n { q with dbg := false })

/-! ### Link changes -/

/-- NET_LINK_CHANGE: the port's link up or down, source 920 + n; a failure makes the slots of its intake LOST (R180, R188). -/
def execNetLinkChange (n : Nat) (up : Bool) (s : State) : Host.Outcome State Fault Refusal :=
  run s (fun c =>
    if !c.awake || c.counts.net ≤ n then c else
    let c := (c.setB (rg .NET_PORT_STATUS n) 0 up).raise (920 + n)
    if up then c
    else (c.adm.live.filter (fun x => x.kind = kSOURCE && x.f 7 3 0 = 1 && x.f 9 1 0 = n)).foldl (fun (c : Core) x => c.srcLose x.unit 3) c)

/-- SYNTHESISER_LOCK: domain B's synthesiser locks, its samples indexed from now, or unlocks (R315). -/
def execSynthesiserLock (lock : Bool) (s : State) : Host.Outcome State Fault Refusal :=
  run s (fun c =>
    let r := c.rdN (rg .TKG_AUDIO_CFG 1)
    if !c.awake || r = 0 || c.rdB (rg .AUD_DOM 1) 30 = lock then c
    else if lock then c.audStart 1 r true else (c.audStop 1).audStart 1 r false)

end Sys2Proof.Machine
end

