-- ==== Sys2Proof/Machine/Tkg.lean ====
section
/-! DEFINITION. The Tick Generator's discipline: time sources, its four states, phase slewing and stepping (R28, R29, R385). -/

namespace Sys2Proof.Machine

open Sys2Proof

def Core.setTkg (c : Core) (t : Tkg) : Core := { c with tkg := t }
/-- TKG_STATUS.state: 0 FREE, 1 ACQUIRE, 2 LOCKED, 3 HOLDOVER. -/
def Core.tkgState (c : Core) : Nat := c.rdF (rg0 .TKG_STATUS) 1 0
/-- TKG_CTRL.tkg_src: 0 and 1 PTP, 2 Rogar wheel, 3 free. -/
def Core.tkgSrc (c : Core) : Nat := c.rdF (rg0 .TKG_CTRL) 3 2

/-- A state entered: source 67 on entry to LOCKED, 68 on a departure to HOLDOVER or ACQUIRE, HD_FRESH_STATUS.untimed with FREE and
ACQUIRE (R29, R276). -/
def Core.tkgEnter (c : Core) (n : Nat) : Core :=
  let old := c.tkgState
  let c := c.wr (rg0 .TKG_STATUS) (setFld (c.rd (rg0 .TKG_STATUS)) 1 0 n)
  let c := (List.range c.counts.heads).foldl (fun (c : Core) h => c.setB (rg .HD_FRESH_STATUS h) 3 (decide (n < 2))) c
  let c := c.setTkg { c.tkg with good := 0, bad := 0, everLocked := n != 0 && (c.tkg.everLocked || n == 2) }
  if n = 2 ∧ old ≠ 2 then c.raise 67 else if old = 2 ∧ (n = 1 ∨ n = 3) then c.raise 68 else c

/-- The selected source is lost: HOLDOVER from LOCKED, and from ACQUIRE once it has been LOCKED; else FREE (R29). No phase is corrected any
more. On a wheel the root is lost (947, R385). -/
def Core.tkgLost (c : Core) : Core :=
  let c := (c.setTkg { c.tkg with srcValid := false }).setB (rg0 .TKG_STATUS) 2 false
  let c := if c.tkgSrc = 2 then c.rglEvt 3 else c
  match c.tkgState with
  | 1 => c.tkgEnter (if c.tkg.everLocked then 3 else 0)
  | 2 => c.tkgEnter 3
  | _ => c

/-- Time in ps without valid information after which a source is lost: 1 s, of the wheel 1 ms (R29). -/
def lossPs (src : Nat) : Nat := if src = 2 then 1000000000 else 1000000000000

/-- Valid time information from a source, selected or not (R29). -/
def Core.tkgSeen (c : Core) (src : Nat) : Core := c.setTkg { c.tkg with seen := kset 0 c.tkg.seen src (c.now + 1) }

/-- A newly selected source that is valid already (R29). -/
def Core.tkgTake (c : Core) (src : Nat) : Core :=
  let t := kget 0 c.tkg.seen src
  if t = 0 ∨ t - 1 + lossPs src ≤ c.now then c
  else
    let c := c.setTkg { c.tkg with srcValid := true, infoAt := t - 1 }
    if c.tkgState = 0 ∨ c.tkgState = 3 then c.tkgEnter 1 else c

/-- Valid time information from the selected source (R29). -/
def Core.tkgValid (c : Core) : Core :=
  let c := c.setTkg { c.tkg with srcValid := true, infoAt := c.now }
  if c.tkgState = 0 ∨ c.tkgState = 3 then c.tkgEnter 1 else c

/-- TKG_CTRL written: free running at once; a change of source is a loss of the old one (R29). -/
def Core.tkgCtrl (c : Core) (v : W32) : Core :=
  let old := c.tkgSrc
  let new := fld v 3 2
  let put (c : Core) : Core := c.wr (rg0 .TKG_CTRL) (v &&& 0xE)
  if new = 3 then (put ((c.setTkg { c.tkg with srcValid := false }).setB (rg0 .TKG_STATUS) 2 false)).tkgEnter 0
  else if new = old then put c
  else (put (if old ≠ 3 then c.tkgLost else c)).tkgTake new

/-- TIME_INFO: valid time information arrives from a source; one not selected is known as valid when it comes to be (R29). -/
def execTimeInfo (src : Nat) (s : State) : Host.Outcome State Fault Refusal :=
  run s (fun c =>
    if !c.awake || decide (3 ≤ src) then c
    else if src = c.tkgSrc then (c.tkgSeen src).tkgValid else c.tkgSeen src)

/-- TIME_FRAME: a Rogar time frame with the measured error in ns: valid time for a member that takes the wheel's time; beyond ±1 µs
it raises 947 (R385). -/
def execTimeFrame (err : Int) (s : State) : Host.Outcome State Fault Refusal :=
  run s (fun c =>
    if !c.awake || !(c.portUp 0 || c.portUp 1) then c
    else if c.tkgSrc ≠ 2 then c.tkgSeen 2
    else
      let c := (c.tkgSeen 2).tkgValid
      if 1000 < err.natAbs then c.rglEvt 3 else c)

/-- SOURCE_LOSS_TIMEOUT: 1 s without valid information from a PTP source, 1 ms from the wheel (R29). -/
def execSourceLossTimeout (s : State) : Host.Outcome State Fault Refusal :=
  run s (fun c =>
    if !c.awake || !c.tkg.srcValid then c
    else (c.upTo (c.tkg.infoAt + lossPs c.tkgSrc)).tkgLost)

/-- The phase error of a boundary is taken out of the period that begins there, by at most 100 ppm of it (R29; log entry 148). -/
def Core.slew (c : Core) (e : Int) : Core :=
  let k := c.tickOf 0
  let most : Int := ((c.boundaryNs (k + 1) - c.boundaryNs k) / 10000 : Nat)
  c.setTkg { c.tkg with idx0 := k, origin := ((c.boundaryNs k : Int) - max (-most) (min most e)).toNat }

/-- The discipline at a boundary strobe, with the phase error in ns measured there (R29): in ACQUIRE the next boundary moves; in LOCKED
every boundary has its place and index of R28. -/
def Core.tkgPhase (c : Core) (e : Int) : Core :=
  let st := c.tkgState
  if !c.tkg.srcValid || !(st == 1 || st == 2) then c
  else
    let e' := max (-8388607) (min 8388607 e)
    let v := c.rd (rg0 .TKG_STATUS)
    let c := c.wr (rg0 .TKG_STATUS) (setBit (setFld v 31 8 (BitVec.ofInt 24 e').toNat) 2 (decide (e ≠ 0)))
    let inside := decide (e.natAbs ≤ 1000)
    let t := c.tkg
    let t := { t with good := if inside then t.good + 1 else 0, bad := if inside then 0 else t.bad + 1 }
    let c := c.setTkg t
    if st = 1 ∧ 16 ≤ t.good then
      (c.onGrid (c.rdN (rg0 .TKG_MASTER_DEN) * 500000000 / max 1 (c.rdN (rg0 .TKG_MASTER_NUM)))).tkgEnter 2
    else if st = 2 ∧ 4 ≤ t.bad then (c.slew e).tkgEnter 1
    else if st = 1 then c.slew e
    else c

/-- PHASE_STEP by so many ns: only with TKG_CTRL.step_ok, a valid source and no head scanning. PTP time moves by the step, TKG_TICK to the
index of R28, boundaries to their places of R28; journalled (R28, R29, R259). -/
def execPhaseStep (step : Int) (s : State) : Host.Outcome State Fault Refusal :=
  run s (fun c =>
    if !c.awake || c.tkg.inApply || !c.rdB (rg0 .TKG_CTRL) 1 || !c.tkg.srcValid || !(c.tkgState == 1 || c.tkgState == 2)
        || (List.range 16).any (fun h => c.scanning h) then c
    else
      let c : Core := { c with ptpOff := c.ptpOff + step }
      (c.onGrid 0).faultFrom blockOrigin (w32 0x20010004) 1 step.natAbs)

end Sys2Proof.Machine
end

