-- ==== Sys2Proof/Machine/CtlRights.lean ====
section
/-! DEFINITION. Who owns a register and who may read or write it (R102, R107 to R110, and the register sections of every chapter). -/

namespace Sys2Proof.Machine

open Sys2Proof

/-- The owner a contract gives its unit. -/
def conOwner (x : Option Contract) : Option Owner := x.map (fun y => ownerOf y.sub)

/-- The AUDIO contract that holds channel `j` of bridge `b` (R324, R325). -/
def Core.bridgeCon (c : Core) (b j : Nat) : Option Contract :=
  c.audCons.find? (fun y => y.f 5 15 8 = b && decide (y.f 7 15 8 ≤ j ∧ j < y.f 7 15 8 + y.f 5 7 0))

/-- The head in whose group an engine is. -/
def Core.leHead (c : Core) (n : Nat) : Option Nat :=
  (List.range 16).find? (fun h => (c.head h).group.contains n || (groupMask c.adm.live h).testBit n)

/-- The owner of the unit, endpoint or record a register belongs to; none where no owner record or contract names one. -/
def Core.regOwner (c : Core) (r : Reg) : Option Owner :=
  let i := r.i
  match r.fam.info.own with
  | .head | .layer => some (c.owner 1 i)
  | .le => match c.leHead i with | some h => some (c.owner 1 h) | none => some (c.owner 2 i)
  | .seq => some (c.owner 3 i)
  | .dma => some (c.owner 4 i)
  | .crc => some (c.owner 5 i)
  | .evSrc => some (c.owner 6 i)
  | .evPin => some (c.owner 6 (992 + i))
  | .vec => some (c.owner 7 i)
  | .touch => some (c.owner 9 i)
  | .haptic => some (c.owner 10 i)
  | .csi => some (c.owner 12 i)
  | .tdm => some (c.owner 13 i)
  | .ring => some (c.owner 14 i)
  | .dpt => if sameOwner (c.owner 1 (2 * i)) (c.owner 1 (2 * i + 1)) then some (c.owner 1 (2 * i)) else none
  | .fn | .partState => some { granted := true, part := i }
  | .slot => conOwner (c.slotSrc i)
  | .vdeCtx => conOwner (c.vdeCon i r.j)
  | .veeStr => conOwner (c.encCon i r.j)
  | .mixIn => conOwner (c.inCon i)
  | .mixOut => conOwner (c.outCon i)
  | .netAudio =>
    let v := c.rd (rg2 .AUD_NS_CFG i r.j)
    if bit v 31 then conOwner (c.nsCon v (decide (8 ≤ r.j))) else none
  | .exp => conOwner (c.slotSrc (c.rdF (rg .RGL_EXP_CTRL i) 9 0))
  | .imp => conOwner (c.slotSrc (c.rdF (rg .RGL_IMP_CFG i) 9 0))
  | .hold => some (if i / 16 = 0 then { granted := true, world := c.secure } else { granted := true, part := i / 16 })
  | _ => none

/-- Registers whose owners are several: a tag holds one of the things they belong to. -/
def Core.sharesReg (c : Core) (t : Owner) (r : Reg) : Bool :=
  let mine (x : Contract) : Bool := sameOwner t (ownerOf x.sub)
  match r.fam.info.own with
  | .bridge => c.audCons.any (fun y => mine y && y.f 5 15 8 = r.i && decide (0 < y.f 5 7 0))
  | .netAudio => (c.regOwner r).isNone && c.audCons.any (fun y => mine y && y.unit = 0)
  | .vee => c.adm.live.any (fun y => mine y && y.kind = kENCODE && y.unit = r.i)
  | .evWord | .slotBits | .vdeCtxBits | .audEvt => true
  | _ => false

/-- Bit `i` of AUD_EVT belongs to the tag: it owns the endpoint, or one of those the bit stands for (R331). -/
def Core.audBit (c : Core) (t : Owner) (i : Nat) : Bool :=
  let mine (x : Contract) : Bool := sameOwner t (ownerOf x.sub)
  if i < 8 then sameOwner t (c.owner 13 i)
  else if i < 12 then (List.range 16).any (fun k => match c.regOwner (rg2 .AUD_NS_CFG (i - 8) k) with | some o => sameOwner t o | none => false)
  else if i < 16 then c.sharesReg t (rg .AUD_BR_STATUS (i - 12))
  else if i < 18 then c.audCons.any (fun y => mine y && decide (0 < outCount y))
  else if i = 18 then (List.range 8).any (fun k => sameOwner t (c.owner 14 k))
  else false

/-- The bits of a register that belong to the tag (R102, R199, R331, R188, R324). -/
def Core.ownBits (c : Core) (t : Owner) (r : Reg) : W32 :=
  let by_ (p : Nat → Bool) : W32 := (List.range 32).foldl (fun (m : W32) j => setBit m j (p j)) 0
  if c.isSecure t then 0xFFFFFFFF else
  match r.fam.info.own with
  | .evWord => by_ (fun j => sameOwner t (c.owner 6 (32 * r.i + j)))
  | .slotBits => by_ (fun j => match c.slotSrc (32 * r.i + j) with | some z => sameOwner t (ownerOf z.sub) | none => isP0 t)
  | .vdeCtxBits => by_ (fun j => match c.vdeCon r.i j with | some z => sameOwner t (ownerOf z.sub) | none => isP0 t)
  | .audEvt => by_ (fun j => c.audBit t j)
  | .bridge => by_ (fun j => match c.bridgeCon r.i (4 * r.j + j / 8) with | some z => sameOwner t (ownerOf z.sub) | none => isP0 t)
  | _ => 0xFFFFFFFF

/-- The bits of a register that the tag reads: its own; partition 0 also those of the normal world (R102). Bits of absent and
never-firing sources read zero for every reader (R5, R32, R152). -/
def Core.seenBits (c : Core) (t : Owner) (r : Reg) : W32 :=
  let by_ (p : Nat → Bool) : W32 := (List.range 32).foldl (fun (m : W32) j => setBit m j (p j)) 0
  if r.fam.info.own == .evWord then by_ (fun j => let s := 32 * r.i + j
    !srcZero c.counts s && (c.ownsSrc t s || (isP0 t && !(c.owner 6 s).world)))
  else if c.isSecure t then 0xFFFFFFFF
  else if isP0 t then
    match r.fam.info.own with
    | .slotBits => by_ (fun j => match c.slotSrc (32 * r.i + j) with | some z => z.sub != 64 | none => true)
    | .vdeCtxBits => by_ (fun j => match c.vdeCon r.i j with | some z => z.sub != 64 | none => true)
    | _ => 0xFFFFFFFF
  else match r.fam.info.own with
    | .bridge => 0xFFFFFFFF
    | _ => c.ownBits t r

/-- The tag under which debug reads and writes a register (R127): the secure world's with its invasive enable; with the normal one the
manager's, or that of a partition whose descriptor sets dbg_inv; else none. -/
def Core.debugTag (c : Core) (r : Reg) : Option Owner :=
  let en := rg0 .POT_DBG_EN
  if c.secure && c.rdB en 3 then some { granted := true, world := true }
  else if !c.rdB en 1 then none
  else match c.regOwner r with
    | some o => if o.world then none
      else if o.part = 0 then some { granted := true }
      else if (kget ({} : PartRec) c.parts o.part).dbgInv then some { granted := true, part := o.part } else none
    | none => some { granted := true }

/-- The tag a requester's control-space access carries; none where debug may not act. -/
def Core.ctlTag (c : Core) (ag : Agent) (r : Reg) : Option Owner :=
  match ag with
  | .debug => c.debugTag r
  | _ => some (c.tag ag)

/-- A register in the requester's own window (R40, R188, R409). R108 gives the secure world every register; the chapters that define the
windows keep each requester, the secure world too, to its own: the model follows them (its choice, log entry 158). -/
def ownWindow (ag : Agent) (t : Owner) (r : Reg) : Bool :=
  match r.fam.info.own with
  | .window => winOf t = r.i
  | .pwrWin | .pwrHost =>
    match ag with
    | .seq n => r.fam.info.own == .pwrWin && n = r.i
    | .host f => (if r.fam.info.own == .pwrHost then r.i = f else r.i = 64 + f)
    | _ => false
  | _ => false

/-- The right to write a register with a value (R108 and the chapters' register sections). -/
def Core.mayWrite (c : Core) (ag : Agent) (t : Owner) (r : Reg) (v : W32) : Bool :=
  let owns : Bool := match c.regOwner r with | some o => sameOwner t o | none => c.sharesReg t r || isP0 t
  match r.fam.info.wr with
  | .none | .any => true
  | .secure => c.isSecure t ||
      (r.fam = .SYS_BOOT_CTRL && c.boot.recovery && (match ag with | .host f => f = 0 | _ => false))
  | .secureOrP0 | .p0 | .potEvt => c.isSecure t || isP0 t
  | .window => ownWindow ag t r || (r.fam = .ADM_PW_CMD && isP0 t && fld v 3 0 = 2)
  | .rind => c.isSecure t || sameOwner t (c.owner 1 r.i)
  | .owner =>
    if c.isSecure t then true
    else match r.fam with
      | .LAYER_CTRL | .LAYER_SRC | .LAYER_CROP_POS | .LAYER_CROP_SIZE | .LAYER_DST_POS | .LAYER_DST_SIZE | .LAYER_PITCH0 | .LAYER_PITCH1
      | .LAYER_PLANE1 | .LAYER_PLANE2 | .LAYER_BLEND | .LAYER_CSC | .LAYER_OPQ_POS | .LAYER_OPQ_SIZE => decide (r.j < 30) && owns
      | .RGL_EXP_CTRL => (match c.slotSrc (fld v 9 0) with | some z => sameOwner t (ownerOf z.sub) | none => isP0 t) &&
          (!c.rdB r 31 || owns)
      | .RGL_IMP_CFG => (match c.slotSrc (fld v 9 0) with | some z => sameOwner t (ownerOf z.sub) | none => isP0 t) &&
          (!c.rdB r 31 || owns)
      | .WIT_HOLD_CTL | .WIT_HOLD_FIRST_LO | .WIT_HOLD_FIRST_HI | .WIT_HOLD_LAST_LO | .WIT_HOLD_LAST_HI => c.holdAllowed t r.i
      | _ => owns

/-- The right to read a register: its owner, the secure world, and partition 0, but for the event sources and pins of the secure world
(R102, R108 and the chapters' register sections). -/
def Core.mayRead (c : Core) (ag : Agent) (t : Owner) (r : Reg) : Bool :=
  if r.fam.info.own == .window then ownWindow ag t r
  else if c.isSecure t then true
  else match r.fam.info.rd with
  | .any => true
  | .owner =>
    match c.regOwner r with
    | some o => sameOwner t o || (isP0 t && (!o.world || !(r.fam.info.own == .evSrc || r.fam.info.own == .evPin)))
    | none => isP0 t || c.sharesReg t r
  | .secureOrP0 => isP0 t
  | .window => ownWindow ag t r
  | .powerWindow => isP0 t || ownWindow ag t r

/-- Control-space base of the unit instance that a tick-window register belongs to (R38, R195, R209, R229, R326, R363, R444). -/
def Reg.unitBase (r : Reg) : Nat :=
  match r.fam.info.own with
  | .layer => 0x20600800 + r.i * 0x1000 + r.j * 0x40
  | .head => 0x20600000 + r.i * 0x1000
  | .vdeCtx => 0x20801000 + r.i * 0x2000 + r.j * 0x80
  | .mixOut => 0x20C08000 + r.i * 0x200
  | .haptic => 0x20E00000 + r.i * 0x400
  | _ => 0x21300000

/-- The sequencer whose live PROGRAM contract lists a unit as a tick-window target: ownership passes with the contract, at the commit
switch, whichever bank still runs (R38). -/
def Core.windowOwner (c : Core) (base : Nat) : Option Nat :=
  (c.adm.live.find? (fun x => x.kind = kPROGRAM && x.image.any (fun i => i.targets.contains base))).map Contract.unit

/-- A control-space write that R38 refuses: a tick-window register of a unit that another requester's live program owns. -/
def Core.ownedBar (c : Core) (ag : Agent) (r : Reg) : Bool :=
  r.fam.info.tw && (match c.windowOwner r.unitBase with
    | some n => !(match ag with | .seq m => m = n | _ => false)
    | none => false)

/-- The register's instance is present and its power domain on: else it reads zero and ignores writes (R5, R23, R398). -/
def Core.reachable (c : Core) (r : Reg) : Bool := regPresent c.counts r && c.domOn (regDomain r)

end Sys2Proof.Machine
end

