-- ==== Sys2Proof/Machine/CtlRead.lean ====
section
/-! DEFINITION. Reads of control space (R11, R23 to R25, R108, R109, R426): the value each register shows, the masks of what a requester
sees, the reads that act. -/

namespace Sys2Proof.Machine

open Sys2Proof

/-- A CRC parameter as it reads: its low W bits (R164). -/
def Core.crcParView (c : Core) (n : Nat) (l h : Fam) (hi : Bool) : W32 :=
  let v := c.crcPar n l h
  if hi then hi32 v else lo32 v

/-- The value a register holds for every requester. -/
def Core.value (c : Core) (r : Reg) : W32 :=
  let i := r.i
  match r.fam with
  | .SYS_SRC_STAMP => c.stampView i r.j
  | .ADM_STATUS | .ADM_LOAD_SEQ | .ADM_LOAD_LE | .ADM_LOAD_MEM_LO | .ADM_LOAD_MEM_HI | .ADM_LOAD_DEC | .ADM_LOAD_ENC | .ADM_PW_DRAFT =>
    c.admView r
  | .EVR_TSTAMP => c.tstamp
  | .EVR_SEQ_STAT => c.evrSeqStat i
  | .EVR_SRC_CFG =>
    let o := c.owner 6 i
    setFld (setBit (c.rd r) 25 o.world) 31 26 o.part
  | .POT_OWN => c.potOwn
  | .JNL_STATUS => c.jnlStatus
  | .DMC_PORT_CFG => c.portCfg i
  | .DMC_BG_STAT => c.bgStat
  | .DMC_CH_STATUS => c.chStatus i
  | .DMC_HEAD_TOL => c.headTolView i
  | .DMA_ENG_RUN => c.dmaEngRun i
  | .CRC_POLY_LO => c.crcParView i .CRC_POLY_LO .CRC_POLY_HI false
  | .CRC_POLY_HI => c.crcParView i .CRC_POLY_LO .CRC_POLY_HI true
  | .CRC_INIT_LO => c.crcParView i .CRC_INIT_LO .CRC_INIT_HI false
  | .CRC_INIT_HI => c.crcParView i .CRC_INIT_LO .CRC_INIT_HI true
  | .CRC_XOROUT_LO => c.crcParView i .CRC_XOROUT_LO .CRC_XOROUT_HI false
  | .CRC_XOROUT_HI => c.crcParView i .CRC_XOROUT_LO .CRC_XOROUT_HI true
  | .CRC_RESULT_LO => lo32 (c.crcResult i)
  | .CRC_RESULT_HI => hi32 (c.crcResult i)
  | .SEQ_STATUS => c.seqStatus i
  | .SEQ_IMAGE_ID => match (c.seq i).live with | some x => x.id | none => 0
  | .CAVE_FREE_GIB => w32 c.caveFreeGib
  | .AUD_OUT_STATUS => c.outStatus i
  | .TCH_BASE => c.baseView i r.j
  | .GPIO_IN =>
    let oe := c.rd (rg0 .GPIO_OE)
    (c.rd (rg0 .GPIO_OUT) &&& oe) ||| ((Config.freeWord c.free).setWidth 32 &&& ~~~oe)
  | .LE_STATUS =>
    let v := c.rd r
    if bit v 31 && fld v 1 0 = 0 && c.rdB (rg .LE_CTRL i) 0 && !c.grouped i then setFld v 1 0 3 else v
  | .DPT_SINKCRC_STAT => c.sinkStat i
  | .HPT_STATUS => if c.now < (c.hpt i).from_ then setFld (c.rd r) 29 28 0 else c.rd r
  | .HPT_SENSE => if c.hptOn i then (Config.freeWord c.free).setWidth 32 else 0
  | _ => c.rd r &&& ~~~(w32 r.fam.info.wo &&& ~~~(w32 r.fam.info.rw))

/-- What a requester is shown of a value (R74, R102, R453). -/
def Core.shown (c : Core) (t : Owner) (r : Reg) (v : W32) : W32 :=
  match r.fam with
  | .SEQ_EXC_PC => if !t.world && c.rdB (rg .SEQ_EXC r.i) 9 then 0 else v
  | .POT_EVT => if c.isSecure t then (if c.secure then v &&& 1 else v) else v &&& 8
  | _ => v &&& c.seenBits t r

/-- The key of a latched upper half: the requester and the register (R426). -/
def latchKey (ag : Agent) (r : Reg) : Nat := agKey ag * 4294967296 + r.addr

/-- A read that the requester may make: the value; the LO half of a pair latches HI, a HI half shows what was latched (R426);
AUD_METER clears with the read (R330); a read of a stamp is a read of the current record (R178). -/
def Core.readReg (c : Core) (ag : Agent) (t : Owner) (r : Reg) : Core × W32 :=
  let c := if r.fam = .GPIO_IN ∨ r.fam = .HPT_SENSE then c.tick else c
  let v := c.shown t r (c.value r)
  let c := if r.fam = .SYS_SRC_STAMP ∧ (c.slot r.i).cur.stamp ≠ [] then (c.recRead r.i (c.slot r.i).cur).1 else c
  match r.fam.info.pair with
  | .lo =>
    match regAt (r.addr + 4) with
    | some h => ({ c with loLatch := kset none c.loLatch (latchKey ag h) (some (c.shown t h (c.value h))) }, v)
    | none => (c, v)
  | .hi => (c, (kget none c.loLatch (latchKey ag r)).getD v)
  | .no => if r.fam = .AUD_METER then c.meterRead r.i else (c, v)

/-- A read of a control-space word: zero where there is no register, where it is not reachable, and where the requester may not read,
the last counted as a refusal unless the register is another's window (R5, R23, R40, R109). -/
def Core.ctlRead (c : Core) (ag : Agent) (a : Nat) : Core × W32 :=
  match regAt a with
  | none => (c, 0)
  | some r =>
    if !c.reachable r then (c, 0)
    else match c.ctlTag ag r with
      | none => (c, 0)
      | some t =>
        if c.mayRead ag t r then c.readReg ag t r
        else if r.fam.info.wr == .window || r.fam.info.own == .window then (c, 0)
        else (c.refuse ag false a 1, 0)

end Sys2Proof.Machine
end

