-- ==== Sys2Proof/Machine/CtlWrite.lean ====
section
/-! DEFINITION. Writes of control space (R11, R23 to R25, R38, R108, R109, R124, R125, R420, R422): the gate every write passes, and
what each register does with a value it takes. -/

namespace Sys2Proof.Machine

open Sys2Proof

/-- Outcomes from outside that a write may bring with it: room on an export's path, channels that fail to train, the table base of the
type 0x07 parameters, what the cave members answer; each open where the command does not say. -/
structure CtlEnv where
  room : Option Bool := none
  bad  : Option (List Nat) := none
  pot  : Option Nat := none
  ids  : Option (List MemberId) := none
  deriving DecidableEq, Repr

/-- The outcomes with the open ones drawn. -/
def Core.envRoom (c : Core) (e : CtlEnv) : Bool := e.room.getD (Config.wheelRoom c.free)
def Core.envBad (c : Core) (e : CtlEnv) : List Nat := e.bad.getD (Config.trainFails c.free)
def Core.envPot (c : Core) (e : CtlEnv) : Nat := e.pot.getD (Config.potParam c.free)
def Core.envIds (c : Core) (e : CtlEnv) : List MemberId := e.ids.getD (Config.memberIds c.free)

/-- The register is complement-paired (R124, R223). -/
def isRwp (r : Reg) : Bool := r.fam.info.rwp || (r.fam.info.own == .layer && decide (30 ≤ r.j) && r.fam.info.wr != .none)

/-- What a write leaves of a value whose bits `m` the writer may change: RW bits take the written ones, W1C bits clear on 1 (R11). A W1S bit
starts what its register says; the block has taken it by the next read, so it reads 0 (log entry 200). -/
def mergeWrite (info : RegInfo) (m old v : W32) : W32 :=
  let rw := w32 info.rw &&& m
  ((old &&& ~~~rw) ||| (v &&& rw)) &&& ~~~(v &&& w32 info.w1c &&& m)

/-- A register without behaviour of its own takes a value, in the writer's bits (R11, R102). -/
def Core.plainWrite (c : Core) (t : Owner) (r : Reg) (v : W32) : Core :=
  c.set r (mergeWrite r.fam.info (c.ownBits t r) (c.rd r) v)

/-- A register in which a mask of bits takes a value. -/
def Core.maskWrite (c : Core) (r : Reg) (m v : W32) : Core := c.set r (mergeWrite r.fam.info m (c.rd r) v)

/-! ### Registers with behaviour -/

/-- SYS_BOOT_CTRL: confirm, rollback_commit, recover, chip (R415, R417, R419). -/
def Core.bootCtrl (c : Core) (ag : Agent) (v : W32) (e : CtlEnv) : Core :=
  let c := if bit v 1 then c.confirm ag else c
  let c := if bit v 2 then c.rollbackCommit ag else c
  let bad := c.envBad e
  let pot := c.envPot e
  let c := if bit v 0 then c.tick.recover ag bad pot else c
  if bit v 3 then c.tick.chip ag bad pot else c

/-- PWR_PL: secure_req by the secure world, mgr_req by partition 0 (R400, R409). -/
def Core.pwrPl (c : Core) (t : Owner) (v : W32) : Core :=
  (c.maskWrite (rg0 .PWR_PL) (if c.isSecure t then 0x77 else 0x70) v).levelAsk

/-- PWR_THERM: the lock stays set until chip reset and makes trip read-only (R401, R409). -/
def Core.pwrTherm (c : Core) (v : W32) : Core :=
  let r := rg0 .PWR_THERM
  if c.rdB r 31 then c.maskWrite r 0xFFFF v else c.maskWrite r 0xFF00FFFF v

/-- POT_BASE_LO or POT_BASE_HI: the base that the write makes is 16 KiB aligned and its table lies inside the window; else it changes
nothing and is a fault (R115). HI is written first: with LO at 0 it names a base (log entry 162). -/
def Core.potBaseWrite (c : Core) (r : Reg) (v : W32) : Core :=
  let n := if r.fam = .POT_BASE_LO then v.toNat + c.rdN (rg0 .POT_BASE_HI) * 4294967296 else c.rdN (rg0 .POT_BASE_LO) + v.toNat * 4294967296
  if c.potBaseOk n then { c.wr r v with pot := { c.pot with cache := [], copies := c.pot.copies.filter (fun e => decide (e.1 < pairPage 0)) } }
  else c.fault r.addr v.toNat 0

/-- SEQ_SVC_CFG: only while the sequencer is idle (R57, SEQ_SVC_CFG). A size that moves the gate away from an entry that a drafted
image calls is refused (R76). -/
def Core.svcWrite (c : Core) (ag : Agent) (r : Reg) (v : W32) : Core :=
  if (c.seq r.i).mode = .idle then
    let d := c.maskWrite r 0xFFFFFFFF v
    if c.gateBreaks d r.i then c.gateRefuse r.i else d
  else c.discarded ag r.addr v

/-- VDE_CTX_RATE: a rate above the contract's is discarded (R42, R195). -/
def Core.vdeRate (c : Core) (ag : Agent) (r : Reg) (v : W32) : Core :=
  let above := match c.vdeCon r.i r.j with | some k => decide (k.n 6 < fld v 23 0) | none => false
  if above then c.discarded ag r.addr v else c.maskWrite r 0xFFFFFFFF v

/-- HOST_Q_CFG: the sizes stay while the queue is enabled; a vector outside the pool is ignored (R368, R372). -/
def Core.hqCfg (c : Core) (ag : Agent) (r : Reg) (v : W32) : Core :=
  if !c.vecIn r.i (fld v 30 20) then c.discarded ag r.addr v
  else
    let m : W32 := if c.rdB r 31 then 0xFFFFFF00 else 0xFFFFFFFF
    (c.maskWrite r m v).hqGo r.i r.j

/-- A GPIO register: the normal world does not change locked pins (R444). -/
def Core.gpioWrite (c : Core) (t : Owner) (r : Reg) (v : W32) : Core :=
  let lock := if c.isSecure t then 0 else c.rd (rg0 .GPIO_LOCK)
  if r.fam = .GPIO_CFG then (if bit lock r.i then c else c.maskWrite r 0xFFFFFFFF v) else c.maskWrite r (~~~lock) v

/-- A ring's index that software moves: the write index of a playback ring, the read index of a capture ring (R323). -/
def Core.ringIndex (c : Core) (r : Reg) (v : W32) : Core :=
  if c.rdB (rg .AUD_RING_CFG r.i) 30 = decide (r.fam = .AUD_RING_RPTR) then c.maskWrite r 0xFFFFFFFF v else c

/-- CSI_CTRL: a port disabled has no failed link any more (R182, R188). -/
def Core.csiCtrl (c : Core) (t : Owner) (p : Nat) (v : W32) : Core :=
  let c := c.plainWrite t (rg .CSI_CTRL p) v
  if c.rdB (rg .CSI_CTRL p) 0 then c else c.setLvl (912 + p) false

/-- WIT_HOLD_CTL: the hold set or released; every such write is journalled, a sequencer's too (R295). -/
def Core.holdWrite (c : Core) (ag : Agent) (t : Owner) (n : Nat) (v : W32) : Core :=
  let d := if bit v 31 then c.holdSet t n else c
  let d := if bit v 30 then d.holdRelease t n else d
  match ag with
  | .seq _ => if bit v 31 || bit v 30 then
      d.log jWrite 0 (d.origin ag) (w32 (rg .WIT_HOLD_CTL n).addr) v (Config.writeAux (w32 (rg .WIT_HOLD_CTL n).addr)) else d
  | _ => d

/-- CAVE_CTRL: a format begins with its bit (R310, R312). -/
def Core.caveCtrl (c : Core) (t : Owner) (v : W32) (e : CtlEnv) : Core :=
  let c := c.plainWrite t (rg0 .CAVE_CTRL) v
  if bit v 1 then let ids := c.envIds e; c.tick.caveFormat ids else c

/-- POT_DBG_EN: every change is journalled, a sequencer's too, whose writes otherwise are not (R127, R420). -/
def Core.dbgWrite (c : Core) (ag : Agent) (t : Owner) (r : Reg) (v : W32) : Core :=
  let d := c.plainWrite t r v
  match ag with
  | .seq _ => if d.rd r = c.rd r then d else d.log jWrite 0 (d.origin ag) (w32 r.addr) v (Config.writeAux (w32 r.addr))
  | _ => d

/-- Registers of the device-wide blocks: boot, ticks, admission, events, power, partitions. -/
def Core.deviceEffect (c : Core) (ag : Agent) (t : Owner) (r : Reg) (v : W32) (e : CtlEnv) : Core :=
  match r.fam with
  | .SYS_BOOT_CTRL => c.bootCtrl ag v e
  | .SYS_RST => c.sysRst ag (fld v 31 24) (fld v 10 0)
  | .SYS_SRC_PW_CMD => c.srcCmd r.i t v
  | .TKG_CTRL => c.tkgCtrl v
  | .ADM_PL_FLOOR => (c.setFloor t (fld v 2 0)).levelAsk
  | .ADM_PW_DESC_HI =>
    let c := c.plainWrite t r v
    c.submitAt t (c.rdPair (rg .ADM_PW_DESC_LO r.i) r % 281474976710656)
  | .ADM_PW_CMD => if fld v 3 0 = 1 then (c.sealDraft t).1 else if fld v 3 0 = 2 then c.discardDraft r.i else c
  | .EVR_MASK => c.evrMaskWrite t r.i v
  | .EVR_PEND => c.evrPendWrite t r.i v
  | .EVR_REARM => c.evrRearm t r.i v
  | .EVR_DONE => c.evrDone t r.i v
  | .EVR_PIN_CFG => (c.plainWrite t r v).relevel (992 + r.i)
  | .PWR_CFG => c.pwrCfg v
  | .PWR_PL => c.pwrPl t v
  | .PWR_THERM => c.pwrTherm v
  | .PWR_DOM_GO => if bit v 0 then (c.domRequest ag (64 + r.i)).1 else c
  | .POT_BASE_LO | .POT_BASE_HI => c.potBaseWrite r v
  | .POT_EDIT_STATUS => if bit v 0 then c.potEdit t else c
  | .POT_EDIT_ENTRY => if !c.secure && bit v 30 then c else c.plainWrite t r v
  | .POT_DBG_EN => c.dbgWrite ag t r v
  | .POT_EVT => c.maskWrite r (if c.isSecure t then (if c.secure then 1 else 9) else 8) v
  | .PART_CMD => c.partCmd ag (fld v 13 8) (fld v 3 0)
  | .HOST_Q_CFG => c.hqCfg ag r v
  | .HOST_Q_STATUS => (c.plainWrite t r v).hqGo r.i r.j
  | .HOST_SQ_BASE_LO | .HOST_SQ_BASE_HI | .HOST_CQ_BASE_LO | .HOST_CQ_BASE_HI =>
    if c.rdB (rg2 .HOST_Q_CFG r.i r.j) 31 then c else c.plainWrite t r v
  | .GPIO_OUT | .GPIO_OE | .GPIO_CFG => c.gpioWrite t r v
  | _ => c.plainWrite t r v

/-- Registers of the units: sequencers, DMA, check-value units, heads, video, witness and cave, audio, touch, haptics, wheel. -/
def Core.unitEffect (c : Core) (ag : Agent) (t : Owner) (r : Reg) (v : W32) (e : CtlEnv) : Core :=
  let i := r.i
  match r.fam with
  | .SEQ_SVC_CFG => c.svcWrite ag r v
  | .DMA_CH_CTRL => c.dmaCtrl ag i v
  | .CRC_CFG => c.crcCfg i v
  | .CRC_POLY_LO | .CRC_POLY_HI | .CRC_INIT_LO | .CRC_INIT_HI | .CRC_XOROUT_LO | .CRC_XOROUT_HI => c.crcParam i r v
  | .CRC_CTRL => c.crcCtrl i v
  | .CRC_DATA8 => c.crcFeed i 1 v
  | .CRC_DATA16 => c.crcFeed i 2 v
  | .CRC_DATA32 => c.crcFeed i 4 v
  | .CRC_RX_LO => c.crcCheck i v
  | .CRC_RX_HI => c.wr r v
  | .CRC_ALIVE_RX => c.wr r (v &&& 0xFFFF)
  | .CRC_REGION_POS | .CRC_REGION_SIZE | .CRC_REGION_HEAD => c.crcRegionWrite i r (v &&& w32 r.fam.info.rw)
  | .HD_CTRL => c.headCtrl i v
  | .HD_HSYNC | .HD_VSYNC => c.syncWrite ag r v
  | .HD_ADAPT_GO => c.adaptGo i v
  | .HD_RIND_EN => c.rindWrite i t v
  | .LAYER_CTRL | .LAYER_CROP_POS | .LAYER_CROP_SIZE | .LAYER_DST_POS | .LAYER_DST_SIZE | .LAYER_PITCH0 | .LAYER_PITCH1 | .LAYER_PLANE1
  | .LAYER_PLANE2 | .LAYER_BLEND | .LAYER_CSC | .LAYER_OPQ_POS | .LAYER_OPQ_SIZE => c.layerWrite ag r v
  | .DPT_CTRL => c.dptCtrl i v
  | .DPT_STREAM => (c.plainWrite t r v).streamCheck i
  | .DPT_AUX_CMD => c.auxCmd i v
  | .VDE_CTX_CTRL => if bit v 0 then c.vdeCancel i r.j else c
  | .VDE_CTX_WPTR => c.vdeWptr i r.j v
  | .VDE_CTX_RATE => c.vdeRate ag r v
  | .WIT_CTRL => c.witCtrl v
  | .WIT_HOLD_CTL => c.holdWrite ag t i v
  | .CAVE_CTRL => c.caveCtrl t v e
  | .CAVE_NS0_GIB | .CAVE_JNL_GIB => c.caveGib r v
  | .CAVE_MEMBER_CMD => c.memCmd (fld v 31 28) (fld v 4 0)
  | .CAVE_MEMBER_CFG => c.memCfg i v
  | .AUD_TDM_CFG => c.tdmCfg ag i v
  | .AUD_NS_CFG => c.nsCfg ag i r.j v
  | .AUD_IN_CFG => c.inCfg ag i v
  | .AUD_CHIME_GO => c.chimeGo i v
  | .AUD_RING_WPTR | .AUD_RING_RPTR => c.ringIndex r v
  | .TCH_CTRL => c.tchCtrl i v
  | .TCH_TSL_CMD => c.tslCmd i v
  | .TCH_TSL_DATA => if linked i then c.plainWrite t r v else c
  | .HPT_CTRL => c.hptCtrl i v
  | .HPT_GO => c.hptGo i v
  | .HPT_EFF => c.hptEffWrite ag r v
  | .RGL_PORT_CTRL => c.portCtrl i v
  | .CSI_CTRL => c.csiCtrl t i v
  | .NET_STREAM_LOSS => (c.plainWrite t r v).netClear i
  | .RGL_ID => if c.rglIdOk v then c.plainWrite t r v else c.discarded ag r.addr v
  | .RGL_EXP_CTRL => let room := c.envRoom e; c.tick.expCtrl i v room
  | _ => c.deviceEffect ag t r v e

/-! ### Complement pairs (R124) -/

/-- 16 fabric cycles in ps at the level in force. -/
def Core.pairPs (c : Core) : Nat := 16000000 / (plFreq c.level).2.1

def Core.setHeld (c : Core) (h : KMap (Option HeldWord)) : Core := { c with pot := { c.pot with held := h } }

/-- A held first word whose time has passed ends with a TIMEOUT fault. -/
def Core.pairLapse (c : Core) (a : Nat) : Core :=
  match kget none c.pot.held a with
  | some h => if h.at_ps + c.pairPs < c.now then (c.setHeld (kset none c.pot.held a none)).pairFault 2 a else c
  | none => c

/-- A word written to a paired register: the first is held; the second is accepted when it is the complement, from the same
requester, in time (R124, R125). -/
def Core.pairWord (c : Core) (ag : Agent) (t : Owner) (r : Reg) (v : W32) (e : CtlEnv) : Core :=
  let a := r.addr
  let c := c.pairLapse a
  match kget none c.pot.held a with
  | none => c.setHeld (kset none c.pot.held a (some { value := v, agent := agKey ag, at_ps := c.now }))
  | some h =>
    if h.agent ≠ agKey ag then c.pairFault 3 a
    else
      let c := c.setHeld (kset none c.pot.held a none)
      if v = ~~~h.value then
        (c.repair a).unitEffect ag t r v e
      else c.pairFault 1 a

/-! ### The gate -/

/-- The journal entry of a control-space write: from outside a tick program (R420). -/
def Core.logWrite (c : Core) (ag : Agent) (a status : Nat) (v : W32) : Core :=
  match ag with
  | .seq _ => c
  | _ => c.log jWrite status (c.origin ag) (w32 a) v (Config.writeAux (w32 a))

/-- A write of a control-space word (R23 to R25): refused while the journal takes no change of the writer (R422); ignored where no
register is; refused under R109 without the right, under R38 at a register another's program owns; journalled; then its effect. -/
def Core.ctlWrite (c : Core) (ag : Agent) (a : Nat) (v : W32) (e : CtlEnv) : Core :=
  match regAt a with
  | none => if (match ag with | .seq _ => true | _ => c.canLog (c.tag ag)) then c.logWrite ag a (Config.writeStatus 0) v else c
  | some r =>
    match c.ctlTag ag r with
    | none => c
    | some t =>
      let inTick := match ag with | .seq _ => true | _ => false
      if !inTick && !c.canLog t then (if r.fam = .PART_CMD && c.reachable r then c.partCmd ag (fld v 13 8) (fld v 3 0) else c)
      else if !c.reachable r then c.logWrite ag a (Config.writeStatus 0) v
      else if !c.mayWrite ag t r v then
        (if r.fam.info.wr == .window then c.logWrite ag a (Config.writeStatus 0) v else c.refuse ag true a 1)
      else if c.ownedBar ag r then c.logWrite ag a (Config.writeStatus 1) v
      else if isRwp r then (c.logWrite ag a 0 v).pairWord ag t r v e
      else (c.logWrite ag a 0 v).unitEffect ag t r v e

/-- A tick-window write as the apply phase performs it (R5, R35, R38, R42, R124): discarded with kind TICKWIN at a paired register,
silently where no register is, as a fault at a unit the image does not list, a register that takes none or a unit another program has come to own; refused without the
right. The
entry of a TICKWIN discard also says whether the image lists the unit. -/
def Core.twrApply (c : Core) (n a : Nat) (v : W32) : Core :=
  let ag : Agent := .seq n
  let t : Owner := { c.owner 3 n with granted := true }
  match regAt a with
  | none => c
  | some r =>
    let listed := match (c.seq n).live with | some x => x.targets.contains r.unitBase | none => false
    if !c.reachable r then c
    else if isRwp r then c.pairFaultBy 4 a (if listed then 0 else 1)
    else if !r.fam.info.tw || !listed || c.ownedBar ag r then c.discarded ag a v
    else if !c.mayWrite ag t r v then c.refuse ag true a 1
    else c.unitEffect ag t r v {}

/-- Tick-window writes in program order. -/
def Core.twrAll (c : Core) (n : Nat) : List TickWrite → Core
  | [] => c
  | p :: ps => (c.twrApply n p.addr p.value).twrAll n ps

end Sys2Proof.Machine
end

