-- ==== Sys2Proof/Machine/CtlCmds.lean ====
section
/-! DEFINITION. The commands that write or read a register: each is the write its rule names, through the gate of CtlWrite. -/

namespace Sys2Proof.Machine

open Sys2Proof

/-- A word of control space written by a requester; nothing in a device that sleeps. An access that is not of an aligned word of
control space is not performed (R24). -/
def Core.cmdWrite (c : Core) (ag : Agent) (a : Nat) (v : W32) (e : CtlEnv) : Core :=
  if c.awake && decide (0x20000000 ≤ a ∧ a < 0x22000000 ∧ a % 4 = 0) then c.ctlWrite ag a v e else c

/-- A register of a present number written. -/
def Core.cmdReg (c : Core) (ag : Agent) (r : Reg) (v : W32) : Core := c.cmdWrite ag r.addr v {}

/-- A pair written: the complement, then the value (R124). -/
def Core.cmdPair (c : Core) (ag : Agent) (a : Nat) (v : W32) : Core := (c.cmdWrite ag a (~~~v) {}).cmdWrite ag a v {}

/-- REGISTER_WRITE: a control-space write (R11, R23 to R25). -/
def execRegisterWrite (ag : Agent) (addr : Nat) (v : W32) (s : State) : Host.Outcome State Fault Refusal :=
  run s (fun c => c.cmdWrite ag addr v {})

/-- PAIRED_WRITE: the complement word and the value, one after the other (R124). -/
def execPairedWrite (ag : Agent) (addr : Nat) (v : W32) (s : State) : Host.Outcome State Fault Refusal :=
  run s (fun c => c.cmdPair ag addr v)

/-- PAIR_TIMEOUT: 16 fabric cycles pass with no second word (R124). -/
def execPairTimeout (addr : Nat) (s : State) : Host.Outcome State Fault Refusal :=
  run s (fun c => match kget none c.pot.held addr with
    | some h => if c.awake then (c.upTo (h.at_ps + c.pairPs + 1)).pairLapse addr else c
    | none => c)

/-! ### Ticks, admission, power floor -/

/-- TKG_SOURCE_SELECT: TKG_CTRL written (R29). -/
def execTkgSourceSelect (ag : Agent) (v : W32) (s : State) : Host.Outcome State Fault Refusal :=
  run s (fun c => c.cmdReg ag (rg0 .TKG_CTRL) v)

/-- The write of ADM_PW_DESC_HI in the requester's window, which submits the descriptor at the address (R39, R450). -/
def Core.cmdSubmit (c : Core) (ag : Agent) (hi : W32) : Core := c.cmdReg ag (rg .ADM_PW_DESC_HI (winOf (c.tag ag))) hi

/-- CONTRACT_ADD (R450, R451). -/
def execContractAdd (ag : Agent) (hi : W32) (s : State) : Host.Outcome State Fault Refusal := run s (fun c => c.cmdSubmit ag hi)
/-- CONTRACT_RELEASE (R45, R450). -/
def execContractRelease (ag : Agent) (hi : W32) (s : State) : Host.Outcome State Fault Refusal := run s (fun c => c.cmdSubmit ag hi)
/-- CONTRACT_REPLACE (R45, R450). -/
def execContractReplace (ag : Agent) (hi : W32) (s : State) : Host.Outcome State Fault Refusal := run s (fun c => c.cmdSubmit ag hi)

/-- PW_COMMIT: ADM_PW_CMD op 0x1 seals the draft (R48). -/
def execPwCommit (ag : Agent) (s : State) : Host.Outcome State Fault Refusal :=
  run s (fun c => c.cmdReg ag (rg .ADM_PW_CMD (winOf (c.tag ag))) 1)

/-- PW_DISCARD: ADM_PW_CMD op 0x2 of window `w` (R47, R53). -/
def execPwDiscard (ag : Agent) (w : Nat) (s : State) : Host.Outcome State Fault Refusal :=
  run s (fun c => c.cmdReg ag (rg .ADM_PW_CMD w) 2)

/-- PL_FLOOR_WRITE: ADM_PL_FLOOR as a pair (R46). -/
def execPlFloorWrite (ag : Agent) (floor : Nat) (s : State) : Host.Outcome State Fault Refusal :=
  run s (fun c => c.cmdPair ag (rg0 .ADM_PL_FLOOR).addr (w32 floor))

/-! ### Partitions, page owners -/

def Core.cmdPart (c : Core) (ag : Agent) (p op : Nat) : Core := c.cmdReg ag (rg0 .PART_CMD) (w32 (p % 64 * 256 + op))

/-- CREATE (R112). -/
def execCreate (ag : Agent) (p : Nat) (s : State) : Host.Outcome State Fault Refusal := run s (fun c => c.cmdPart ag p 1)
/-- DESTROY (R132). -/
def execDestroy (ag : Agent) (p : Nat) (s : State) : Host.Outcome State Fault Refusal := run s (fun c => c.cmdPart ag p 2)
/-- PARTITION_RESET (R128). -/
def execPartitionReset (ag : Agent) (p : Nat) (s : State) : Host.Outcome State Fault Refusal := run s (fun c => c.cmdPart ag p 3)
/-- RUN (R130). -/
def execRun (ag : Agent) (p : Nat) (s : State) : Host.Outcome State Fault Refusal := run s (fun c => c.cmdPart ag p 4)
/-- CLAIM (R122). -/
def execClaim (ag : Agent) (s : State) : Host.Outcome State Fault Refusal := run s (fun c => c.cmdPart ag 0 5)
/-- CLAIM_RELEASE (R122). -/
def execClaimRelease (ag : Agent) (s : State) : Host.Outcome State Fault Refusal := run s (fun c => c.cmdPart ag 0 6)

/-- POT_EDIT: POT_EDIT_STATUS.go (R119). -/
def execPotEdit (ag : Agent) (s : State) : Host.Outcome State Fault Refusal := run s (fun c => c.cmdReg ag (rg0 .POT_EDIT_STATUS) 1)

/-- FAULT_LATCH_CLEAR: 1 written to POT_FAULT_INFO.latched (R109). -/
def execFaultLatchClear (ag : Agent) (s : State) : Host.Outcome State Fault Refusal :=
  run s (fun c => c.cmdReg ag (rg0 .POT_FAULT_INFO) 0x80000000)

/-! ### Event Router -/

/-- EVR_DONE (R98). -/
def execEvrDone (ag : Agent) (w : Nat) (v : W32) (s : State) : Host.Outcome State Fault Refusal :=
  run s (fun c => if w < 32 then c.cmdReg ag (rg .EVR_DONE w) v else c)
/-- EVR_REARM (R101). -/
def execEvrRearm (ag : Agent) (w : Nat) (v : W32) (s : State) : Host.Outcome State Fault Refusal :=
  run s (fun c => if w < 32 then c.cmdReg ag (rg .EVR_REARM w) v else c)
/-- EVR_PEND_WRITE (R103). -/
def execEvrPendWrite (ag : Agent) (w : Nat) (v : W32) (s : State) : Host.Outcome State Fault Refusal :=
  run s (fun c => if w < 32 then c.cmdReg ag (rg .EVR_PEND w) v else c)

/-! ### DMA and check-value units -/

/-- DMA_START (R156). -/
def execDmaStart (ag : Agent) (ch : Nat) (s : State) : Host.Outcome State Fault Refusal :=
  run s (fun c => if ch < 128 then c.cmdReg ag (rg .DMA_CH_CTRL ch) 1 else c)
/-- DMA_STOP (R159). -/
def execDmaStop (ag : Agent) (ch : Nat) (s : State) : Host.Outcome State Fault Refusal :=
  run s (fun c => if ch < 128 then c.cmdReg ag (rg .DMA_CH_CTRL ch) 2 else c)

/-- CRC_CONFIG_WRITE: CRC_CFG (R165). -/
def execCrcConfigWrite (ag : Agent) (n : Nat) (v : W32) (s : State) : Host.Outcome State Fault Refusal :=
  run s (fun c => if n < 128 then c.cmdReg ag (rg .CRC_CFG n) v else c)
/-- CRC_RESTART (R165). -/
def execCrcRestart (ag : Agent) (n : Nat) (s : State) : Host.Outcome State Fault Refusal :=
  run s (fun c => if n < 128 then c.cmdReg ag (rg .CRC_CTRL n) 1 else c)
/-- CRC_ALIVE_RESET (R167). -/
def execCrcAliveReset (ag : Agent) (n : Nat) (s : State) : Host.Outcome State Fault Refusal :=
  run s (fun c => if n < 128 then c.cmdReg ag (rg .CRC_CTRL n) 2 else c)
/-- CRC_FEED: 1, 2 or 4 bytes through CRC_DATA8, CRC_DATA16 or CRC_DATA32 (R166). -/
def execCrcFeed (ag : Agent) (n width : Nat) (v : W32) (s : State) : Host.Outcome State Fault Refusal :=
  run s (fun c =>
    if 128 ≤ n then c
    else match width with
      | 1 => c.cmdReg ag (rg .CRC_DATA8 n) v
      | 2 => c.cmdReg ag (rg .CRC_DATA16 n) v
      | 4 => c.cmdReg ag (rg .CRC_DATA32 n) v
      | _ => c)
/-- CRC_CHECK: CRC_RX_LO (R167). -/
def execCrcCheck (ag : Agent) (n : Nat) (v : W32) (s : State) : Host.Outcome State Fault Refusal :=
  run s (fun c => if n < 128 then c.cmdReg ag (rg .CRC_RX_LO n) v else c)

/-! ### Publishes (R186) -/

def Core.cmdPublish (c : Core) (ag : Agent) (kind origin slot : Nat) : Core :=
  c.cmdReg ag (rg .SYS_SRC_PW_CMD (winOf (c.tag ag))) (w32 (kind * 1073741824 + origin % 1024 * 65536 + slot % 1024))

/-- PUBLISH_GUEST. -/
def execPublishGuest (ag : Agent) (slot : Nat) (s : State) : Host.Outcome State Fault Refusal := run s (fun c => c.cmdPublish ag 0 0 slot)
/-- PUBLISH_DERIVED. -/
def execPublishDerived (ag : Agent) (slot origin : Nat) (s : State) : Host.Outcome State Fault Refusal :=
  run s (fun c => c.cmdPublish ag 1 origin slot)
/-- PUBLISH_REPLAY. -/
def execPublishReplay (ag : Agent) (slot : Nat) (s : State) : Host.Outcome State Fault Refusal := run s (fun c => c.cmdPublish ag 2 0 slot)
/-- PUBLISH_SYNTHETIC. -/
def execPublishSynthetic (ag : Agent) (slot : Nat) (s : State) : Host.Outcome State Fault Refusal := run s (fun c => c.cmdPublish ag 3 0 slot)

/-! ### Video, layers, heads, links -/

/-- VDE_WPTR_WRITE (R192). -/
def execVdeWptrWrite (ag : Agent) (v x : Nat) (ptr : W32) (s : State) : Host.Outcome State Fault Refusal :=
  run s (fun c => if v < 8 ∧ x < 32 then c.cmdReg ag (rg2 .VDE_CTX_WPTR v x) ptr else c)
/-- VDE_CANCEL (R193). -/
def execVdeCancel (ag : Agent) (v x : Nat) (s : State) : Host.Outcome State Fault Refusal :=
  run s (fun c => if v < 8 ∧ x < 32 then c.cmdReg ag (rg2 .VDE_CTX_CTRL v x) 1 else c)

/-- LAYER_WRITE: the word at an offset of a layer block; of a protected block as a pair (R204, R209, R223). -/
def execLayerWrite (ag : Agent) (h slot off : Nat) (v : W32) (s : State) : Host.Outcome State Fault Refusal :=
  run s (fun c =>
    if 16 ≤ h ∨ 32 ≤ slot ∨ 64 ≤ off then c
    else
      let a := 0x20600800 + h * 0x1000 + slot * 0x40 + off
      if 30 ≤ slot then c.cmdPair ag a v else c.cmdWrite ag a v {})

/-- HEAD_ENABLE: HD_CTRL.en (R235). -/
def execHeadEnable (ag : Agent) (h : Nat) (en : Bool) (s : State) : Host.Outcome State Fault Refusal :=
  run s (fun c => if h < 16 then c.cmdReg ag (rg .HD_CTRL h) (if en then 1 else 0) else c)
/-- SYNC_WRITE: HD_HSYNC or HD_VSYNC (R233). -/
def execSyncWrite (ag : Agent) (h : Nat) (vert : Bool) (v : W32) (s : State) : Host.Outcome State Fault Refusal :=
  run s (fun c => if h < 16 then c.cmdReg ag (rg (if vert then .HD_VSYNC else .HD_HSYNC) h) v else c)
/-- ADAPT_GO: HD_ADAPT_GO by a control-space write (R234). -/
def execAdaptGo (ag : Agent) (h : Nat) (s : State) : Host.Outcome State Fault Refusal :=
  run s (fun c => if h < 16 then c.cmdReg ag (rg .HD_ADAPT_GO h) 1 else c)

/-- An AUX transaction of `len` bytes at an address (R250). -/
def Core.cmdAux (c : Core) (ag : Agent) (op t addr len : Nat) : Core :=
  if t < 8 ∧ 1 ≤ len ∧ len ≤ 16 then
    c.cmdReg ag (rg .DPT_AUX_CMD t) (w32 (op * 268435456 + (len - 1) * 16777216 + addr % 1048576)) else c

/-- AUX_NATIVE_WRITE. -/
def execAuxNativeWrite (ag : Agent) (t addr len : Nat) (s : State) : Host.Outcome State Fault Refusal := run s (fun c => c.cmdAux ag 8 t addr len)
/-- AUX_NATIVE_READ. -/
def execAuxNativeRead (ag : Agent) (t addr len : Nat) (s : State) : Host.Outcome State Fault Refusal := run s (fun c => c.cmdAux ag 9 t addr len)
/-- AUX_I2C_WRITE. -/
def execAuxI2cWrite (ag : Agent) (t addr len : Nat) (s : State) : Host.Outcome State Fault Refusal := run s (fun c => c.cmdAux ag 0 t addr len)
/-- AUX_I2C_READ. -/
def execAuxI2cRead (ag : Agent) (t addr len : Nat) (s : State) : Host.Outcome State Fault Refusal := run s (fun c => c.cmdAux ag 1 t addr len)

/-! ### Witness and cave -/

/-- HOLD_SET (R295). -/
def execHoldSet (ag : Agent) (n : Nat) (s : State) : Host.Outcome State Fault Refusal :=
  run s (fun c => if n < 1024 then c.cmdReg ag (rg .WIT_HOLD_CTL n) 0x80000000 else c)
/-- HOLD_RELEASE (R295). -/
def execHoldRelease (ag : Agent) (n : Nat) (s : State) : Host.Outcome State Fault Refusal :=
  run s (fun c => if n < 1024 then c.cmdReg ag (rg .WIT_HOLD_CTL n) 0x40000000 else c)

def Core.cmdMember (c : Core) (ag : Agent) (op m : Nat) : Core :=
  if m < 32 then c.cmdReg ag (rg0 .CAVE_MEMBER_CMD) (w32 (op * 268435456 + m)) else c

/-- REMOVE (R310). -/
def execRemove (ag : Agent) (m : Nat) (s : State) : Host.Outcome State Fault Refusal := run s (fun c => c.cmdMember ag 1 m)
/-- FORCE_REMOVE (R310). -/
def execForceRemove (ag : Agent) (m : Nat) (s : State) : Host.Outcome State Fault Refusal := run s (fun c => c.cmdMember ag 3 m)
/-- INSERT (R310). -/
def execInsert (ag : Agent) (m : Nat) (s : State) : Host.Outcome State Fault Refusal := run s (fun c => c.cmdMember ag 2 m)

/-- CAVE_FORMAT: CAVE_CTRL.format with the other fields as they stand, and what the configured members answer (R310, R312). -/
def execCaveFormat (ag : Agent) (ids : List MemberId) (s : State) : Host.Outcome State Fault Refusal :=
  run s (fun c => c.cmdWrite ag (rg0 .CAVE_CTRL).addr (setBit (c.rd (rg0 .CAVE_CTRL)) 1 true) { ids := some ids })

/-! ### Audio, touch, haptics, wheel -/

/-- TDM_CONFIG_WRITE (R320). -/
def execTdmConfigWrite (ag : Agent) (t : Nat) (v : W32) (s : State) : Host.Outcome State Fault Refusal :=
  run s (fun c => if t < 8 then c.cmdReg ag (rg .AUD_TDM_CFG t) v else c)
/-- NS_CONFIG_WRITE (R322). -/
def execNsConfigWrite (ag : Agent) (n k : Nat) (v : W32) (s : State) : Host.Outcome State Fault Refusal :=
  run s (fun c => if n < 4 ∧ k < 16 then c.cmdReg ag (rg2 .AUD_NS_CFG n k) v else c)
/-- IN_CONFIG_WRITE (R325). -/
def execInConfigWrite (ag : Agent) (i : Nat) (v : W32) (s : State) : Host.Outcome State Fault Refusal :=
  run s (fun c => if i < 128 then c.cmdReg ag (rg .AUD_IN_CFG i) v else c)
/-- CHIME_START (R328). -/
def execChimeStart (ag : Agent) (v : Nat) (s : State) : Host.Outcome State Fault Refusal :=
  run s (fun c => if v < 4 then c.cmdReg ag (rg .AUD_CHIME_GO v) 1 else c)
/-- CHIME_STOP (R328). -/
def execChimeStop (ag : Agent) (v : Nat) (s : State) : Host.Outcome State Fault Refusal :=
  run s (fun c => if v < 4 then c.cmdReg ag (rg .AUD_CHIME_GO v) 2 else c)

/-- A control-space read as a command; its data in the last completion. -/
def Core.cmdRead (c : Core) (ag : Agent) (a : Nat) : Core :=
  if c.awake && decide (0x20000000 ≤ a ∧ a < 0x22000000 ∧ a % 4 = 0) then
    let x := c.ctlRead ag a
    { x.1 with resp := { data := x.2.setWidth 64 } }
  else c

/-- METER_READ: a read of AUD_METER, which clears it (R330). -/
def execMeterRead (ag : Agent) (o : Nat) (s : State) : Host.Outcome State Fault Refusal :=
  run s (fun c => if o < 64 then c.cmdRead ag (rg .AUD_METER o).addr else c)

/-- LO_READ_LATCH: a read of the LO half of a pair (R426). -/
def execLoReadLatch (ag : Agent) (addr : Nat) (s : State) : Host.Outcome State Fault Refusal :=
  run s (fun c => match regAt addr with
    | some r => if r.fam.info.pair = .lo then c.cmdRead ag addr else c
    | none => c)

/-- TSL_WRITE (R336). -/
def execTslWrite (ag : Agent) (t bytes addr : Nat) (s : State) : Host.Outcome State Fault Refusal :=
  run s (fun c => if t < 8 ∧ 1 ≤ bytes ∧ bytes ≤ 4 then
    c.cmdReg ag (rg .TCH_TSL_CMD t) (w32 (0x80000000 + (bytes - 1) * 16777216 + addr % 65536)) else c)
/-- TSL_READ (R336). -/
def execTslRead (ag : Agent) (t bytes addr : Nat) (s : State) : Host.Outcome State Fault Refusal :=
  run s (fun c => if t < 8 ∧ 1 ≤ bytes ∧ bytes ≤ 4 then
    c.cmdReg ag (rg .TCH_TSL_CMD t) (w32 (0x90000000 + (bytes - 1) * 16777216 + addr % 65536)) else c)

/-- TCH_CTRL with its en bit as the engine stands and one more bit. -/
def Core.cmdTouch (c : Core) (ag : Agent) (t : Nat) (v : W32) : Core :=
  if t < 8 then c.cmdReg ag (rg .TCH_CTRL t) v else c
/-- TOUCH_START (R342). -/
def execTouchStart (ag : Agent) (t : Nat) (s : State) : Host.Outcome State Fault Refusal := run s (fun c => c.cmdTouch ag t 1)
/-- TOUCH_STOP (R342). -/
def execTouchStop (ag : Agent) (t : Nat) (s : State) : Host.Outcome State Fault Refusal := run s (fun c => c.cmdTouch ag t 0)
/-- REBASE (R343). -/
def execRebase (ag : Agent) (t : Nat) (s : State) : Host.Outcome State Fault Refusal :=
  run s (fun c => c.cmdTouch ag t (if c.rdB (rg .TCH_STATUS t) 29 then 3 else 2))
/-- TOUCH_SELFTEST (R345). -/
def execTouchSelftest (ag : Agent) (t : Nat) (s : State) : Host.Outcome State Fault Refusal :=
  run s (fun c => c.cmdTouch ag t (if c.rdB (rg .TCH_STATUS t) 29 then 5 else 4))

/-- HPT_GO by a control-space write (R355). -/
def execHptGo (ag : Agent) (ch : Nat) (v : W32) (s : State) : Host.Outcome State Fault Refusal :=
  run s (fun c => if ch < 8 then c.cmdReg ag (rg .HPT_GO ch) v else c)
/-- HAPTIC_SELFTEST: HPT_CTRL.selftest (R361). -/
def execHapticSelftest (ag : Agent) (ch : Nat) (s : State) : Host.Outcome State Fault Refusal :=
  run s (fun c => if ch < 8 then c.cmdReg ag (rg .HPT_CTRL ch) (c.rd (rg .HPT_CTRL ch) ||| 4) else c)
/-- HAPTIC_DISABLE: HPT_CTRL.en cleared (R359). -/
def execHapticDisable (ag : Agent) (ch : Nat) (s : State) : Host.Outcome State Fault Refusal :=
  run s (fun c => if ch < 8 then c.cmdReg ag (rg .HPT_CTRL ch) (c.rd (rg .HPT_CTRL ch) &&& ~~~1) else c)

/-- EXPORT_ENABLE: RGL_EXP_CTRL, and whether every further link of the path takes the reservation (R386, R388). -/
def execExportEnable (ag : Agent) (x : Nat) (v : W32) (room : Bool) (s : State) : Host.Outcome State Fault Refusal :=
  run s (fun c => if x < 16 then c.cmdWrite ag (rg .RGL_EXP_CTRL x).addr v { room := some room } else c)

/-! ### Sequencer accesses to control space (R69 to R71) -/

/-- LDC: d = the register at g_a + offset; zero where the program may not read (R69). -/
def execLdc (n p d a : Nat) (off : BitVec 13) (s : State) : Host.Outcome State Fault Refusal :=
  run s (fun c => c.instr n p 40 (fun c =>
    let addr := c.effAddr n a off
    if 0x20000000 ≤ addr ∧ addr < 0x22000000 ∧ addr % 4 = 0 then
      let x := c.ctlRead (.seq n) addr
      x.1.result n d (x.2.setWidth 64)
    else c.exception n 2))

/-- STC: d[31:0] to the register at g_a + offset (R69, R70). -/
def execStc (n p d a : Nat) (off : BitVec 13) (s : State) : Host.Outcome State Fault Refusal :=
  run s (fun c => c.instr n p 2 (fun c =>
    let addr := c.effAddr n a off
    if 0x20000000 ≤ addr ∧ addr < 0x22000000 ∧ addr % 4 = 0 then (c.ctlWrite (.seq n) addr ((c.g n d).setWidth 32) {}).advance n
    else c.exception n 2))

/-- TWR: d[31:0] for the register at g_a + offset into the tick-window buffer (R69, R70). -/
def execTwr (n p d a : Nat) (off : BitVec 13) (s : State) : Host.Outcome State Fault Refusal :=
  run s (fun c => c.instr n p 1 (fun c =>
    let addr := c.effAddr n a off
    if 0x20000000 ≤ addr ∧ addr < 0x22000000 ∧ addr % 4 = 0 then
      let q := c.seq n
      let t := c.st n
      ((c.setSeq n { q with tw := q.tw ++ [{ addr := addr, value := (c.g n d).setWidth 32 }] }).setSt n { t with twCount := t.twCount + 1 }).advance n
    else c.exception n 2))

/-- SIG #src: the software event source is raised (R71, R84). -/
def execSig (n p src : Nat) (s : State) : Host.Outcome State Fault Refusal :=
  run s (fun c => c.instr n p 2 (fun c => (if src < 64 then c.raise src else c).advance n))

/-- RENNET d: the draft of the program's world or partition sealed; d = the result of R49. -/
def execRennet (n p d : Nat) (s : State) : Host.Outcome State Fault Refusal :=
  run s (fun c => c.instr n p 40 (fun c =>
    let x := c.sealDraft (c.tag (.seq n))
    x.1.result n d x.2))

/-- DRAIN_COMPLETE: what the sequencer issued before its DRAIN has been accepted; the next word follows (R71, R162). -/
def execDrainComplete (n : Nat) (s : State) : Host.Outcome State Fault Refusal :=
  run s (fun c =>
    let t := c.st n
    if t.drain then (c.setSt n { t with drain := false }).advance n else c)

/-! ### Host accesses (R365, R366, R415) -/

/-- In recovery BAR0 reaches only the SYS block and Shared Store bank 0 is written through it as R415 says; VFs are disabled. -/
def Core.hostReaches (c : Core) (f a : Nat) : Bool := !c.boot.recovery || (f = 0 && decide (a < 0x20010000))

/-- The completion of a host read, and of a posted write. -/
def Core.hostRead (c : Core) (st : Nat) (v : W64) : Core := { c with resp := { status := st, data := v } }

/-- HOST_BAR_ACCESS: a read or write of `width` bytes at an offset of BAR0, BAR2 or BAR4 of a function. A BAR0 write of another width or
unaligned is dropped, its AER entry raising 963 (R366, R376; log entry 164). -/
def execHostBarAccess (f bar : Nat) (wr : Bool) (off width : Nat) (v : W64) (s : State) : Host.Outcome State Fault Refusal :=
  run s (fun c =>
    if !c.awake || 64 ≤ f || !c.rdB (rg0 .HOST_LINK) 31 || c.fnState f ≠ 0 then c
    else if bar = 0 then
      if 0x2000000 ≤ off then c
      else if width ≠ 4 ∨ off % 4 ≠ 0 then (if wr then c.hostEvt 3 else c.hostRead 1 0)
      else
        let a := 0x20000000 + off
        if !c.hostReaches f a then (if wr then c else c.hostRead 0 0)
        else if wr then c.ctlWrite (.host f) a (v.setWidth 32) {}
        else let x := c.ctlRead (.host f) a; x.1.hostRead 0 (x.2.setWidth 64)
    else if bar = 2 then
      if 0x10000 ≤ off ∨ off % 4 ≠ 0 ∨ (width ≠ 4 ∧ width ≠ 8) ∨ c.boot.recovery then (if wr then c else c.hostRead 0 0)
      else if wr then
        let c := c.pageWrite f off (v.setWidth 32)
        if width = 8 then c.pageWrite f (off + 4) (hi32 v.toNat) else c
      else c.hostRead 0 (w64 ((c.pageRead f off).toNat + (if width = 8 then (c.pageRead f (off + 4)).toNat * 4294967296 else 0)))
    else if bar = 4 ∧ f = 0 ∧ off < 0x1000000000 then
      let a := 0x1000000000 + off
      let t := c.tag (.host 0)
      if 8 < width ∨ width = 0 ∨ c.boot.recovery then c
      else if wr then
        match c.check t true true a width with
        | (.ok, _) => c.dramRequest 28 t true a width (leBytes width v.toNat)
        | r => c.noteCheck t 4 0 true r
      else
        match c.check t true false a width with
        | (.ok, _) => c.dramRequest 28 t false a width []
        | r => (c.noteCheck t 4 0 false r).hostRead 0 0
    else c)

end Sys2Proof.Machine
end

