-- ==== Sys2Proof/Machine/DmaMove.lean ====
section
/-! DEFINITION. The movement of DMA data (R155, R157 to R163): pieces of a line read and written under the channel's tag, the half point,
the end, a stop, an error. -/

namespace Sys2Proof.Machine

open Sys2Proof

/-- A piece of memory read: its bytes, or the error code of R163. -/
abbrev Piece := Core × List Byte × Nat

/-- A control-space word read by a channel: refused, error 2 (R109, R155). -/
def Core.dmaCtlRead (c : Core) (ch a n : Nat) : Piece :=
  let ag : Agent := .dma ch
  if a % 4 ≠ 0 ∨ n ≠ 4 then (c, [], 1)
  else
    let barred : Bool := match regAt a with
      | some r => c.reachable r && !c.mayRead ag (c.tag ag) r && r.fam.info.own != .window && r.fam.info.wr != .window
      | none => false
    let x := c.ctlRead ag a
    (x.1, leBytes 4 x.2.toNat, if barred then 2 else 0)

/-- A control-space word written by a channel, as a write from outside a tick program (R155). -/
def Core.dmaCtlWrite (c : Core) (ch a : Nat) (bs : List Byte) : Core × Nat :=
  let ag : Agent := .dma ch
  if a % 4 ≠ 0 ∨ bs.length ≠ 4 then (c, 1)
  else
    let v := w32 (leNat bs)
    let barred : Bool := match regAt a with
      | some r => c.reachable r && c.canLog (c.tag ag) && !c.mayWrite ag (c.tag ag) r v && r.fam.info.wr != .window
      | none => false
    (c.ctlWrite ag a v {}, if barred then 2 else 0)

/-- At most 64 bytes of one burst read by a channel, `k` bursts counted at its port. -/
def Core.dmaRead (c : Core) (ch k a n : Nat) : Piece :=
  match c.place a with
  | .control => c.dmaCtlRead ch a n
  | .host => if c.dmaHost ch then (c, c.bytes a n, 0) else (c, [], 5)
  | _ => c.unitReadBy (c.dmaClient ch) k a n

/-- Bytes of one burst written by a channel; writes to the boot ROM are ignored, an active program bank and a gate entry in use are
an address error (R19, R20, R76, R155). -/
def Core.dmaWrite (c : Core) (ch a : Nat) (bs : List Byte) : Core × Nat :=
  match c.place a with
  | .control => c.dmaCtlWrite ch a bs
  | .host => if c.dmaHost ch then (c.store a bs, 0) else (c, 5)
  | _ => c.deviceWrite (c.dmaClient ch) a bs

/-- The source bytes of a piece: the bursts they lie in one after the other, each counted when the line reaches it first (R142, R157). -/
def Core.dmaGather (c : Core) (ch a : Nat) (start : Bool) : Nat → Nat → Piece
  | _, 0 => (c, [], 0)
  | n, fuel + 1 =>
    if n = 0 then (c, [], 0)
    else
      let m := min n (64 - a % 64)
      match c.dmaRead ch (if start || a % 64 = 0 then 1 else 0) a m with
      | (c, bs, 0) =>
        let r := c.dmaGather ch (a + m) false (n - m) fuel
        (r.1, bs ++ r.2.1, r.2.2)
      | x => x

/-- Source and destination lines of a descriptor overlap: the result is not defined (R158). -/
def DmaDesc.overlaps (d : DmaDesc) : Bool :=
  (List.range d.lines).any (fun i => (List.range d.lines).any (fun j =>
    decide (d.src + i * d.srcStride < d.dst + j * d.dstStride + d.lineLen ∧ d.dst + j * d.dstStride < d.src + i * d.srcStride + d.lineLen)))

/-- Bytes of the piece that starts at byte `k`: to the end of the line and of the destination's burst; a word where either end is control
space. A piece leaves the engine whole (R158). -/
def DmaDesc.piece (d : DmaDesc) (k : Nat) : Nat :=
  let a := d.src + k / d.lineLen * d.srcStride + k % d.lineLen
  let b := d.dst + k / d.lineLen * d.dstStride + k % d.lineLen
  let ctl (x : Nat) : Bool := decide (0x20000000 ≤ x ∧ x < 0x22000000)
  min (d.lineLen - k % d.lineLen) (if ctl a || ctl b then 4 else 64 - b % 64)

/-- Whole pieces moved from `k` on, in order, until `goal` bytes have left or an error: the count reached and the error (R155, R158,
R163). -/
def Core.dmaMove (c : Core) (ch : Nat) (d : DmaDesc) (lap : Bool) (k goal : Nat) : Nat → Core × Nat × Nat
  | 0 => (c, k, 0)
  | fuel + 1 =>
    if goal ≤ k ∨ d.lineLen = 0 then (c, k, 0)
    else
      let n := d.piece k
      let a := d.src + k / d.lineLen * d.srcStride + k % d.lineLen
      let b := d.dst + k / d.lineLen * d.dstStride + k % d.lineLen
      match c.dmaGather ch a (k % d.lineLen = 0) n (n + 1) with
      | (c, bs, 0) =>
        let r : Core × List Byte := if lap then c.drawBytes n else (c, bs)
        match r.1.dmaWrite ch b r.2 with
        | (c, 0) => c.dmaMove ch d lap (k + n) goal fuel
        | (c, e) => (c, k, e)
      | (c, _, e) => (c, k, e)

/-- The channel's descriptor moved on to a byte count; an error waits for DMA_ERROR. -/
def Core.dmaTo (c : Core) (ch goal : Nat) : Core :=
  let x := c.dma ch
  let d := x.desc
  let r := c.dmaMove ch d d.overlaps x.done goal (goal - x.done)
  let c := r.1
  let c := c.setDma ch { c.dma ch with done := r.2.1 }
  let c := c.wr (rg .DMA_CH_REMAIN ch) (w32 (sat 0xFFFFFFFF (d.total - r.2.1)))
  if r.2.2 = 0 then c else c.dmaFail ch r.2.2

/-- A point's status bit: ovf when it is still set, else set when the descriptor asks for it; nothing in a channel that a partition reset
stops (R128, R160, R161). -/
def Core.dmaPoint (c : Core) (ch i : Nat) (on : Bool) : Core :=
  let st := rg .DMA_CH_STATUS ch
  if (c.dma ch).mute then c else if c.rdB st i then c.setB st 6 true else if on then c.setB st i true else c

/-- The half point: writes covering the first ceil(T ÷ 2) bytes have left (R160). -/
def Core.dmaHalf (c : Core) (ch : Nat) : Core :=
  let x := c.dma ch
  if x.halfHit then c
  else
    let half := ceilDiv x.desc.total 2
    let c := c.dmaTo ch half
    let x := c.dma ch
    if x.err ≠ 0 ∨ x.done < half then c
    else (c.setDma ch { x with halfHit := true }).dmaPoint ch 4 x.desc.halfEv

/-- The end: the last write has left; DMA_CH_DONE counts (R160). -/
def Core.dmaFinish (c : Core) (ch : Nat) : Core :=
  let x := c.dma ch
  let n := rg .DMA_CH_DONE ch
  (c.dmaPoint ch 5 x.desc.fullEv).wr n (w32 ((c.rdN n + 1) % 65536))

/-- A channel with a descriptor in execution and no error. -/
def Core.dmaLive (c : Core) (ch : Nat) : Bool := decide (ch < 128) && c.dmaState ch = 1 && (c.dma ch).err = 0 && c.awake

/-- DMA_HALF_POINT (R160, R161). -/
def execDmaHalfPoint (ch : Nat) (s : State) : Host.Outcome State Fault Refusal :=
  run s (fun c => if c.dmaLive ch then c.dmaHalf ch else c)

/-- DMA_END: the descriptor ends; the next of the chain is fetched, or the channel is IDLE (R158, R160, R161). -/
def execDmaEnd (ch : Nat) (s : State) : Host.Outcome State Fault Refusal :=
  run s (fun c =>
    if !c.dmaLive ch then c else
    let c := c.dmaHalf ch
    if (c.dma ch).err ≠ 0 then c else
    let c := c.dmaTo ch (c.dma ch).desc.total
    let x := c.dma ch
    if x.err ≠ 0 then c
    else
      let c := c.dmaFinish ch
      if x.desc.chain then c.dmaFetch ch x.desc.next else (c.setDma ch {}).setDmaState ch 0)

/-- Bytes that have moved when a stop or a host error takes effect between two points: open (log entry 32). -/
def Core.dmaSome (c : Core) (ch : Nat) : Core :=
  let x := c.dma ch
  let k := x.done + (Config.freeWord c.free).toNat % (x.desc.total - x.done + 1)
  let c := c.tick.dmaTo ch k
  let y := c.dma ch
  if y.err ≠ 0 ∨ y.done < ceilDiv y.desc.total 2 then c else c.dmaHalf ch

/-- DMA_STOPPED: a stopping channel has written what it had read: IDLE, stopped, its prefetch flushed; a descriptor whose last write
left is complete (R126, R159). -/
def execDmaStopped (ch : Nat) (s : State) : Host.Outcome State Fault Refusal :=
  run s (fun c =>
    if 128 ≤ ch || c.dmaState ch ≠ 2 || !c.awake then c else
    let c := if (c.dma ch).err = 0 then c.dmaSome ch else c
    let x := c.dma ch
    if x.err ≠ 0 then c else
    let c := if x.desc.total ≠ 0 ∧ x.done = x.desc.total then c.dmaFinish ch else c
    ((c.setDma ch {}).setDmaState ch 0).setB (rg .DMA_CH_STATUS ch) 8 true)

/-- DMA_ERROR: the error that a channel met, or error 5 (HOST) of one that moves to or from the host, is recorded: ERROR, full set,
DMA_CH_ERR counted, journalled (R163). -/
def execDmaError (ch code : Nat) (s : State) : Host.Outcome State Fault Refusal :=
  run s (fun c =>
    let st := c.dmaState ch
    if 128 ≤ ch || !(st = 1 || st = 2) || !c.awake then c else
    let x := c.dma ch
    let c := if x.err = 0 ∧ code = 5 ∧ (hostBase ≤ x.desc.src ∨ hostBase ≤ x.desc.dst) then
        let c := c.dmaSome ch
        let y := c.dma ch
        c.setDma ch { y with err := if y.err = 0 then 5 else y.err }
      else c
    let e := (c.dma ch).err
    if e = 0 then c
    else
      let r := rg .DMA_CH_STATUS ch
      let c := (c.setDma ch {}).setF r 19 16 e
      let c := ((c.setDmaState ch 3).setB r 5 true).addSat (rg .DMA_CH_ERR ch) 15 0 1
      c.faultFrom (c.origin (.dma ch)) (c.rd (rg .DMA_CH_CUR_LO ch)) (0x700 + e) (c.rdN (rg .DMA_CH_CUR_HI ch)))

end Sys2Proof.Machine
end

