-- ==== Sys2Proof/Machine/Tick.lean ====
section
/-! DEFINITION. The tick boundary (R33 to R37): the close of the tick windows, overruns, the apply phase, the commit switch and the
wake, for master boundaries and for those of the heads and audio domains (R30, R31, R51, R82, R130). -/

namespace Sys2Proof.Machine

open Sys2Proof

/-! ### Close, overruns, apply (R33, R35 to R37) -/

/-- The sequencers whose live program ticks in a domain. -/
def Core.domSeqs (c : Core) (dom : Nat) : List Nat :=
  (List.range 64).filter (fun n => (c.seq n).live.isSome && c.domOf n == dom)

/-- The tick window of a sequencer closes at a time in ps: a program short of WAITT is late, its writes discarded; so is one that has
reached it after that time, and one that debug has kept from running the tick (R33, R36, R127). An exception has left its tick late
already (R78). -/
def Core.closeSeq (c : Core) (n at_ : Nat) : Core :=
  let q := c.seq n
  let t := c.st n
  if t.closed then c else
  let runs : Bool := (q.mode == .running && !q.asleep) || (t.ran && decide (at_ < t.doneAt))
  let lost : Bool := q.dbg && q.mode != .halted && !runs && !t.ran
  let c := c.setSt n { t with closed := true, late := t.late || runs || lost }
  if runs || lost then c.setSeq n { q with tw := [] } else c

/-- 32 sequencer cycles before a boundary, in ps (R33). -/
def Core.closePs (c : Core) (b : Nat) : Nat := b - 32000000 / c.seqMHz

/-- The tick windows of a domain close ahead of its boundary at `b` ps. -/
def Core.closeDom (c : Core) (dom b : Nat) : Core := (c.domSeqs dom).foldl (fun c n => c.closeSeq n (c.closePs b)) c

/-- The event sources' record of one overrun: source 66, and whether it is a halt (R36, R37). -/
def Core.ovrEvent (c : Core) (n : Nat) (halt : Bool) : Core :=
  ((c.raise 66).wr (rg0 .TKG_OVR_HALT) (if halt then 1 else 0)).fault (0x20400000 + 1024 * n) (if halt then 2 else 1) n

/-- A sequencer's overrun at its boundary, and the halt after TKG_OVR_LIMIT in a row, not while debug holds it (R36, R37, R127);
a boundary without an overrun ends the row, also the one at which a late program has only reached its WAITT (the model's choice, log
entry 212). -/
def Core.overrunSeq (c : Core) (n : Nat) : Core :=
  let t := c.st n
  if !t.late then c.setSt n { t with overs := 0, prevBad := false } else
  let c := c.setSt n { t with overs := t.overs + 1, prevBad := true }
  let c := (c.setB (rg .TKG_OVR_STAT (n / 32)) (n % 32) true).addSat (rg .TKG_OVR_CNT n) 15 0 1
  let c := c.ovrEvent n false
  let limit := c.rdF (rg0 .TKG_OVR_LIMIT) 7 0
  if limit = 0 ∨ t.overs + 1 < limit ∨ (c.seq n).dbg then c
  else
    let q := c.seq n
    (c.setSeq n { q with mode := .halted, tw := [], loops := [], rets := [] }).ovrEvent n true

/-- The tick-window writes of a program that was in time, applied (R35). -/
def Core.applySeq (c : Core) (n : Nat) : Core :=
  let q := c.seq n
  if (c.st n).late then c else (c.setSeq n { q with tw := [] }).twrAll n q.tw

/-- A boundary of a domain at `b` ps up to the end of its apply phase, in ascending sequencer number (R34, R35). -/
def Core.boundary (c : Core) (dom b : Nat) : Core :=
  let c := c.closeDom dom b
  let l := c.domSeqs dom
  l.foldl Core.applySeq (l.foldl Core.overrunSeq c)

/-! ### Wake (R34, R58, R59, R73, R78, R130) -/

/-- The program is woken at this boundary: in force, its owner running, neither halted nor held by debug, its tick over. -/
def Core.wakes (c : Core) (n : Nat) : Bool :=
  let q := c.seq n
  c.ownerRuns n && !q.dbg && q.change.isNone && !q.deferred
    && (q.mode == .waiting || q.mode == .sleeping || (q.mode == .running && q.asleep))

/-- A sequencer at its domain's wake: its tick program starts at its entry in set 0, under the handlers that still run; one to be
restarted with its sets as in R59. One not woken only has its window
open again, unless a bank switch is still to come (R97). -/
def Core.wakeSeq (c : Core) (n : Nat) : Core :=
  let t := c.st n
  let q := c.seq n
  if !c.wakes n then
    let runs : Bool := q.mode == .running && !q.asleep
    c.setSt n { t with closed := q.change.isSome || q.deferred, late := t.late && runs, ran := runs && !q.dbg }
  else
    let entry := bankBase q.bank + (match q.live with | some i => 4 * i.entry | none => 0)
    let c :=
      if q.mode == .running then
        c.setSeq n { q with asleep := false, ctx := kset {} q.ctx 1 { kget {} q.ctx 1 with evpc := entry } }
      else if q.restart then
        let c := c.dropLevels n
        let q := c.seq n
        c.setSeq n { q with mode := .running, pc := entry, sets := c.freshSets n, save := {}, loops := [], rets := [], restart := false }
      else c.setSeq n { q with mode := .running, pc := entry }
    c.setSt n { t with tickCyc := 0, twCount := 0, epoch := c.rd (rg0 .ADM_EPOCH), first := t.first && !t.woken, woken := true, ran := true, late := false
                       closed := false, excWait := false, drain := false }

/-- The gates that open with a wake (R130): sources that target the domain's sequencers, and at the master wake those that target
the host or nothing. The levels behind them are sampled again (R85). -/
def Core.ungate (c : Core) (dom : Nat) : Core :=
  let opens (s : Nat) : Bool :=
    let o := c.owner 6 s
    let tgt := c.srcTarget s
    (o.world || c.partActive o.part) && (if tgt < 64 ∧ c.srcLive s ∧ (c.seq tgt).live.isSome then c.domOf tgt == dom else dom == 0)
  let open_ := (c.evr.gated.map Prod.fst).filter opens
  open_.foldl Core.relevel { c with evr := { c.evr with gated := c.evr.gated.filter (fun e => !opens e.1) } }

/-- The wake of a domain. -/
def Core.wakeDom (c : Core) (dom : Nat) : Core := ((c.domSeqs dom).foldl Core.wakeSeq c).ungate dom

/-- Time in ps of the next boundary of a domain that has one coming (R28, R30, R31). -/
def Core.nextTickPs (c : Core) (dom : Nat) : Option Nat :=
  if dom = 0 then (if c.tkg.inApply then none else some (c.psOf (c.boundaryNs (c.tickOf 0 + 1))))
  else if dom < 0x20 then
    let x := c.head (dom - 0x10)
    if x.tickDue then some x.tickPs
    else if c.scanning (dom - 0x10) then x.con.map (fun k => c.nextBlankPs k x) else none
  else
    let d := dom - 0x20
    let x := c.audDom d
    if !c.audOn d then none
    else some (c.sampleAt d (if x.tickDue then x.pos - 1 else ceilDiv x.pos 16 * 16))

/-- TICK_WINDOW_CLOSE: 32 sequencer cycles before the next boundary of a domain (R33). -/
def execTickWindowClose (dom : Nat) (s : State) : Host.Outcome State Fault Refusal :=
  run s (fun c =>
    if !c.awake then c
    else match c.nextTickPs dom with
      | some b => (c.upTo (c.closePs b)).closeDom dom b
      | none => c)

/-! ### The master boundary (R34, R35, R99, R101) -/

/-- The Event Router at the boundary strobe: every count 0, then the re-armed sources free of quarantine (R99, R101). -/
def Core.evrStrobe (c : Core) : Core :=
  let c := (List.range 1024).foldl (fun (c : Core) s => c.setF (rg .EVR_SRC_STAT s) 15 0 0) c
  let c := c.evr.rearm.foldl (fun (c : Core) e => c.setSrcBit .EVR_QUAR e.1 false) c
  { c with evr := { c.evr with rearm := [] } }

/-- The starter publishes the telltale's surface on slot 1023 (R413). -/
def Core.starterTick (c : Core) : Core :=
  if c.boot.starter then (c.publish 1023 c.boot.telltale 0 c.ns (if c.secure then 2 else 0) none).1 else c

/-- MASTER_BOUNDARY: the strobe at the next boundary, with the phase error measured there (R29), and the apply phase (R34 to R37). -/
def execMasterBoundary (phase : Int) (s : State) : Host.Outcome State Fault Refusal :=
  run s (fun c =>
    if !c.awake || c.tkg.inApply then c
    else
      let k := c.tickOf 0 + 1
      let b := c.psOf (c.boundaryNs k)
      let c := (c.upTo b).closeDom 0 b
      let c := c.wrPair (rg0 .TKG_TICK_LO) (rg0 .TKG_TICK_HI) k
      let c := c.setTkg { c.tkg with inApply := true, starts := kset 0 c.tkg.starts 0 (c.boundaryNs k) }
      let c := c.evrStrobe
      let c := c.setJnl { c.jnl with merge := [] }
      let c := c.pairCompare
      let c := ((c.tkgPhase phase).portTick).hqTick
      (c.boundary 0 b).starterTick)

/-! ### The commit switch (R34, R38, R50, R82, R129, R132, R400) -/

/-- Program changes that waited for a domain's boundary. -/
def Core.switchDom (c : Core) (dom : Nat) : Core :=
  (List.range 64).foldl (fun (c : Core) n => if (c.seq n).change = some dom then c.switchNow n else c) c

/-- Partitions with a property of their run record. -/
def Core.partsWith (c : Core) (f : PartRun → Option Nat) : List Nat :=
  (List.range 64).filter (fun p => match f (c.partRun p) with | some k => decide (k ≤ c.tickOf 0) | none => false)

/-- Sealed drafts and the releases of destroyed partitions go live in one epoch; the partitions' holdings return (R50, R132). The
starter ends with the first draft of the secure world, or on the N series of partition 0 (R414). -/
def Core.commitAll (c : Core) : Core × Bool :=
  let gone := c.partsWith PartRun.releaseAt
  let rel := (gone.filter (fun p => !(c.consOf p).isEmpty)).map (fun p => (p, ({ ops := (c.consOf p).map (fun x => .release x.id) } : Draft)))
  let ds := c.dueDrafts
  let c := if (ds ++ rel).isEmpty then c else c.goLive (ds ++ rel) (epochSucc (c.rd (rg0 .ADM_EPOCH)))
  let c := gone.foldl Core.partDismantle c
  let own := if c.secure then 64 else 0
  (if ds.any (fun d => d.1 = own) then { c with boot := { c.boot with starter := false } } else c, !(ds ++ rel).isEmpty)

/-- COMMIT_SWITCH: 2 µs after the strobe the level changes, drafts go live, banks switch, ownership passes, partition resets complete;
one fabric cycle later sources 64 and 65 and the wake of the master domain (R34). -/
def execCommitSwitch (s : State) : Host.Outcome State Fault Refusal :=
  run s (fun c =>
    if !c.awake || !c.tkg.inApply then c
    else
      let c := c.upTo (c.psOf c.strobeNs + 2000000)
      let c := (c.levelSwitch).switchDom 0
      let x := c.commitAll
      let c := x.1
      let c := (c.partsWith PartRun.resetAt).foldl Core.resetDone c
      let c := c.hqSwitch
      let c := c.upTo (c.now + c.fabricPs)
      let c := c.raise 64
      let c := if x.2 then c.raise 65 else c
      let c := c.wakeDom 0
      c.setTkg { c.tkg with inApply := false })

/-! ### Head and audio boundaries (R30, R31, R34, R51) -/

/-- A boundary of a head or audio domain at a time in ps, with its index: the sequence of R34 with an apply phase of 1 µs and no
commit switch; the wake one fabric cycle after it. -/
def Core.tickAt (c : Core) (dom at_ idx src : Nat) (mid : Core → Core) : Core :=
  let c := c.setTkg { c.tkg with ticks := kset 0 c.tkg.ticks dom idx, starts := kset 0 c.tkg.starts dom (c.ptpOf at_) }
  let c := (mid ((c.boundary dom at_).upTo (at_ + 1000000))).switchDom dom
  ((c.upTo (c.now + c.fabricPs)).raise src).wakeDom dom

/-- HEAD_TICK: the start of vertical blanking of the head (R30); its group's layer contracts and program banks change (R51). -/
def execHeadTick (h : Nat) (s : State) : Host.Outcome State Fault Refusal :=
  run s (fun c =>
    let x := c.head h
    if !c.awake || !x.tickDue then c
    else
      let c := (c.upTo x.tickPs).tickAt (0x10 + h) x.tickPs x.tickIdx (69 + h) (fun c => c.layersIn h)
      c.setHead h { c.head h with tickDue := false })

/-- AUDIO_TICK: the first sample of a period of 16 of the domain; samples not yet mixed up to it are mixed (R31). -/
def execAudioTick (d : Nat) (s : State) : Host.Outcome State Fault Refusal :=
  run s (fun c =>
    if !c.awake || !c.audOn d then c
    else
      let c := c.mixToTick d
      let x := c.audDom d
      if !x.tickDue then c
      else
        let at_ := c.sampleAt d (x.pos - 1)
        let c := (c.upTo at_).tickAt (0x20 + d) at_ ((x.pos - 1) / 16) (85 + d) (fun c => c)
        c.setAudDom d { c.audDom d with tickDue := false })

/-! ### Between commands -/

/-- An idle step, no command waiting: 625 ps pass, one period of EVR_TSTAMP (R27); the CRC units absorb what waits in their queues
(R166), a running POT edit rewrites one entry (R120), time frames that are due join their queues (R385), link frames whose turn has
come leave (R380). -/
def idle (s : State) : Host.Outcome State Fault Refusal :=
  run s (fun c =>
    let c := c.upTo (c.now + 625)
    if !c.awake then c else ((((c.crcs.foldl (fun (c : Core) e => c.crcDrain e.1) c).potStep).timeFrames).txDrain 0).txDrain 1)

end Sys2Proof.Machine
end

