-- ==== Sys2Proof/Machine/Flags.lean ====
section
/-! DEFINITION. The conditions of CMP and CMPI (R62): the one flag computation of the instruction set. -/

namespace Sys2Proof.Machine

open Sys2Proof

/-- `a cc b`, LT and GE signed, LTU and GEU unsigned (R62). -/
def condHolds : Cond → W64 → W64 → Bool
  | .eq, a, b => a == b
  | .ne, a, b => a != b
  | .lt, a, b => decide (a.toInt < b.toInt)
  | .ltu, a, b => decide (a.toNat < b.toNat)
  | .ge, a, b => decide (b.toInt ≤ a.toInt)
  | .geu, a, b => decide (b.toNat ≤ a.toNat)

end Sys2Proof.Machine
end

