-- ==== Sys2Proof/Machine/UsferAlu.lean ====
section
/-! DEFINITION. The register and immediate operations of the Usfer instruction set (R62, R63), with their costs (R64). -/

namespace Sys2Proof.Machine

open Sys2Proof

/-- A register operation d = f a b under predicate p (R62). -/
def aluOp (cost : Nat) (f : W64 → W64 → W64) (n p d a b : Nat) (s : State) : Host.Outcome State Fault Refusal :=
  run s (fun c => c.instr n p cost (fun c => c.result n d (f (c.g n a) (c.g n b))))

/-- A predicate operation p[d] = f p[a] p[b] under predicate p (R62). -/
def predOp (f : Bool → Bool → Bool) (n p d a b : Nat) (s : State) : Host.Outcome State Fault Refusal :=
  run s (fun c => c.instr n p 1 (fun c => (c.setPr n d (f (c.pr n a) (c.pr n b))).advance n))

/-- An immediate operation d = f a, never predicated (R61, R62). -/
def immOp (f : W64 → W64) (n d a : Nat) (s : State) : Host.Outcome State Fault Refusal :=
  run s (fun c => c.instr n 0 1 (fun c => c.result n d (f (c.g n a))))

/-- Shift amounts are the low 6 bits (R62). -/
def shAmt (b : W64) : Nat := b.toNat % 64

def rolW (a b : W64) : W64 := a.rotateLeft (shAmt b)

/-- Leading zeros of a number below 2^64, 64 for 0 (R62). -/
def clzFrom (v : Nat) : Nat → Nat
  | 0 => 0
  | k + 1 => if v / 2 ^ k % 2 = 1 then 0 else 1 + clzFrom v k

/-- Bits set. -/
def popFrom (v : Nat) : Nat → Nat
  | 0 => 0
  | k + 1 => v / 2 ^ k % 2 + popFrom v k

/-- Quotients and remainders of R63: by zero all ones and the dividend; −2^63 by −1 gives −2^63 and 0. -/
def divS (a b : W64) : W64 := if b = 0 then BitVec.allOnes 64 else BitVec.ofInt 64 (a.toInt.tdiv b.toInt)
def divU (a b : W64) : W64 := if b = 0 then BitVec.allOnes 64 else w64 (a.toNat / b.toNat)
def remS (a b : W64) : W64 := if b = 0 then a else BitVec.ofInt 64 (a.toInt.tmod b.toInt)
def remU (a b : W64) : W64 := if b = 0 then a else w64 (a.toNat % b.toNat)

/-- ADD: d = a + b (R62). -/
def execAdd (n p d a b : Nat) (s : State) : Host.Outcome State Fault Refusal :=
  aluOp 1 (fun a b => a + b) n p d a b s

/-- SUB: d = a − b (R62). -/
def execSub (n p d a b : Nat) (s : State) : Host.Outcome State Fault Refusal :=
  aluOp 1 (fun a b => a - b) n p d a b s

/-- AND (R62). -/
def execAnd (n p d a b : Nat) (s : State) : Host.Outcome State Fault Refusal :=
  aluOp 1 (fun a b => a &&& b) n p d a b s

/-- OR (R62). -/
def execOr (n p d a b : Nat) (s : State) : Host.Outcome State Fault Refusal :=
  aluOp 1 (fun a b => a ||| b) n p d a b s

/-- XOR (R62). -/
def execXor (n p d a b : Nat) (s : State) : Host.Outcome State Fault Refusal :=
  aluOp 1 (fun a b => a ^^^ b) n p d a b s

/-- ANDN: a AND NOT b (R62). -/
def execAndn (n p d a b : Nat) (s : State) : Host.Outcome State Fault Refusal :=
  aluOp 1 (fun a b => a &&& ~~~b) n p d a b s

/-- SHL by the low 6 bits of b (R62). -/
def execShl (n p d a b : Nat) (s : State) : Host.Outcome State Fault Refusal :=
  aluOp 1 (fun a b => a <<< shAmt b) n p d a b s

/-- SHR, logical (R62). -/
def execShr (n p d a b : Nat) (s : State) : Host.Outcome State Fault Refusal :=
  aluOp 1 (fun a b => a >>> shAmt b) n p d a b s

/-- SAR, arithmetic (R62). -/
def execSar (n p d a b : Nat) (s : State) : Host.Outcome State Fault Refusal :=
  aluOp 1 (fun a b => a.sshiftRight (shAmt b)) n p d a b s

/-- ROL: a rotated left by b (R62). -/
def execRol (n p d a b : Nat) (s : State) : Host.Outcome State Fault Refusal :=
  aluOp 1 (fun a b => rolW a b) n p d a b s

/-- MIN, signed (R62). -/
def execMin (n p d a b : Nat) (s : State) : Host.Outcome State Fault Refusal :=
  aluOp 1 (fun a b => if a.toInt ≤ b.toInt then a else b) n p d a b s

/-- MAX, signed (R62). -/
def execMax (n p d a b : Nat) (s : State) : Host.Outcome State Fault Refusal :=
  aluOp 1 (fun a b => if a.toInt ≤ b.toInt then b else a) n p d a b s

/-- MINU, unsigned (R62). -/
def execMinu (n p d a b : Nat) (s : State) : Host.Outcome State Fault Refusal :=
  aluOp 1 (fun a b => if a.toNat ≤ b.toNat then a else b) n p d a b s

/-- MAXU, unsigned (R62). -/
def execMaxu (n p d a b : Nat) (s : State) : Host.Outcome State Fault Refusal :=
  aluOp 1 (fun a b => if a.toNat ≤ b.toNat then b else a) n p d a b s

/-- CLZ: leading zeros of a, 64 when a is 0 (R62). -/
def execClz (n p d a : Nat) (s : State) : Host.Outcome State Fault Refusal :=
  aluOp 1 (fun a _ => w64 (clzFrom a.toNat 64)) n p d a 0 s

/-- POPC: bits set in a (R62). -/
def execPopc (n p d a : Nat) (s : State) : Host.Outcome State Fault Refusal :=
  aluOp 1 (fun a _ => w64 (popFrom a.toNat 64)) n p d a 0 s

/-- CMP.cc: p[d] = (a cc b) (R62). -/
def execCmp (n p : Nat) (cc : Cond) (d a b : Nat) (s : State) : Host.Outcome State Fault Refusal :=
  run s (fun c => c.instr n p 1 (fun c => (c.setPr n d (condHolds cc (c.g n a) (c.g n b))).advance n))

/-- PAND: p[d] = p[a] op p[b] (R62). -/
def execPand (n p d a b : Nat) (s : State) : Host.Outcome State Fault Refusal :=
  predOp (fun x y => x && y) n p d a b s

/-- POR: p[d] = p[a] op p[b] (R62). -/
def execPor (n p d a b : Nat) (s : State) : Host.Outcome State Fault Refusal :=
  predOp (fun x y => x || y) n p d a b s

/-- PXOR: p[d] = p[a] op p[b] (R62). -/
def execPxor (n p d a b : Nat) (s : State) : Host.Outcome State Fault Refusal :=
  predOp (fun x y => x != y) n p d a b s

/-- PANDN: p[d] = p[a] op p[b] (R62). -/
def execPandn (n p d a b : Nat) (s : State) : Host.Outcome State Fault Refusal :=
  predOp (fun x y => x && !y) n p d a b s

/-- MUL: low 64 bits of the product (R62). -/
def execMul (n p d a b : Nat) (s : State) : Host.Outcome State Fault Refusal :=
  aluOp 3 (fun a b => a * b) n p d a b s

/-- MULH: high 64 bits of the signed product (R62). -/
def execMulh (n p d a b : Nat) (s : State) : Host.Outcome State Fault Refusal :=
  aluOp 3 (fun a b => BitVec.ofInt 64 (a.toInt * b.toInt / 18446744073709551616)) n p d a b s

/-- MULHU: high 64 bits of the unsigned product (R62). -/
def execMulhu (n p d a b : Nat) (s : State) : Host.Outcome State Fault Refusal :=
  aluOp 3 (fun a b => w64 (a.toNat * b.toNat / 18446744073709551616)) n p d a b s

/-- DIV: signed quotient toward zero (R62, R63). -/
def execDiv (n p d a b : Nat) (s : State) : Host.Outcome State Fault Refusal :=
  aluOp 18 (fun a b => divS a b) n p d a b s

/-- DIVU (R62, R63). -/
def execDivu (n p d a b : Nat) (s : State) : Host.Outcome State Fault Refusal :=
  aluOp 18 (fun a b => divU a b) n p d a b s

/-- REM (R62, R63). -/
def execRem (n p d a b : Nat) (s : State) : Host.Outcome State Fault Refusal :=
  aluOp 18 (fun a b => remS a b) n p d a b s

/-- REMU (R62, R63). -/
def execRemu (n p d a b : Nat) (s : State) : Host.Outcome State Fault Refusal :=
  aluOp 18 (fun a b => remU a b) n p d a b s

/-- MFS: d = special register b (R56, R62). -/
def execMfs (n p d b : Nat) (s : State) : Host.Outcome State Fault Refusal :=
  run s (fun c => c.instr n p 1 (fun c => c.result n d (c.special n b)))

/-- MTS: special register b = a; EVPC and EVPS are written in handlers, and nothing else is (R56, R62; log entry 8). -/
def execMts (n p b a : Nat) (s : State) : Host.Outcome State Fault Refusal :=
  run s (fun c => c.instr n p 1 (fun c =>
    let q := c.seq n
    let v := (c.g n a).toNat
    let x := kget {} q.ctx q.level
    let x := if b = 6 then { x with evpc := v } else if b = 7 then { x with evps := v % 1024 } else x
    (if q.level = 0 then c else c.setSeq n { q with ctx := kset {} q.ctx q.level x }).advance n))

/-- ADDI: d = a + sign-extended immediate (R62). -/
def execAddi (n d a : Nat) (imm : BitVec 16) (s : State) : Host.Outcome State Fault Refusal :=
  immOp (fun x => x + immS imm) n d a s

/-- ANDI, zero-extended immediate (R62). -/
def execAndi (n d a : Nat) (imm : BitVec 16) (s : State) : Host.Outcome State Fault Refusal :=
  immOp (fun x => x &&& immZ imm) n d a s

/-- ORI, zero-extended immediate (R62). -/
def execOri (n d a : Nat) (imm : BitVec 16) (s : State) : Host.Outcome State Fault Refusal :=
  immOp (fun x => x ||| immZ imm) n d a s

/-- XORI, zero-extended immediate (R62). -/
def execXori (n d a : Nat) (imm : BitVec 16) (s : State) : Host.Outcome State Fault Refusal :=
  immOp (fun x => x ^^^ immZ imm) n d a s

/-- SHLI: shift by imm16[5:0] (R62). -/
def execShli (n d a sh : Nat) (s : State) : Host.Outcome State Fault Refusal :=
  immOp (fun x => x <<< (sh % 64)) n d a s

/-- SHRI: shift by imm16[5:0] (R62). -/
def execShri (n d a sh : Nat) (s : State) : Host.Outcome State Fault Refusal :=
  immOp (fun x => x >>> (sh % 64)) n d a s

/-- SARI: shift by imm16[5:0] (R62). -/
def execSari (n d a sh : Nat) (s : State) : Host.Outcome State Fault Refusal :=
  immOp (fun x => x.sshiftRight (sh % 64)) n d a s

/-- `v` with its `k`-th 16-bit quarter replaced (SETH, R62). -/
def setQuarter (v : W64) (k : Nat) (imm : BitVec 16) : W64 :=
  let m : W64 := 0xFFFF <<< (16 * (k % 4))
  (v &&& ~~~m) ||| (immZ imm <<< (16 * (k % 4)))

/-- SETH: quarter k of d = imm16, the other bits of d unchanged (R62). -/
def execSeth (n d k : Nat) (imm : BitVec 16) (s : State) : Host.Outcome State Fault Refusal :=
  immOp (fun x => setQuarter x k imm) n d d s

/-- CMPI.cc: p[d] = (a cc sign-extended immediate) (R62). -/
def execCmpi (n : Nat) (cc : Cond) (d a : Nat) (imm : BitVec 16) (s : State) : Host.Outcome State Fault Refusal :=
  run s (fun c => c.instr n 0 1 (fun c => (c.setPr n d (condHolds cc (c.g n a) (immS imm))).advance n))

end Sys2Proof.Machine
end

