-- ==== Sys2Proof/Machine/UsferMem.lean ====
section
/-! DEFINITION. Loads and stores of local memory (R57, R62), with their costs (R64). -/

namespace Sys2Proof.Machine

open Sys2Proof

/-- A load of `w` bytes under predicate p, `ext` making the 64-bit result (R62). -/
def loadOp (w : Nat) (ext : Nat → W64) (n p d a : Nat) (off : BitVec 13) (s : State) : Host.Outcome State Fault Refusal :=
  run s (fun c => c.instr n p 2 (fun c =>
    c.localLoad n (c.effAddr n a off) w (fun c v => c.result n d (ext v))))

/-- A store of the low `w` bytes of g_d under predicate p (R62). One that would break an entry of the gate that an image calls is refused
with no effect (R76). -/
def storeOp (w : Nat) (n p d a : Nat) (off : BitVec 13) (s : State) : Host.Outcome State Fault Refusal :=
  run s (fun c => c.instr n p 1 (fun c =>
    let at_ := c.effAddr n a off
    if c.localOk n true at_ w && c.gateHit n at_ (leBytes w (c.g n d).toNat) then (c.gateRefuse n).advance n
    else c.localStore n at_ w (c.g n d)))

/-- Sign extension from `w` bits. -/
def sext (w v : Nat) : W64 := (BitVec.ofNat w v).signExtend 64

/-- LD (R57, R62). -/
def execLd (n p d a : Nat) (off : BitVec 13) (s : State) : Host.Outcome State Fault Refusal :=
  loadOp 8 w64 n p d a off s

/-- LW (R57, R62). -/
def execLw (n p d a : Nat) (off : BitVec 13) (s : State) : Host.Outcome State Fault Refusal :=
  loadOp 4 w64 n p d a off s

/-- LWS (R57, R62). -/
def execLws (n p d a : Nat) (off : BitVec 13) (s : State) : Host.Outcome State Fault Refusal :=
  loadOp 4 (sext 32) n p d a off s

/-- LH (R57, R62). -/
def execLh (n p d a : Nat) (off : BitVec 13) (s : State) : Host.Outcome State Fault Refusal :=
  loadOp 2 w64 n p d a off s

/-- LHS (R57, R62). -/
def execLhs (n p d a : Nat) (off : BitVec 13) (s : State) : Host.Outcome State Fault Refusal :=
  loadOp 2 (sext 16) n p d a off s

/-- LB (R57, R62). -/
def execLb (n p d a : Nat) (off : BitVec 13) (s : State) : Host.Outcome State Fault Refusal :=
  loadOp 1 w64 n p d a off s

/-- LBS (R57, R62). -/
def execLbs (n p d a : Nat) (off : BitVec 13) (s : State) : Host.Outcome State Fault Refusal :=
  loadOp 1 (sext 8) n p d a off s

/-- ST (R57, R62). -/
def execSt (n p d a : Nat) (off : BitVec 13) (s : State) : Host.Outcome State Fault Refusal :=
  storeOp 8 n p d a off s

/-- STW (R57, R62). -/
def execStw (n p d a : Nat) (off : BitVec 13) (s : State) : Host.Outcome State Fault Refusal :=
  storeOp 4 n p d a off s

/-- STH (R57, R62). -/
def execSth (n p d a : Nat) (off : BitVec 13) (s : State) : Host.Outcome State Fault Refusal :=
  storeOp 2 n p d a off s

/-- STB (R57, R62). -/
def execStb (n p d a : Nat) (off : BitVec 13) (s : State) : Host.Outcome State Fault Refusal :=
  storeOp 1 n p d a off s

end Sys2Proof.Machine
end

