-- ==== Sys2Proof/Machine/Dispatch.lean ====
section
/-! DEFINITION. The dispatch of a command to its meaning, one arm per constructor. -/

namespace Sys2Proof.Machine

open Sys2Proof

def exec (i : Instr) (s : State) : Host.Outcome State Fault Refusal :=
  match i with
  | .registerWrite ag addr v => Sys2Proof.Machine.execRegisterWrite ag addr v s
  | .hostBarAccess f bar wr off width v => Sys2Proof.Machine.execHostBarAccess f bar wr off width v s
  | .pairedWrite ag addr v => Sys2Proof.Machine.execPairedWrite ag addr v s
  | .pairTimeout addr => Sys2Proof.Machine.execPairTimeout addr s
  | .masterBoundary phase => Sys2Proof.Machine.execMasterBoundary phase s
  | .tickWindowClose dom => Sys2Proof.Machine.execTickWindowClose dom s
  | .commitSwitch => Sys2Proof.Machine.execCommitSwitch s
  | .headTick h => Sys2Proof.Machine.execHeadTick h s
  | .audioTick d => Sys2Proof.Machine.execAudioTick d s
  | .tkgSourceSelect ag v => Sys2Proof.Machine.execTkgSourceSelect ag v s
  | .timeInfo src => Sys2Proof.Machine.execTimeInfo src s
  | .sourceLossTimeout => Sys2Proof.Machine.execSourceLossTimeout s
  | .phaseStep step => Sys2Proof.Machine.execPhaseStep step s
  | .contractAdd ag hi => Sys2Proof.Machine.execContractAdd ag hi s
  | .contractRelease ag hi => Sys2Proof.Machine.execContractRelease ag hi s
  | .contractReplace ag hi => Sys2Proof.Machine.execContractReplace ag hi s
  | .pwCommit ag => Sys2Proof.Machine.execPwCommit ag s
  | .pwDiscard ag w => Sys2Proof.Machine.execPwDiscard ag w s
  | .plFloorWrite ag floor => Sys2Proof.Machine.execPlFloorWrite ag floor s
  | .add n p d a b => Sys2Proof.Machine.execAdd n p d a b s
  | .sub n p d a b => Sys2Proof.Machine.execSub n p d a b s
  | .andR n p d a b => Sys2Proof.Machine.execAnd n p d a b s
  | .orR n p d a b => Sys2Proof.Machine.execOr n p d a b s
  | .xorR n p d a b => Sys2Proof.Machine.execXor n p d a b s
  | .andn n p d a b => Sys2Proof.Machine.execAndn n p d a b s
  | .shl n p d a b => Sys2Proof.Machine.execShl n p d a b s
  | .shr n p d a b => Sys2Proof.Machine.execShr n p d a b s
  | .sar n p d a b => Sys2Proof.Machine.execSar n p d a b s
  | .rol n p d a b => Sys2Proof.Machine.execRol n p d a b s
  | .min n p d a b => Sys2Proof.Machine.execMin n p d a b s
  | .max n p d a b => Sys2Proof.Machine.execMax n p d a b s
  | .minu n p d a b => Sys2Proof.Machine.execMinu n p d a b s
  | .maxu n p d a b => Sys2Proof.Machine.execMaxu n p d a b s
  | .clz n p d a => Sys2Proof.Machine.execClz n p d a s
  | .popc n p d a => Sys2Proof.Machine.execPopc n p d a s
  | .cmp n p cc d a b => Sys2Proof.Machine.execCmp n p cc d a b s
  | .pand n p d a b => Sys2Proof.Machine.execPand n p d a b s
  | .por n p d a b => Sys2Proof.Machine.execPor n p d a b s
  | .pxor n p d a b => Sys2Proof.Machine.execPxor n p d a b s
  | .pandn n p d a b => Sys2Proof.Machine.execPandn n p d a b s
  | .mul n p d a b => Sys2Proof.Machine.execMul n p d a b s
  | .mulh n p d a b => Sys2Proof.Machine.execMulh n p d a b s
  | .mulhu n p d a b => Sys2Proof.Machine.execMulhu n p d a b s
  | .div n p d a b => Sys2Proof.Machine.execDiv n p d a b s
  | .divu n p d a b => Sys2Proof.Machine.execDivu n p d a b s
  | .rem n p d a b => Sys2Proof.Machine.execRem n p d a b s
  | .remu n p d a b => Sys2Proof.Machine.execRemu n p d a b s
  | .mfs n p d b => Sys2Proof.Machine.execMfs n p d b s
  | .mts n p b a => Sys2Proof.Machine.execMts n p b a s
  | .addi n d a imm => Sys2Proof.Machine.execAddi n d a imm s
  | .andi n d a imm => Sys2Proof.Machine.execAndi n d a imm s
  | .ori n d a imm => Sys2Proof.Machine.execOri n d a imm s
  | .xori n d a imm => Sys2Proof.Machine.execXori n d a imm s
  | .shli n d a sh => Sys2Proof.Machine.execShli n d a sh s
  | .shri n d a sh => Sys2Proof.Machine.execShri n d a sh s
  | .sari n d a sh => Sys2Proof.Machine.execSari n d a sh s
  | .seth n d k imm => Sys2Proof.Machine.execSeth n d k imm s
  | .cmpi n cc d a imm => Sys2Proof.Machine.execCmpi n cc d a imm s
  | .ld n p d a off => Sys2Proof.Machine.execLd n p d a off s
  | .lw n p d a off => Sys2Proof.Machine.execLw n p d a off s
  | .lws n p d a off => Sys2Proof.Machine.execLws n p d a off s
  | .lh n p d a off => Sys2Proof.Machine.execLh n p d a off s
  | .lhs n p d a off => Sys2Proof.Machine.execLhs n p d a off s
  | .lb n p d a off => Sys2Proof.Machine.execLb n p d a off s
  | .lbs n p d a off => Sys2Proof.Machine.execLbs n p d a off s
  | .st n p d a off => Sys2Proof.Machine.execSt n p d a off s
  | .stw n p d a off => Sys2Proof.Machine.execStw n p d a off s
  | .sth n p d a off => Sys2Proof.Machine.execSth n p d a off s
  | .stb n p d a off => Sys2Proof.Machine.execStb n p d a off s
  | .ldc n p d a off => Sys2Proof.Machine.execLdc n p d a off s
  | .stc n p d a off => Sys2Proof.Machine.execStc n p d a off s
  | .twr n p d a off => Sys2Proof.Machine.execTwr n p d a off s
  | .sig n p src => Sys2Proof.Machine.execSig n p src s
  | .br n p off => Sys2Proof.Machine.execBr n p off s
  | .brn n p off => Sys2Proof.Machine.execBrn n p off s
  | .call n p off => Sys2Proof.Machine.execCall n p off s
  | .ret n p => Sys2Proof.Machine.execRet n p s
  | .loop n gc len m => Sys2Proof.Machine.execLoop n gc len m s
  | .jtab n a cnt => Sys2Proof.Machine.execJtab n a cnt s
  | .waitt n p => Sys2Proof.Machine.execWaitt n p s
  | .waits n p d => Sys2Proof.Machine.execWaits n p d s
  | .rennet n p d => Sys2Proof.Machine.execRennet n p d s
  | .evret n => Sys2Proof.Machine.execEvret n s
  | .wret n => Sys2Proof.Machine.execWret n s
  | .drain n p => Sys2Proof.Machine.execDrain n p s
  | .drainComplete n => Sys2Proof.Machine.execDrainComplete n s
  | .fence n p => Sys2Proof.Machine.execFence n p s
  | .wcall n svc => Sys2Proof.Machine.execWcall n svc s
  | .eventRaise src => Sys2Proof.Machine.execEventRaise src s
  | .eventEntry n => Sys2Proof.Machine.execEventEntry n s
  | .hostSourceMessage f => Sys2Proof.Machine.execHostSourceMessage f s
  | .evrDone ag w v => Sys2Proof.Machine.execEvrDone ag w v s
  | .evrRearm ag w v => Sys2Proof.Machine.execEvrRearm ag w v s
  | .evrPendWrite ag w v => Sys2Proof.Machine.execEvrPendWrite ag w v s
  | .pinRawEdge pin => Sys2Proof.Machine.execPinRawEdge pin s
  | .pinFilteredTransition pin level => Sys2Proof.Machine.execPinFilteredTransition pin level s
  | .pinLatchCapture pin rising => Sys2Proof.Machine.execPinLatchCapture pin rising s
  | .create ag p => Sys2Proof.Machine.execCreate ag p s
  | .destroy ag p => Sys2Proof.Machine.execDestroy ag p s
  | .partitionReset ag p => Sys2Proof.Machine.execPartitionReset ag p s
  | .run ag p => Sys2Proof.Machine.execRun ag p s
  | .claim ag => Sys2Proof.Machine.execClaim ag s
  | .claimRelease ag => Sys2Proof.Machine.execClaimRelease ag s
  | .potRewriteDone p => Sys2Proof.Machine.execPotRewriteDone p s
  | .potEdit ag => Sys2Proof.Machine.execPotEdit ag s
  | .potEditDone => Sys2Proof.Machine.execPotEditDone s
  | .faultLatchClear ag => Sys2Proof.Machine.execFaultLatchClear ag s
  | .dramRequest q world part wr addr len data => Sys2Proof.Machine.execDramRequest q world part wr addr len data s
  | .urgencyRaise id => Sys2Proof.Machine.execUrgencyRaise id s
  | .dramRequestDone id os words => Sys2Proof.Machine.execDramRequestDone id os words s
  | .correctionWriteback => Sys2Proof.Machine.execCorrectionWriteback s
  | .scrubRead o word => Sys2Proof.Machine.execScrubRead o word s
  | .ssAccess port world part wr addr len data => Sys2Proof.Machine.execSsAccess port world part wr addr len data s
  | .ssScrub => Sys2Proof.Machine.execSsScrub s
  | .retrainStart ch byTemp => Sys2Proof.Machine.execRetrainStart ch byTemp s
  | .retrainStep lowMargin noSetting last odecc => Sys2Proof.Machine.execRetrainStep lowMargin noSetting last odecc s
  | .rowActivation ch bank row q => Sys2Proof.Machine.execRowActivation ch bank row q s
  | .refreshRateChange ch m => Sys2Proof.Machine.execRefreshRateChange ch m s
  | .channelPowerDown ch selfRefresh => Sys2Proof.Machine.execChannelPowerDown ch selfRefresh s
  | .dmaStart ag ch => Sys2Proof.Machine.execDmaStart ag ch s
  | .dmaStop ag ch => Sys2Proof.Machine.execDmaStop ag ch s
  | .dmaStopped ch => Sys2Proof.Machine.execDmaStopped ch s
  | .dmaHalfPoint ch => Sys2Proof.Machine.execDmaHalfPoint ch s
  | .dmaEnd ch => Sys2Proof.Machine.execDmaEnd ch s
  | .dmaError ch code => Sys2Proof.Machine.execDmaError ch code s
  | .crcConfigWrite ag n v => Sys2Proof.Machine.execCrcConfigWrite ag n v s
  | .crcRestart ag n => Sys2Proof.Machine.execCrcRestart ag n s
  | .crcAliveReset ag n => Sys2Proof.Machine.execCrcAliveReset ag n s
  | .crcFeed ag n width v => Sys2Proof.Machine.execCrcFeed ag n width v s
  | .crcCheck ag n v => Sys2Proof.Machine.execCrcCheck ag n v s
  | .csiFrameStart p vc => Sys2Proof.Machine.execCsiFrameStart p vc s
  | .csiLine p vc dt crcBad hdrBad data => Sys2Proof.Machine.execCsiLine p vc dt crcBad hdrBad data s
  | .csiFrameEnd p vc => Sys2Proof.Machine.execCsiFrameEnd p vc s
  | .csiLinkFailure p => Sys2Proof.Machine.execCsiLinkFailure p s
  | .rtpPacket n udp ssrc seq ts marker ptp off data => Sys2Proof.Machine.execRtpPacket n udp ssrc seq ts marker ptp off data s
  | .rtcpSenderReport n udp ssrc rtp t => Sys2Proof.Machine.execRtcpSenderReport n udp ssrc rtp t s
  | .publishGuest ag slot => Sys2Proof.Machine.execPublishGuest ag slot s
  | .publishDerived ag slot origin => Sys2Proof.Machine.execPublishDerived ag slot origin s
  | .publishReplay ag slot => Sys2Proof.Machine.execPublishReplay ag slot s
  | .publishSynthetic ag slot => Sys2Proof.Machine.execPublishSynthetic ag slot s
  | .sourceLossDeadline slot => Sys2Proof.Machine.execSourceLossDeadline slot s
  | .vdeWptrWrite ag v x ptr => Sys2Proof.Machine.execVdeWptrWrite ag v x ptr s
  | .pictureTokenRefill v x => Sys2Proof.Machine.execPictureTokenRefill v x s
  | .pictureDecoded v x info => Sys2Proof.Machine.execPictureDecoded v x info s
  | .vdeCancel ag v x => Sys2Proof.Machine.execVdeCancel ag v x s
  | .latchInstant h => Sys2Proof.Machine.execLatchInstant h s
  | .stripCompositionStart h strip => Sys2Proof.Machine.execStripCompositionStart h strip s
  | .stripScanoutStart h strip complete => Sys2Proof.Machine.execStripScanoutStart h strip complete s
  | .layerWrite ag h slot off v => Sys2Proof.Machine.execLayerWrite ag h slot off v s
  | .engineFault n check => Sys2Proof.Machine.execEngineFault n check s
  | .headLineStart h ringLate protLate rindChk => Sys2Proof.Machine.execHeadLineStart h ringLate protLate rindChk s
  | .headEnable ag h en => Sys2Proof.Machine.execHeadEnable ag h en s
  | .rasterStart h => Sys2Proof.Machine.execRasterStart h s
  | .syncWrite ag h vert v => Sys2Proof.Machine.execSyncWrite ag h vert v s
  | .adaptGo ag h => Sys2Proof.Machine.execAdaptGo ag h s
  | .frameDone h => Sys2Proof.Machine.execFrameDone h s
  | .linkTrain t cause => Sys2Proof.Machine.execLinkTrain t cause s
  | .linkTrainingDone t rate lanes fec lttpr sinkRate sinkLanes sinkCrc sinkMsa => Sys2Proof.Machine.execLinkTrainingDone t rate lanes fec lttpr sinkRate sinkLanes sinkCrc sinkMsa s
  | .hpdLoss t => Sys2Proof.Machine.execHpdLoss t s
  | .irqHpd t lockLost => Sys2Proof.Machine.execIrqHpd t lockLost s
  | .linkLoss t => Sys2Proof.Machine.execLinkLoss t s
  | .auxNativeWrite ag t addr len => Sys2Proof.Machine.execAuxNativeWrite ag t addr len s
  | .auxNativeRead ag t addr len => Sys2Proof.Machine.execAuxNativeRead ag t addr len s
  | .auxI2cWrite ag t addr len => Sys2Proof.Machine.execAuxI2cWrite ag t addr len s
  | .auxI2cRead ag t addr len => Sys2Proof.Machine.execAuxI2cRead ag t addr len s
  | .auxReply t reply data => Sys2Proof.Machine.execAuxReply t reply data s
  | .auxDeferRetry t => Sys2Proof.Machine.execAuxDeferRetry t s
  | .sinkCrcResult t stream ok crc => Sys2Proof.Machine.execSinkCrcResult t stream ok crc s
  | .encodeTokenRefill e x => Sys2Proof.Machine.execEncodeTokenRefill e x s
  | .ctuRowReady e x row deadline frame t0 flags => Sys2Proof.Machine.execCtuRowReady e x row deadline frame t0 flags s
  | .ctuRowCoded e x head sizes fallback => Sys2Proof.Machine.execCtuRowCoded e x head sizes fallback s
  | .rowDeadline e x row fallback => Sys2Proof.Machine.execRowDeadline e x row fallback s
  | .encoderFault e => Sys2Proof.Machine.execEncoderFault e s
  | .witnessRecord => Sys2Proof.Machine.execWitnessRecord s
  | .segmentClose ns bySize => Sys2Proof.Machine.execSegmentClose ns bySize s
  | .segmentHandoff => Sys2Proof.Machine.execSegmentHandoff s
  | .holdSet ag n => Sys2Proof.Machine.execHoldSet ag n s
  | .holdRelease ag n => Sys2Proof.Machine.execHoldRelease ag n s
  | .caveSegmentAccept => Sys2Proof.Machine.execCaveSegmentAccept s
  | .segmentCommit => Sys2Proof.Machine.execSegmentCommit s
  | .programFailure m b => Sys2Proof.Machine.execProgramFailure m b s
  | .caveRead ns num retry bad => Sys2Proof.Machine.execCaveRead ns num retry bad s
  | .affinageRead m b page bits retry parity => Sys2Proof.Machine.execAffinageRead m b page bits retry parity s
  | .superblockRefresh sb => Sys2Proof.Machine.execSuperblockRefresh sb s
  | .retentionUpdate temps => Sys2Proof.Machine.execRetentionUpdate temps s
  | .remove ag m => Sys2Proof.Machine.execRemove ag m s
  | .forceRemove ag m => Sys2Proof.Machine.execForceRemove ag m s
  | .insert ag m => Sys2Proof.Machine.execInsert ag m s
  | .memberDrained m => Sys2Proof.Machine.execMemberDrained m s
  | .memberTimeout m => Sys2Proof.Machine.execMemberTimeout m s
  | .insertionDone id => Sys2Proof.Machine.execInsertionDone id s
  | .rebuildComplete => Sys2Proof.Machine.execRebuildComplete s
  | .caveFormat ag ids => Sys2Proof.Machine.execCaveFormat ag ids s
  | .mixSample d => Sys2Proof.Machine.execMixSample d s
  | .tdmFrame t drift data => Sys2Proof.Machine.execTdmFrame t drift data s
  | .tdmFsTimeout t => Sys2Proof.Machine.execTdmFsTimeout t s
  | .tdmConfigWrite ag t v => Sys2Proof.Machine.execTdmConfigWrite ag t v s
  | .audioPacket n udp ssrc pt ts chans data => Sys2Proof.Machine.execAudioPacket n udp ssrc pt ts chans data s
  | .audioPacketTx n k => Sys2Proof.Machine.execAudioPacketTx n k s
  | .nsConfigWrite ag n k v => Sys2Proof.Machine.execNsConfigWrite ag n k v s
  | .inConfigWrite ag k v => Sys2Proof.Machine.execInConfigWrite ag k v s
  | .bridgeRatioFault b err => Sys2Proof.Machine.execBridgeRatioFault b err s
  | .silenceHoldExpiry o => Sys2Proof.Machine.execSilenceHoldExpiry o s
  | .ampWakeDone p => Sys2Proof.Machine.execAmpWakeDone p s
  | .chimeStart ag v => Sys2Proof.Machine.execChimeStart ag v s
  | .chimeStop ag v => Sys2Proof.Machine.execChimeStop ag v s
  | .meterRead ag o => Sys2Proof.Machine.execMeterRead ag o s
  | .touchRateTick t => Sys2Proof.Machine.execTouchRateTick t s
  | .scanStart t => Sys2Proof.Machine.execScanStart t s
  | .scanEnd t raw self => Sys2Proof.Machine.execScanEnd t raw self s
  | .freeModeFallback t => Sys2Proof.Machine.execFreeModeFallback t s
  | .tslStepFrame t step ok counts => Sys2Proof.Machine.execTslStepFrame t step ok counts s
  | .tslWrite ag t bytes addr => Sys2Proof.Machine.execTslWrite ag t bytes addr s
  | .tslRead ag t bytes addr => Sys2Proof.Machine.execTslRead ag t bytes addr s
  | .tslReply t crcOk data => Sys2Proof.Machine.execTslReply t crcOk data s
  | .tslTimeout t => Sys2Proof.Machine.execTslTimeout t s
  | .touchStart ag t => Sys2Proof.Machine.execTouchStart ag t s
  | .touchStop ag t => Sys2Proof.Machine.execTouchStop ag t s
  | .rebase ag t => Sys2Proof.Machine.execRebase ag t s
  | .touchSelftest ag t => Sys2Proof.Machine.execTouchSelftest ag t s
  | .longHold t => Sys2Proof.Machine.execLongHold t s
  | .wakeGesture t => Sys2Proof.Machine.execWakeGesture t s
  | .hptGo ag ch v => Sys2Proof.Machine.execHptGo ag ch v s
  | .carrierPeriod ch => Sys2Proof.Machine.execCarrierPeriod ch s
  | .effectSegmentEnd ch => Sys2Proof.Machine.execEffectSegmentEnd ch s
  | .enableHoldExpiry ch => Sys2Proof.Machine.execEnableHoldExpiry ch s
  | .enableDelayDone ch => Sys2Proof.Machine.execEnableDelayDone ch s
  | .hapticFault ch kind => Sys2Proof.Machine.execHapticFault ch kind s
  | .hapticSelftest ag ch => Sys2Proof.Machine.execHapticSelftest ag ch s
  | .hapticSelftestEnd ch r => Sys2Proof.Machine.execHapticSelftestEnd ch r s
  | .hapticDisable ag ch => Sys2Proof.Machine.execHapticDisable ag ch s
  | .sqTailWrite f q v => Sys2Proof.Machine.execSqTailWrite f q v s
  | .cqHeadWrite f q v => Sys2Proof.Machine.execCqHeadWrite f q v s
  | .nop f q => Sys2Proof.Machine.execNop f q s
  | .contract f q => Sys2Proof.Machine.execContract f q s
  | .commit f q => Sys2Proof.Machine.execCommit f q s
  | .discard f q => Sys2Proof.Machine.execDiscard f q s
  | .submit f q => Sys2Proof.Machine.execSubmit f q s
  | .waitEpoch f q => Sys2Proof.Machine.execWaitEpoch f q s
  | .readSeg f q retry bad hostOk => Sys2Proof.Machine.execReadSeg f q retry bad hostOk s
  | .moderationTimer v => Sys2Proof.Machine.execModerationTimer v s
  | .msixUnmask f e => Sys2Proof.Machine.execMsixUnmask f e s
  | .linkL0Return => Sys2Proof.Machine.execLinkL0Return s
  | .d3hotEntry f => Sys2Proof.Machine.execD3hotEntry f s
  | .flr f => Sys2Proof.Machine.execFlr f s
  | .pcieLinkChange up speed width => Sys2Proof.Machine.execPcieLinkChange up speed width s
  | .linkFrame p f => Sys2Proof.Machine.execLinkFrame p f s
  | .frameResend => Sys2Proof.Machine.execFrameResend s
  | .portUp p farPort => Sys2Proof.Machine.execPortUp p farPort s
  | .portDown p => Sys2Proof.Machine.execPortDown p s
  | .discovery late a0 a1 => Sys2Proof.Machine.execDiscovery late a0 a1 s
  | .pathRebuild a0 a1 room => Sys2Proof.Machine.execPathRebuild a0 a1 room s
  | .timeFrame err => Sys2Proof.Machine.execTimeFrame err s
  | .exportEnable ag x v room => Sys2Proof.Machine.execExportEnable ag x v room s
  | .exportSnapshot x => Sys2Proof.Machine.execExportSnapshot x s
  | .stripSend x k => Sys2Proof.Machine.execStripSend x k s
  | .stripMissing x k => Sys2Proof.Machine.execStripMissing x k s
  | .levelChange => Sys2Proof.Machine.execLevelChange s
  | .regulatorAck => Sys2Proof.Machine.execRegulatorAck s
  | .regulatorTimeout => Sys2Proof.Machine.execRegulatorTimeout s
  | .thermalSample sensor t16 => Sys2Proof.Machine.execThermalSample sensor t16 s
  | .wake cause => Sys2Proof.Machine.execWake cause s
  | .domainRequest f => Sys2Proof.Machine.execDomainRequest f s
  | .powerGoodLoss d => Sys2Proof.Machine.execPowerGoodLoss d s
  | .pwrOn => Sys2Proof.Machine.execPwrOn s
  | .chipReset cause flash bad pot => Sys2Proof.Machine.execChipReset cause flash bad pot s
  | .chip ag bad pot => Sys2Proof.Machine.execChip ag bad pot s
  | .recover ag bad pot => Sys2Proof.Machine.execRecover ag bad pot s
  | .confirm ag => Sys2Proof.Machine.execConfirm ag s
  | .rollbackCommit ag => Sys2Proof.Machine.execRollbackCommit ag s
  | .warmPath bad pot => Sys2Proof.Machine.execWarmPath bad pot s
  | .headReset ag h => Sys2Proof.Machine.execHeadReset ag h s
  | .unitReset ag kind k => Sys2Proof.Machine.execUnitReset ag kind k s
  | .journalSpill => Sys2Proof.Machine.execJournalSpill s
  | .journalBlockCommit => Sys2Proof.Machine.execJournalBlockCommit s
  | .supplyLoss bad pot => Sys2Proof.Machine.execSupplyLoss bad pot s
  | .debugHalt d => Sys2Proof.Machine.execDebugHalt d s
  | .debugResume d => Sys2Proof.Machine.execDebugResume d s
  | .netLinkChange n up => Sys2Proof.Machine.execNetLinkChange n up s
  | .functionD0Entry f msixEn => Sys2Proof.Machine.execFunctionD0Entry f msixEn s
  | .aspmL1Entry sub => Sys2Proof.Machine.execAspmL1Entry sub s
  | .d3coldEntry => Sys2Proof.Machine.execD3coldEntry s
  | .refreshWindowEnd ch => Sys2Proof.Machine.execRefreshWindowEnd ch s
  | .synthesiserLock lock => Sys2Proof.Machine.execSynthesiserLock lock s
  | .loReadLatch ag addr => Sys2Proof.Machine.execLoReadLatch ag addr s

end Sys2Proof.Machine
end

