-- ==== Sys2Proof/Safety.lean ====
section
/-! DEFINITION. What every step keeps, and what counts as a safe run, in the terms the statements use. -/

namespace Sys2Proof.Machine

open Sys2Proof

/-- Strictly rising addresses from `lo` on, and no byte that an unlisted address reads as. -/
def Memory.wfFrom : Nat → List Host.Cell → Bool
  | _, [] => true
  | lo, (a, b) :: m => decide (lo ≤ a) && b != 0 && Memory.wfFrom (a + 1) m

/-- The canonical form of memory. -/
def Memory.wf (m : List Host.Cell) : Bool := Memory.wfFrom 0 m

/-- Memory in canonical form and no byte of a command still on its way: what holds between commands. -/
def State.Inv (s : State) : Prop := Memory.wf s.core.mem = true ∧ s.core.posted = []

/-- From one state to a later one: the variant as it was fused (R1), time not run back. -/
def State.Later (s t : State) : Prop := t.core.var = s.core.var ∧ s.core.now ≤ t.core.now

/-- The registers in which the Event Router and the configuration journal record what happens beside a command's own effect: pending
and quarantine bits, capture stamps, rate counts, the journal's write sequence, event and loss counts (R85, R99, R100, R420 to R422). -/
def Fam.background : Fam → Bool
  | .EVR_PEND | .EVR_SRC_TIME | .EVR_QUAR | .EVR_SRC_STAT | .EVR_QCNT | .JNL_WSEQ | .JNL_EVT | .JNL_LOST => true
  | _ => false

/-- `d` is `c` but for what the Event Router and the journal record: those registers, the levels sampled, the journal. -/
def Core.Quiet (c d : Core) : Prop :=
  d = { c with regs := d.regs, evr := { c.evr with level := d.evr.level }, jnl := d.jnl } ∧
  ∀ r : Reg, r.fam.background = false → d.rd r = c.rd r

/-- A run of the block is safe when no step of it stops. -/
def SafeRun : Nat → State → Prop
  | 0, _ => True
  | k + 1, s => ∃ t, step s = .next t ∧ SafeRun k t

end Sys2Proof.Machine
end

