-- ==== Sys2Proof/Certificates/Slice0/Obligations.lean ====
section
/-! DEFINITION. The statements about the model, for the provers: what each command does, what it leaves, and what every step keeps. -/

namespace Sys2Proof.Machine

open Sys2Proof

/-! ### Words the statements share -/

/-- The command answers a next state, and `P` holds of it. -/
def Gives (i : Instr) (s : State) (P : State → Prop) : Prop := ∃ t, exec i s = .next t ∧ P t

/-- The command answers the state that the effect `E` on the block leads to: with the stored bytes laid into memory and the
quarantines of R100 that fall due. -/
def Does (i : Instr) (s : State) (E : Core → Core) : Prop := exec i s = .next (s.after E)

/-- Sequencer `n` executes an instruction under predicate `p`: a live program runs, not waiting, not halted, and the predicate holds
(R61). -/
abbrev Core.Executes (c : Core) (n p : Nat) : Prop := c.canRun n = true ∧ c.pr n p = true

/-- Nothing but sequencer `n`, its tick accounting, and what the Event Router and the journal record has changed: no other sequencer,
no register outside the background, no owner record, no unit, no waiting command, no byte of memory. -/
def OnlySeq (n : Nat) (s t : State) : Prop :=
  t.pending = s.pending ∧
  t.core = { s.core with seqs := t.core.seqs, seqTicks := t.core.seqTicks, regs := t.core.regs
                         evr := { s.core.evr with level := t.core.evr.level }, jnl := t.core.jnl } ∧
  (∀ r : Reg, r.fam.background = false → t.core.rd r = s.core.rd r) ∧
  (∀ a, memByte t.core.mem a = memByte s.core.mem a) ∧
  ∀ m, m ≠ n → t.core.seq m = s.core.seq m ∧ t.core.st m = s.core.st m

/-- Nothing but the registers in `L`, the fields of the block that `K` puts back, and what the Event Router and the journal record has
changed; every byte of memory reads as before. -/
def Only (L : Reg → Bool) (K : Core → Core → Core) (s t : State) : Prop :=
  t.pending = s.pending ∧
  K s.core t.core = { s.core with regs := t.core.regs, evr := { s.core.evr with level := t.core.evr.level }, jnl := t.core.jnl } ∧
  (∀ r : Reg, r.fam.background = false → L r = false → t.core.rd r = s.core.rd r) ∧
  ∀ a, memByte t.core.mem a = memByte s.core.mem a

/-- Nothing but the registers in `L` and what the Event Router and the journal record has changed. -/
def OnlyRegs (L : Reg → Bool) (s t : State) : Prop := Only L (fun _ d => d) s t

/-- Registers in which accesses to memory leave their records (R57, R109, R124, R134, R139, R140, R150). -/
def Fam.ofMemory (f : Fam) : Bool :=
  [Fam.DMC_CH_CORR, .DMC_CH_UNCORR, .DMC_CH_ERR_ADDR_LO, .DMC_CH_ERR_ADDR_HI, .DMC_CH_ERR_INFO, .DMC_CH_STATUS, .DMC_SS_CORR, .DMC_SS_UNCORR,
    .DMC_SS_ERR_ADDR, .DMC_SS_ERR_INFO, .POT_FAULT_ADDR_LO, .POT_FAULT_ADDR_HI, .POT_FAULT_CNT, .POT_FAULT_INFO, .POT_PAIR_CNT, .POT_PAIR_INFO,
    .SEQ_MEMERR].contains f

/-- The block `d` with what accesses to memory change taken from `c`: bytes, codes, the controller, the POT cache, time, free values. -/
def memOf (c d : Core) : Core :=
  { d with mem := c.mem, flips := c.flips, poison := c.poison, dmc := c.dmc, now := c.now, free := c.free
           pot := { d.pot with cache := c.pot.cache, copies := c.pot.copies } }

/-- Nothing but the registers in `L`, the fields that `K` puts back, and what a unit's accesses to memory change. -/
def OnlyMem (L : Reg → Bool) (K : Core → Core → Core) (s t : State) : Prop :=
  Only (fun r => L r || r.fam.ofMemory) (fun c d => memOf c (K c d)) s { t with core := { t.core with mem := s.core.mem } }

/-- The requester `ag`, acting as `t`, passes every gate of a write of `v` to the register (R5, R23 to R25, R38, R108, R422): the device
runs, the address is an aligned word of control space, the register is there and powered, the requester has the
right, no program owns the register, and the journal can take the entry. -/
def Core.granted (c : Core) (ag : Agent) (t : Owner) (r : Reg) (v : W32) : Bool :=
  c.awake && decide (0x20000000 ≤ r.addr ∧ r.addr < 0x22000000 ∧ r.addr % 4 = 0) && regAt r.addr == some r && c.ctlTag ag r == some t
    && (c.canLog t || match ag with | .seq _ => true | _ => false) && c.reachable r && c.mayWrite ag t r v && !c.ownedBar ag r

end Sys2Proof.Machine

open Sys2Proof Sys2Proof.Machine

/-! ### The machine -/

/-- A step takes the command at the front of the queue and is its effect on the state with the queue's rest. -/
def Obligations.StepRunsFrontCommand : Prop :=
  ∀ (i : Instr) (s : State), step { s with pending := i :: s.pending } = exec i s

/-- With no command waiting a step is the block's idle period of one time-stamp count, 625 ps, and no command appears (the model's choice,
log entry 1). -/
def Obligations.IdleStepIsOneStampCount : Prop :=
  ∀ s : State, s.pending = [] → ∃ t, step s = .next t ∧ t.pending = [] ∧ t.core.now = s.core.now + 625

/-- Memory in canonical form, no byte on its way, and an empty queue, right after reset. -/
def Obligations.ResetHasCanonicalMemory : Prop := State.reset.Inv ∧ State.reset.pending = []

/-- Every step from a state with canonical memory and no byte on its way leads to such a state. -/
def Obligations.StepKeepsCanonicalMemory : Prop := ∀ s t : State, s.Inv → step s = .next t → t.Inv

/-- Every command leaves the fused variant and the queue as they are and never turns time back. -/
def Obligations.CommandsKeepVariantQueueAndTimeOrder : Prop :=
  ∀ (i : Instr) (s t : State), exec i s = .next t → t.core.var = s.core.var ∧ t.pending = s.pending ∧ s.core.now ≤ t.core.now

/-- A queue of commands is taken in order and empties in as many steps as it has commands, none of them a stop. Any number of steps from any state is a safe run: no command stops the block. -/
def Obligations.QueueEmptiesInItsLength : Prop :=
  (∀ s : State, ∃ t, Host.Core.run Sys2Proof.core s.pending.length s = .next t ∧ t.pending = [] ∧ s.Later t) ∧
  (∀ (k : Nat) (s : State), SafeRun k s)
/-! ### The instructions of a sequencer -/

namespace Sys2Proof.Machine

/-- The register and immediate operations of R62: sequencer, predicate, cost in cycles (R64), destination and 64-bit result. -/
def Core.resultOf (c : Core) : Instr → Option (Nat × Nat × Nat × Nat × W64)
  | .add n p d a b => some (n, p, 1, d, c.g n a + c.g n b)
  | .sub n p d a b => some (n, p, 1, d, c.g n a - c.g n b)
  | .andR n p d a b => some (n, p, 1, d, c.g n a &&& c.g n b)
  | .orR n p d a b => some (n, p, 1, d, c.g n a ||| c.g n b)
  | .xorR n p d a b => some (n, p, 1, d, c.g n a ^^^ c.g n b)
  | .andn n p d a b => some (n, p, 1, d, c.g n a &&& ~~~(c.g n b))
  | .shl n p d a b => some (n, p, 1, d, c.g n a <<< ((c.g n b).toNat % 64))
  | .shr n p d a b => some (n, p, 1, d, c.g n a >>> ((c.g n b).toNat % 64))
  | .sar n p d a b => some (n, p, 1, d, BitVec.ofInt 64 ((c.g n a).toInt / 2 ^ ((c.g n b).toNat % 64)))
  | .rol n p d a b => let k := (c.g n b).toNat % 64; some (n, p, 1, d, (c.g n a <<< k) ||| (c.g n a >>> (64 - k)))
  | .min n p d a b => some (n, p, 1, d, if (c.g n b).toInt < (c.g n a).toInt then c.g n b else c.g n a)
  | .max n p d a b => some (n, p, 1, d, if (c.g n b).toInt < (c.g n a).toInt then c.g n a else c.g n b)
  | .minu n p d a b => some (n, p, 1, d, if (c.g n b).toNat < (c.g n a).toNat then c.g n b else c.g n a)
  | .maxu n p d a b => some (n, p, 1, d, if (c.g n b).toNat < (c.g n a).toNat then c.g n a else c.g n b)
  | .clz n p d a => some (n, p, 1, d, w64 ((List.range 64).takeWhile (fun i => !(c.g n a).getLsbD (63 - i))).length)
  | .popc n p d a => some (n, p, 1, d, w64 ((List.range 64).filter (fun i => (c.g n a).getLsbD i)).length)
  | .mul n p d a b => some (n, p, 3, d, BitVec.ofNat 64 ((c.g n a).toNat * (c.g n b).toNat))
  | .mulh n p d a b => some (n, p, 3, d, BitVec.ofInt 64 ((c.g n a).toInt * (c.g n b).toInt / 2 ^ 64))
  | .mulhu n p d a b => some (n, p, 3, d, BitVec.ofNat 64 ((c.g n a).toNat * (c.g n b).toNat / 2 ^ 64))
  | .div n p d a b => some (n, p, 18, d, if c.g n b = 0 then BitVec.allOnes 64 else (c.g n a).sdiv (c.g n b))
  | .divu n p d a b => some (n, p, 18, d, if c.g n b = 0 then BitVec.allOnes 64 else c.g n a / c.g n b)
  | .rem n p d a b => some (n, p, 18, d, if c.g n b = 0 then c.g n a else (c.g n a).srem (c.g n b))
  | .remu n p d a b => some (n, p, 18, d, if c.g n b = 0 then c.g n a else c.g n a % c.g n b)
  | .mfs n p d b => some (n, p, 1, d, c.special n b)
  | .addi n d a imm => some (n, 0, 1, d, c.g n a + imm.signExtend 64)
  | .andi n d a imm => some (n, 0, 1, d, c.g n a &&& imm.zeroExtend 64)
  | .ori n d a imm => some (n, 0, 1, d, c.g n a ||| imm.zeroExtend 64)
  | .xori n d a imm => some (n, 0, 1, d, c.g n a ^^^ imm.zeroExtend 64)
  | .shli n d a sh => some (n, 0, 1, d, c.g n a <<< (sh % 64))
  | .shri n d a sh => some (n, 0, 1, d, c.g n a >>> (sh % 64))
  | .sari n d a sh => some (n, 0, 1, d, BitVec.ofInt 64 ((c.g n a).toInt / 2 ^ (sh % 64)))
  | .seth n d k imm => some (n, 0, 1, d, (c.g n d &&& ~~~((0xFFFF : W64) <<< (16 * (k % 4)))) ||| (imm.zeroExtend 64 <<< (16 * (k % 4))))
  | _ => none

/-- The compare and predicate operations of R62: sequencer, predicate, destination and the truth value. -/
def Core.predOf (c : Core) : Instr → Option (Nat × Nat × Nat × Bool)
  | .cmp n p cc d a b => some (n, p, d, condHolds cc (c.g n a) (c.g n b))
  | .cmpi n cc d a imm => some (n, 0, d, condHolds cc (c.g n a) (imm.signExtend 64))
  | .pand n p d a b => some (n, p, d, c.pr n a && c.pr n b)
  | .por n p d a b => some (n, p, d, c.pr n a || c.pr n b)
  | .pxor n p d a b => some (n, p, d, xor (c.pr n a) (c.pr n b))
  | .pandn n p d a b => some (n, p, d, c.pr n a && !c.pr n b)
  | _ => none

/-- Sequencer `n` of `t` is that of `s` past one word, `k` cycles charged, but for its register sets; single-stepped by debug, it is halted
again (R127). -/
def NextWord (n k : Nat) (s t : State) : Prop :=
  t.core.seq n = { (s.core.advance n).seq n with sets := (t.core.seq n).sets, dbg := (s.core.seq n).step, step := false } ∧
  t.core.st n = { s.core.st n with tickCyc := (s.core.st n).tickCyc + k }

end Sys2Proof.Machine

/-- Every register and immediate operation and MFS writes its result to its destination, g0 excepted, and nothing else: the other registers
and the predicates of every set, the rest of the sequencer past one word, the rest of the machine stand as they were. A result to g29
must not lie below the stack limit (the other case is ForbiddenAccessAndStackTrap). -/
def Obligations.OperationsWriteTheirResult : Prop :=
  ∀ (i : Instr) (s : State) (n p k d : Nat) (v : W64), s.core.resultOf i = some (n, p, k, d, v) → s.core.Executes n p → s.core.posted = [] →
    (d = 29 → s.core.stkLim n ≤ v.toNat) →
    Gives i s (fun t => t.core.g n d = (if d = 0 then 0 else v) ∧ (∀ e, e ≠ d → t.core.g n e = s.core.g n e) ∧
      (∀ q, t.core.pr n q = s.core.pr n q) ∧ (∀ l, l ≠ (s.core.seq n).level → kget {} (t.core.seq n).sets l = kget {} (s.core.seq n).sets l) ∧
      NextWord n k s t ∧ OnlySeq n s t)

/-- Compares and predicate operations write their truth value to p1 to p7, and nothing else. -/
def Obligations.PredicateOperationsWriteTheirPredicate : Prop :=
  ∀ (i : Instr) (s : State) (n p d : Nat) (b : Bool), s.core.predOf i = some (n, p, d, b) → i.wf = true → s.core.Executes n p → s.core.posted = [] →
    Gives i s (fun t => t.core.pr n d = b ∧ (∀ q, q < 8 → q ≠ d → t.core.pr n q = s.core.pr n q) ∧ (∀ e, t.core.g n e = s.core.g n e) ∧
      (∀ l, l ≠ (s.core.seq n).level → kget {} (t.core.seq n).sets l = kget {} (s.core.seq n).sets l) ∧
      NextWord n 1 s t ∧ OnlySeq n s t)

/-- Division by zero raises no exception: the quotients are all ones, the remainders the dividend; −2^63 by −1 gives −2^63 and 0 (R63). -/
def Obligations.DivisionCornersRaiseNothing : Prop :=
  ∀ (s : State) (n p d a b : Nat), s.core.Executes n p → s.core.posted = [] → d ≠ 0 → d ≠ 29 →
    let q (i : Instr) (v : W64) : Prop := Gives i s (fun t => t.core.g n d = v ∧ NextWord n 18 s t ∧ OnlySeq n s t)
    (s.core.g n b = 0 → q (.div n p d a b) 0xFFFFFFFFFFFFFFFF ∧ q (.divu n p d a b) 0xFFFFFFFFFFFFFFFF ∧
      q (.rem n p d a b) (s.core.g n a) ∧ q (.remu n p d a b) (s.core.g n a)) ∧
    (s.core.g n a = 0x8000000000000000 → s.core.g n b = 0xFFFFFFFFFFFFFFFF →
      q (.div n p d a b) 0x8000000000000000 ∧ q (.rem n p d a b) 0)

namespace Sys2Proof

/-- The predicated instructions: sequencer and predicate (R61). BR and BRN test theirs as operands. -/
def Instr.underPredicate : Instr → Option (Nat × Nat)
  | .add n p _ _ _ | .sub n p _ _ _ | .andR n p _ _ _ | .orR n p _ _ _ | .xorR n p _ _ _ | .andn n p _ _ _ | .shl n p _ _ _
  | .shr n p _ _ _ | .sar n p _ _ _ | .rol n p _ _ _ | .min n p _ _ _ | .max n p _ _ _ | .minu n p _ _ _ | .maxu n p _ _ _
  | .cmp n p _ _ _ _ | .pand n p _ _ _ | .por n p _ _ _ | .pxor n p _ _ _ | .pandn n p _ _ _ | .mul n p _ _ _ | .mulh n p _ _ _
  | .mulhu n p _ _ _ | .div n p _ _ _ | .divu n p _ _ _ | .rem n p _ _ _ | .remu n p _ _ _ | .ld n p _ _ _ | .lw n p _ _ _
  | .lws n p _ _ _ | .lh n p _ _ _ | .lhs n p _ _ _ | .lb n p _ _ _ | .lbs n p _ _ _ | .st n p _ _ _ | .stw n p _ _ _
  | .sth n p _ _ _ | .stb n p _ _ _ | .ldc n p _ _ _ | .stc n p _ _ _ | .twr n p _ _ _ => some (n, p)
  | .clz n p _ _ | .popc n p _ _ | .mfs n p _ _ | .mts n p _ _ => some (n, p)
  | .sig n p _ | .call n p _ | .waits n p _ | .rennet n p _ => some (n, p)
  | .ret n p | .waitt n p | .drain n p | .fence n p => some (n, p)
  | _ => none

end Sys2Proof

/-- A predicated instruction whose predicate is false has no effect and costs 1 cycle. -/
def Obligations.FalsePredicateOnlyCostsACycle : Prop :=
  ∀ (i : Instr) (s : State) (n p : Nat), i.underPredicate = some (n, p) → s.core.canRun n = true → s.core.pr n p = false → s.core.posted = [] →
    Gives i s (fun t => NextWord n 1 s t ∧ (t.core.seq n).sets = (s.core.seq n).sets ∧ OnlySeq n s t)


namespace Sys2Proof

/-- The loads of R62: sequencer, predicate, destination, base register, offset, width in bytes, the result of the number loaded. -/
def Instr.loadOf : Instr → Option (Nat × Nat × Nat × Nat × BitVec 13 × Nat × (Nat → W64))
  | .ld n p d a off => some (n, p, d, a, off, 8, fun v => BitVec.ofNat 64 v)
  | .lw n p d a off => some (n, p, d, a, off, 4, fun v => BitVec.ofNat 64 v)
  | .lws n p d a off => some (n, p, d, a, off, 4, fun v => (BitVec.ofNat 32 v).signExtend 64)
  | .lh n p d a off => some (n, p, d, a, off, 2, fun v => BitVec.ofNat 64 v)
  | .lhs n p d a off => some (n, p, d, a, off, 2, fun v => (BitVec.ofNat 16 v).signExtend 64)
  | .lb n p d a off => some (n, p, d, a, off, 1, fun v => BitVec.ofNat 64 v)
  | .lbs n p d a off => some (n, p, d, a, off, 1, fun v => (BitVec.ofNat 8 v).signExtend 64)
  | _ => none

/-- The stores of R62: sequencer, predicate, source, base register, offset, width in bytes. -/
def Instr.storeOf : Instr → Option (Nat × Nat × Nat × Nat × BitVec 13 × Nat)
  | .st n p d a off => some (n, p, d, a, off, 8)
  | .stw n p d a off => some (n, p, d, a, off, 4)
  | .sth n p d a off => some (n, p, d, a, off, 2)
  | .stb n p d a off => some (n, p, d, a, off, 1)
  | _ => none

end Sys2Proof

namespace Sys2Proof.Machine

/-- An access of `w` bytes at local address `a` that R57 allows: aligned, a load from the active bank, or in the data region, or in the
service region of S bytes for the secure world. -/
abbrev Core.MayAccess (c : Core) (n : Nat) (write : Bool) (a w : Nat) : Prop :=
  a % w = 0 ∧ ((a < 0x10000 ∧ write = false ∧ ((c.seq n).bank = true ↔ 0x8000 ≤ a)) ∨
    (0x10000 ≤ a ∧ a < 0x40000 - c.svcSize n) ∨
    (0x10000 ≤ a ∧ 0x40000 - c.svcSize n ≤ a ∧ a < 0x40000 ∧ ((c.seq n).inCall = true ∨ (c.owner 3 n).world = true)))

/-- The number held little-endian in `w` bytes of memory from `a` on. -/
def leAt (m : List Host.Cell) (a : Nat) : Nat → Nat
  | 0 => 0
  | w + 1 => (memByte m a).toNat + 256 * leAt m (a + 1) w

end Sys2Proof.Machine

/-- A load that R57 allows, of a word without flipped bits, writes the bytes of local memory, little-endian and extended, to its
destination, and nothing else; of a word with one flipped bit the corrected bytes: the word's code holds again, and SEQ_MEMERR counts one. -/
def Obligations.LoadsReadLocalMemory : Prop :=
  ∀ (i : Instr) (s : State) (n p d a w : Nat) (off : BitVec 13) (ext : Nat → W64), i.loadOf = some (n, p, d, a, off, w, ext) →
    s.core.Executes n p → s.core.posted = [] → n < 64 →
    let at_ := (s.core.g n a + off.signExtend 64).toNat
    let v := ext (leAt s.core.mem (0x10000000 + n * 0x40000 + at_) w)
    let word := (0x10000000 + n * 0x40000 + at_) / 8 * 8
    s.core.MayAccess n false at_ w → (d = 29 → s.core.stkLim n ≤ v.toNat) →
    (s.core.flipsAt (0x10000000 + n * 0x40000 + at_) = 0 →
      Gives i s (fun t => t.core.g n d = (if d = 0 then 0 else v) ∧ (∀ e, e ≠ d → t.core.g n e = s.core.g n e) ∧
        (∀ q, t.core.pr n q = s.core.pr n q) ∧ NextWord n 2 s t ∧ OnlySeq n s t)) ∧
    (kget 0 s.core.flips word = 1 →
      Gives i s (fun t => t.core.g n d = (if d = 0 then 0 else v) ∧ (∀ e, e ≠ d → t.core.g n e = s.core.g n e) ∧
        kget 0 t.core.flips word = 0 ∧ (∀ x, x ≠ word → kget 0 t.core.flips x = kget 0 s.core.flips x) ∧
        t.core.rdF (rg .SEQ_MEMERR n) 15 0 = sat 65535 (s.core.rdF (rg .SEQ_MEMERR n) 15 0 + 1) ∧ t.core.mem = s.core.mem ∧
        Only (fun r => r == rg .SEQ_MEMERR n) (fun c d => { d with seqs := c.seqs, seqTicks := c.seqTicks, flips := c.flips }) s t))

/-- A store that R57 allows writes the low bytes of its source register, little-endian, to local memory at g_a plus the offset, and no other
byte of memory; the word's flipped bits are gone; nothing else but the sequencer's next word changes. A store by a service that would make
an entry of the gate that an image calls invalid or dearer changes no byte: the secure window's result says DEPENDENT (R76). -/
def Obligations.StoresWriteLocalMemory : Prop :=
  ∀ (i : Instr) (s : State) (n p d a w : Nat) (off : BitVec 13), i.storeOf = some (n, p, d, a, off, w) →
    s.core.Executes n p → s.core.posted = [] → n < 64 →
    let at_ := (s.core.g n a + off.signExtend 64).toNat
    let base := 0x10000000 + n * 0x40000 + at_
    s.core.MayAccess n true at_ w →
    (s.core.gateHit n at_ (leBytes w (s.core.g n d).toNat) = false → s.core.flipsAt base = 0 →
      Gives i s (fun t => (∀ k, k < w → memByte t.core.mem (base + k) = BitVec.ofNat 8 ((s.core.g n d).toNat / 256 ^ k)) ∧
        (∀ q, (q < base ∨ base + w ≤ q) → memByte t.core.mem q = memByte s.core.mem q) ∧
        (t.core.seq n).sets = (s.core.seq n).sets ∧ NextWord n 1 s t ∧
        (∀ m, m ≠ n → t.core.seq m = s.core.seq m ∧ t.core.st m = s.core.st m) ∧ t.core.owners = s.core.owners ∧ (∀ k, kget 0 t.core.flips k = kget 0 s.core.flips k) ∧
        (∀ r : Reg, r.fam.background = false → t.core.rd r = s.core.rd r) ∧ t.pending = s.pending)) ∧
    (s.core.gateHit n at_ (leBytes w (s.core.g n d).toNat) = true →
      Gives i s (fun t => (∀ q, memByte t.core.mem q = memByte s.core.mem q) ∧ t.core.rdF (rg .ADM_PW_RESULT 64) 7 0 = 0x15 ∧
        t.core.rdB (rg .ADM_PW_RESULT 64) 31 = true ∧ t.core.rdF (rg .ADM_PW_RESULT 64) 15 8 = n ∧
        (t.core.seq n).sets = (s.core.seq n).sets ∧ NextWord n 1 s t ∧
        (∀ m, m ≠ n → t.core.seq m = s.core.seq m ∧ t.core.st m = s.core.st m) ∧ t.core.owners = s.core.owners ∧
        (∀ r : Reg, r.fam.background = false → r ≠ rg .ADM_PW_RESULT 64 → r ≠ rg .ADM_PW_EXCESS 64 → t.core.rd r = s.core.rd r) ∧ t.pending = s.pending))

/-- A local access that R57 forbids takes exception 1, with the record of a refusal where it is the service region's; an allowed load of a
word with two flipped bits, and a store that covers such a word in part, take exception 5 (R57, R78, R109). A result to g29 below the stack
limit of the current set takes exception 3, with no register written. -/
def Obligations.ForbiddenAccessAndStackTrap : Prop :=
  ((∀ (i : Instr) (s : State) (n p d a w : Nat) (off : BitVec 13) (ext : Nat → W64), i.loadOf = some (n, p, d, a, off, w, ext) →
    s.core.Executes n p → n < 64 →
    let at_ := (s.core.g n a + off.signExtend 64).toNat
    (¬ s.core.MayAccess n false at_ w → Does i s (fun c => (((c.charge n 2).svcRefuse n false at_).exception n 1).stepDone n)) ∧
    (s.core.MayAccess n false at_ w → 2 ≤ s.core.flipsAt (0x10000000 + n * 0x40000 + at_) →
      Does i s (fun c => ((c.charge n 2).exception n 5).stepDone n))) ∧
  ∀ (i : Instr) (s : State) (n p d a w : Nat) (off : BitVec 13), i.storeOf = some (n, p, d, a, off, w) →
    s.core.Executes n p → n < 64 →
    let at_ := (s.core.g n a + off.signExtend 64).toNat
    (¬ s.core.MayAccess n true at_ w → Does i s (fun c => (((c.charge n 1).svcRefuse n true at_).exception n 1).stepDone n)) ∧
    (s.core.MayAccess n true at_ w → w < 8 → 2 ≤ s.core.flipsAt (0x10000000 + n * 0x40000 + at_) →
      s.core.gateHit n at_ (leBytes w (s.core.g n d).toNat) = false → Does i s (fun c => ((c.charge n 1).exception n 5).stepDone n))) ∧
  (∀ (i : Instr) (s : State) (n p k : Nat) (v : W64), s.core.resultOf i = some (n, p, k, 29, v) → s.core.Executes n p → v.toNat < s.core.stkLim n →
    Does i s (fun c => ((c.charge n k).exception n 3).stepDone n))

/-- An exception records cause, level and a count in SEQ_EXC and the PC in SEQ_EXC_PC, discards the tick's tick-window writes, clears every
return record and loop, makes the tick late, ends a world call, and leaves the program waiting for its restart (R65, R78). -/
def Obligations.ExceptionStopsTheProgram : Prop :=
  ∀ (c : Core) (n cause : Nat), cause < 512 → (c.seq n).level < 4 →
    let d := c.exception n cause
    fld (d.rd (rg .SEQ_EXC n)) 8 0 = cause ∧ fld (d.rd (rg .SEQ_EXC n)) 11 10 = (c.seq n).level ∧
    bit (d.rd (rg .SEQ_EXC n)) 9 = (c.seq n).inCall ∧
    fld (d.rd (rg .SEQ_EXC n)) 31 16 = sat 65535 (fld (c.rd (rg .SEQ_EXC n)) 31 16 + 1) ∧
    d.rd (rg .SEQ_EXC_PC n) = w32 ((c.seq n).pc % 262144) ∧
    (d.seq n).tw = [] ∧ (d.seq n).rets = [] ∧ (d.seq n).loops = [] ∧ (d.seq n).mode = .waiting ∧ (d.seq n).restart = true ∧
    (d.seq n).inCall = false ∧ (d.seq n).live = (c.seq n).live ∧ (d.seq n).bank = (c.seq n).bank ∧
    (d.st n).late = true ∧ (d.st n).drain = false ∧ d.mem = c.mem ∧ d.posted = c.posted ∧
    ∀ m, m ≠ n → d.seq m = c.seq m ∧ d.st m = c.st m

namespace Sys2Proof.Machine

/-- Sequencer `n` has moved to `pc` with `k` cycles charged, its sets, records and mode as they were; loops may have been left; single-stepped
by debug, it is halted again (R127). -/
def MovedTo (n pc k : Nat) (s t : State) : Prop :=
  t.core.seq n = { s.core.seq n with pc := pc, loops := (t.core.seq n).loops, dbg := (s.core.seq n).step, step := false } ∧
  t.core.st n = { s.core.st n with tickCyc := (s.core.st n).tickCyc + k } ∧ OnlySeq n s t

end Sys2Proof.Machine

/-- BR with its predicate true and BRN with it false go forward by 4 times the offset in 2 cycles; not taken, to the next word in 1. Outside
loops a branch leaves the loop frames as they are (R62, R64). -/
def Obligations.BranchesGoToTheirTarget : Prop :=
  ∀ (s : State) (n p : Nat) (off : BitVec 23), s.core.canRun n = true → s.core.posted = [] → 1 ≤ off.toInt →
    let taken (i : Instr) : Prop := Gives i s (fun t => MovedTo n ((s.core.seq n).pc + 4 * off.toNat) 2 s t ∧
      ((s.core.seq n).loops = [] → (t.core.seq n).loops = []))
    let not_ (i : Instr) : Prop := Gives i s (fun t => NextWord n 1 s t ∧ (t.core.seq n).sets = (s.core.seq n).sets ∧ OnlySeq n s t)
    (s.core.pr n p = true → taken (.br n p off) ∧ not_ (.brn n p off)) ∧
    (s.core.pr n p = false → not_ (.br n p off) ∧ taken (.brn n p off))

/-- CALL puts PC + 4 into g31 and on top of the return record in use and goes to its target; RET goes back to the top entry where g31 equals
it, and takes it off, with the loops of the function left; a RET whose g31 differs, or on an empty record, takes exception 4 (R62, R65, R66).
A CALL that finds eight entries drops the oldest (the model's choice, log entry 205). -/
def Obligations.CallAndReturnAreMatched : Prop :=
  ∀ (s : State) (n p : Nat) (off : BitVec 23), s.core.Executes n p → s.core.posted = [] →
    let q := s.core.seq n
    Gives (.call n p off) s (fun t => (t.core.seq n).pc = ((q.pc : Int) + 4 * off.toInt).toNat ∧
      t.core.g n 31 = BitVec.ofNat 64 (q.pc + 4) ∧ (∀ e, e ≠ 31 → t.core.g n e = s.core.g n e) ∧
      (t.core.seq n).retRec = ((q.pc + 4) :: q.retRec).take 8 ∧ (t.core.st n).tickCyc = (s.core.st n).tickCyc + 3 ∧ OnlySeq n s t) ∧
    (∀ a as, q.retRec = a :: as → (s.core.g n 31).toNat = a → q.frames = [] →
      Gives (.ret n p) s (fun t => (t.core.seq n).pc = a ∧ (t.core.seq n).retRec = as ∧ (t.core.seq n).sets = q.sets ∧
        (t.core.st n).tickCyc = (s.core.st n).tickCyc + 3 ∧ OnlySeq n s t)) ∧
    (∀ a as, q.retRec = a :: as → (s.core.g n 31).toNat = a →
      Gives (.ret n p) s (fun t => (t.core.seq n).retRec = as ∧ (t.core.seq n).sets = q.sets ∧
        (∀ f ∈ (t.core.seq n).frames, f.depth ≤ as.length) ∧ OnlySeq n s t)) ∧
    ((∀ a as, q.retRec = a :: as → (s.core.g n 31).toNat ≠ a) → Does (.ret n p) s (fun c => ((c.charge n 3).exception n 4).stepDone n))

/-- LOOP reads gc once: with min(gc, M) = 0 it goes past the body, else it opens a frame of that many passes over the body and goes to its
first word (R66). JTAB goes to the first word after its table, plus 4 times the entry g_a names where that lies in the table; an entry in a word
with two flipped bits takes exception 5 (R57, R68). The loop rule: at the last word of a body with passes left the next word is the body's first and one pass is used; in the last pass the
frame is closed (R66). -/
def Obligations.LoopsAndTablesAreBounded : Prop :=
  (∀ (s : State) (n : Nat), s.core.canRun n = true → s.core.posted = [] → n < 64 →
    let q := s.core.seq n
    (∀ gc len m, q.frames = [] → Nat.min (s.core.g n gc).toNat m = 0 →
      Gives (.loop n gc len m) s (fun t => MovedTo n (q.pc + 4 + 4 * len) 1 s t)) ∧
    (∀ gc len m, Nat.min (s.core.g n gc).toNat m ≠ 0 →
      Gives (.loop n gc len m) s (fun t => MovedTo n (q.pc + 4) 1 s t ∧ (t.core.seq n).frames =
        { first := q.pc + 4, after := q.pc + 4 + 4 * len, left := Nat.min (s.core.g n gc).toNat m, depth := q.retRec.length } :: q.frames)) ∧
    (∀ a cnt, (s.core.g n a).toNat < cnt →
      let at_ := 0x10000000 + n * 0x40000 + (q.pc + 4 + 4 * (s.core.g n a).toNat)
      (s.core.flipsAt at_ = 0 → Gives (.jtab n a cnt) s (fun t => MovedTo n (q.pc + 4 + 4 * cnt + 4 * leAt s.core.mem at_ 2) 4 s t)) ∧
      (2 ≤ s.core.flipsAt at_ → Does (.jtab n a cnt) s (fun c => ((c.charge n 4).exception n 5).stepDone n))) ∧
    (∀ a cnt, cnt ≤ (s.core.g n a).toNat → Gives (.jtab n a cnt) s (fun t => MovedTo n (q.pc + 4 + 4 * cnt) 4 s t))) ∧
  (∀ (c : Core) (n k : Nat) (f : LoopFrame) (fs : List LoopFrame), (c.seq n).frames = f :: fs → f.depth = (c.seq n).retRec.length →
    (c.seq n).pc + 4 = f.after → f.left = k + 1 →
    (k ≠ 0 → ((c.advance n).seq n).pc = f.first ∧ ((c.advance n).seq n).frames = { f with left := k } :: fs) ∧
    (k = 0 → fs = [] → ((c.advance n).seq n).pc = f.after ∧ ((c.advance n).seq n).frames = []))

/-- WAITT ends the tick: the program waits for its domain's next boundary with its tick-window writes kept if it is in time and discarded if
it is late, and the tick's cycles stand in SEQ_LASTCYC (R33, R36, R58). RENNET seals the draft of the program's world or partition and
writes the 64-bit result to its destination (R49). WAITS ends the tick and sleeps: with the ACTIVE state and no domain selected in PWR_MODE it writes 0 to its destination and the program
waits for its next boundary; with a domain selected, mode refused, it writes 1; such a result to g29 below the stack limit takes exception 3
(R62, R78, R402, R403, R406). All of this holds outside compatibility mode. -/
def Obligations.TicksEndAndDraftsAreSealed : Prop :=
  (∀ (s : State) (n p : Nat), s.core.Executes n p → n < 64 → ((s.core.owner 3 n).world = true ∨ s.core.partActive (s.core.owner 3 n).part = true) →
    Gives (.waitt n p) s (fun t => (t.core.seq n).mode = .waiting ∧ (t.core.seq n).sets = (s.core.seq n).sets ∧
      (t.core.seq n).tw = (if (s.core.st n).late then [] else (s.core.seq n).tw) ∧
      t.core.rd (rg .SEQ_LASTCYC n) = w32 ((s.core.st n).tickCyc + 1) ∧ ∀ m, m ≠ n → t.core.seq m = s.core.seq m) ∧
    ∀ d, Does (.rennet n p d) s (fun c =>
      let x := (c.charge n 40).sealDraft (c.tag (.seq n))
      (x.1.result n d x.2).stepDone n)) ∧
  (∀ (s : State) (n p d : Nat), s.core.Executes n p → s.core.posted = [] → s.core.rdB (rg0 .PWR_CFG) 0 = false →
    ((s.core.owner 3 n).world = true ∨ s.core.partActive (s.core.owner 3 n).part = true) → s.core.rdF (rg .PWR_MODE n) 1 0 = 0 →
    let r : Nat := if s.core.rd (rg .PWR_DOM_SEL n) = 0 then 0 else 1
    ((d = 29 → s.core.stkLim n ≤ r) → Gives (.waits n p d) s (fun t => (t.core.seq n).mode = .sleeping ∧
      t.core.g n d = (if d = 0 then 0 else w64 r) ∧
      t.core.rd (rg .PWR_REQ_RESULT n) = (if s.core.rd (rg .PWR_DOM_SEL n) = 0 then 0 else 6))) ∧
    (d = 29 → r < s.core.stkLim n → Gives (.waits n p d) s (fun t => (t.core.seq n).mode = .waiting ∧ (t.core.seq n).restart = true ∧
      fld (t.core.rd (rg .SEQ_EXC n)) 8 0 = 3)))

/-- FENCE goes to the next word in 4 cycles; DRAIN stays at its word, 64 cycles charged, until DRAIN_COMPLETE goes on; MTS in a handler sets EVPC or
EVPS; TWR appends its word to the tick's window (R35, R56, R62, R64, R71). LDC and STC at a word of control space are the program's read and write of
it, at a cost of 40 and 2 cycles; elsewhere they take exception 2 and reach no block (R24, R62, R64, R69). A program that debug lets run for one
instruction is halted after it (R127). -/
def Obligations.OrderingWindowAndControlInstructions : Prop :=
  (∀ (s : State) (n p : Nat), s.core.posted = [] →
    (s.core.Executes n p →
      Gives (.fence n p) s (fun t => NextWord n 4 s t ∧ (t.core.seq n).sets = (s.core.seq n).sets ∧ OnlySeq n s t) ∧
      Gives (.drain n p) s (fun t => t.core.seq n = { s.core.seq n with dbg := (s.core.seq n).step, step := false } ∧
        t.core.st n = { s.core.st n with tickCyc := (s.core.st n).tickCyc + 64, drain := true } ∧ OnlySeq n s t) ∧
      (∀ a, (s.core.seq n).level ≠ 0 →
        Gives (.mts n p 6 a) s (fun t => (kget {} (t.core.seq n).ctx (s.core.seq n).level).evpc = (s.core.g n a).toNat ∧
          (t.core.seq n).sets = (s.core.seq n).sets ∧ OnlySeq n s t) ∧
        Gives (.mts n p 7 a) s (fun t => (kget {} (t.core.seq n).ctx (s.core.seq n).level).evps = (s.core.g n a).toNat % 1024 ∧
          (t.core.seq n).sets = (s.core.seq n).sets ∧ OnlySeq n s t)) ∧
      ∀ d a (off : BitVec 13),
        let at_ := (s.core.g n a + off.signExtend 64).toNat
        (0x20000000 ≤ at_ ∧ at_ < 0x22000000 ∧ at_ % 4 = 0 →
          Gives (.twr n p d a off) s (fun t => (t.core.seq n).tw = (s.core.seq n).tw ++ [{ addr := at_, value := (s.core.g n d).setWidth 32 }] ∧
            (t.core.seq n).sets = (s.core.seq n).sets ∧ OnlySeq n s t)) ∧
        (¬ (0x20000000 ≤ at_ ∧ at_ < 0x22000000 ∧ at_ % 4 = 0) →
          Does (.twr n p d a off) s (fun c => ((c.charge n 1).exception n 2).stepDone n))) ∧
    ((s.core.st n).drain = true →
      Gives (.drainComplete n) s (fun t => t.core.seq n = (s.core.advance n).seq n ∧ t.core.st n = { s.core.st n with drain := false } ∧
        OnlySeq n s t))) ∧
  (∀ (s : State) (n p d a : Nat) (off : BitVec 13), s.core.Executes n p →
    let at_ := (s.core.g n a + off.signExtend 64).toNat
    (0x20000000 ≤ at_ ∧ at_ < 0x22000000 ∧ at_ % 4 = 0 →
      Does (.ldc n p d a off) s (fun c => let x := (c.charge n 40).ctlRead (.seq n) at_; (x.1.result n d (x.2.setWidth 64)).stepDone n) ∧
      Does (.stc n p d a off) s (fun c => (((c.charge n 2).ctlWrite (.seq n) at_ ((c.g n d).setWidth 32) {}).advance n).stepDone n)) ∧
    (¬ (0x20000000 ≤ at_ ∧ at_ < 0x22000000 ∧ at_ % 4 = 0) →
      Does (.ldc n p d a off) s (fun c => ((c.charge n 40).exception n 2).stepDone n) ∧
      Does (.stc n p d a off) s (fun c => ((c.charge n 2).exception n 2).stepDone n)))

/-- WCALL of a valid gate entry saves g29, g30, g31, the predicates and the PC after it, enters the secure world with g29 at the top of the
service stack; of an entry that is not valid it sets g2 to all ones; an entry in a word with two flipped bits takes exception 5. WRET clears
what the service left but its result registers and goes back to the caller (R57, R74, R75). -/
def Obligations.WorldCallsSaveAndScrub : Prop :=
  ∀ (s : State) (n : Nat), s.core.canRun n = true → s.core.posted = [] →
    let q := s.core.seq n
    let good (svc : Nat) : Prop := s.core.svcSize n = 0 ∨ s.core.secure = false ∨
      s.core.flipsAt (0x10000000 + n * 0x40000 + (0x40000 - s.core.svcSize n + 8 * svc)) = 0
    (∀ svc, s.core.svcSize n ≠ 0 → s.core.secure = true →
      2 ≤ s.core.flipsAt (0x10000000 + n * 0x40000 + (0x40000 - s.core.svcSize n + 8 * svc)) →
      Does (.wcall n svc) s (fun c => ((c.charge n 12).exception n 5).stepDone n)) ∧
    (∀ svc, good svc → (s.core.gate n svc).1 = true → Gives (.wcall n svc) s (fun t =>
      (t.core.seq n).inCall = true ∧ (t.core.seq n).pc = (s.core.gate n svc).2.2 ∧ t.core.g n 29 = 0x40000 ∧
      (∀ e, e ≠ 29 → t.core.g n e = s.core.g n e) ∧ (t.core.seq n).save.pc = q.pc + 4 ∧ (t.core.seq n).save.g29 = s.core.g n 29 ∧
      (t.core.seq n).save.g30 = s.core.g n 30 ∧ (t.core.seq n).save.g31 = s.core.g n 31 ∧ (t.core.seq n).save.p = (s.core.rset n).p ∧
      (t.core.st n).tickCyc = (s.core.st n).tickCyc + 12 ∧ OnlySeq n s t)) ∧
    (∀ svc, good svc → (s.core.gate n svc).1 = false → Gives (.wcall n svc) s (fun t =>
      t.core.g n 2 = BitVec.allOnes 64 ∧ (∀ e, e ≠ 2 → t.core.g n e = s.core.g n e) ∧ NextWord n 12 s t ∧ OnlySeq n s t)) ∧
    (q.inCall = true → Gives (.wret n) s (fun t =>
      (t.core.seq n).inCall = false ∧ (t.core.seq n).pc = q.save.pc ∧ t.core.g n 29 = q.save.g29 ∧ t.core.g n 30 = q.save.g30 ∧
      t.core.g n 31 = q.save.g31 ∧ (t.core.rset n).p = q.save.p ∧ (t.core.seq n).save = {} ∧
      (∀ e, e < 29 → t.core.g n e = if 2 ≤ e ∧ e ≤ 5 ∧ (q.results >>> (e - 2)) % 2 = 1 then s.core.g n e else 0) ∧ OnlySeq n s t))

/-! ### Events -/

namespace Sys2Proof.Machine

/-- Source `src` has become pending with the present time stamp, unless it was pending already; no other source's pending bit or stamp has
changed. -/
def Raised (src : Nat) (s t : State) : Prop :=
  t.core.srcBit .EVR_PEND src = true ∧
  t.core.rd (rg .EVR_SRC_TIME src) = (if s.core.srcBit .EVR_PEND src then s.core.rd (rg .EVR_SRC_TIME src) else s.core.tstamp) ∧
  ∀ u, u < 1024 → u ≠ src → t.core.srcBit .EVR_PEND u = s.core.srcBit .EVR_PEND u ∧ t.core.rd (rg .EVR_SRC_TIME u) = s.core.rd (rg .EVR_SRC_TIME u)

end Sys2Proof.Machine

/-- An event makes a source under a live contract pending and takes its stamp; a second event before delivery changes neither; a source
that no live contract names ignores it. SIG does the same for a software source (R62, R85, R86, R105). Of a network port's source the event is a
PTP message error, which NET_PORT_STATUS bit 1 shows (R188; log entry 208). -/
def Obligations.EventsMakeContractedSourcesPending : Prop :=
  ∀ (s : State) (src : Nat), src < 1024 → s.core.posted = [] →
    let port (r : Reg) : Bool := decide (920 ≤ src ∧ src < 924) && r == rg .NET_PORT_STATUS (src - 920)
    (s.core.srcLive src = true → Gives (.eventRaise src) s (fun t => Raised src s t ∧ OnlyRegs port s t)) ∧
    (s.core.srcLive src = false → Gives (.eventRaise src) s (fun t =>
      (∀ u, u < 1024 → t.core.srcBit .EVR_PEND u = s.core.srcBit .EVR_PEND u) ∧ OnlyRegs port s t)) ∧
    (920 ≤ src → src < 920 + s.core.counts.net → Gives (.eventRaise src) s (fun t => t.core.rdB (rg .NET_PORT_STATUS (src - 920)) 1 = true)) ∧
    ∀ n p, src < 64 → s.core.Executes n p → s.core.srcLive src = true →
      Gives (.sig n p src) s (fun t => Raised src s t ∧ NextWord n 2 s t ∧ (t.core.seq n).sets = (s.core.seq n).sets ∧ OnlySeq n s t)

/-- Event entry: the source the Event Router offers to a sequencer is no longer pending, becomes active and counts one delivery; PC,
predicates and level are saved at the next level, whose handler starts in its own register set, 6 cycles charged (R72, R93, R94). The
source offered is pending, under a live contract, targets the sequencer, and stands above the running context (R92). -/
def Obligations.EventEntryStartsTheHandler : Prop :=
  ∀ (s : State) (n src : Nat), s.core.offered n = some src → s.core.posted = [] →
    let q := s.core.seq n
    (s.core.srcBit .EVR_PEND src = true ∧ s.core.srcLive src = true ∧ s.core.srcTarget src = n ∧ q.prioOf q.level < s.core.srcPrio src + 1) ∧
    Gives (.eventEntry n) s (fun t =>
      t.core.srcBit .EVR_PEND src = false ∧ t.core.srcBit .EVR_ACTIVE src = true ∧
      t.core.rdF (rg .EVR_SRC_STAT src) 15 0 = sat 65535 (s.core.rdF (rg .EVR_SRC_STAT src) 15 0 + 1) ∧
      (t.core.seq n).level = q.level + 1 ∧ (t.core.seq n).pc = s.core.srcHandler src ∧ (t.core.seq n).mode = .running ∧
      (t.core.seq n).sets = q.sets ∧ (t.core.seq n).tw = q.tw ∧ (t.core.seq n).rets = q.rets ∧
      kget {} (t.core.seq n).ctx (q.level + 1) = { evpc := q.pc, evps := (s.core.rset n).p.toNat / 2 * 2 + 1 + q.level * 256
                                                   source := src, prio := s.core.srcPrio src } ∧
      (t.core.st n).tickCyc = (s.core.st n).tickCyc + 6 ∧
      Only (fun r => r.fam == .EVR_ACTIVE) (fun c d => { d with seqs := c.seqs, seqTicks := c.seqTicks }) s t ∧
      ∀ m, m ≠ n → t.core.seq m = s.core.seq m ∧ t.core.st m = s.core.st m)

/-- EVRET ends the handler of level 1 to 3: its source is no longer active; with no eligible source above the context returned to, the PC,
the level and the predicates are those saved at entry, 4 cycles charged; with one, that source's handler starts at the same level, EVPC
and EVPS as they were, 6 cycles charged (R72, R88, R96). A bank switch that waited for the return is left out here. -/
def Obligations.EvretRestoresOrChains : Prop :=
  ∀ (s : State) (n : Nat), s.core.canRun n = true → (s.core.seq n).level ≠ 0 → (s.core.seq n).deferred = false → s.core.posted = [] →
    let q := s.core.seq n
    let x := kget {} q.ctx q.level
    let back := x.evps / 256 % 4
    let d := s.core.releaseSrc x.source
    let next := if d.held n then none else d.best (d.eligible (fun u => d.srcTarget u = n))
    ((∀ u, next = some u → d.srcPrio u + 1 ≤ q.prioOf back) →
      Gives (.evret n) s (fun t => (x.source < 1024 → t.core.srcBit .EVR_ACTIVE x.source = false) ∧
        (t.core.seq n).pc = x.evpc ∧ (t.core.seq n).level = back ∧ (∀ p, 1 ≤ p → p < 8 → t.core.pr n p = x.evps.testBit p) ∧
        (∀ k, t.core.g n k = if k = 0 then 0 else kget 0 (kget {} q.sets back).g k) ∧
        (t.core.seq n).mode = (if back = 0 ∧ q.asleep = true then .waiting else q.mode) ∧
        (t.core.st n).tickCyc = (s.core.st n).tickCyc + 4)) ∧
    (∀ u, next = some u → q.prioOf back < d.srcPrio u + 1 → u ≠ x.source →
      Gives (.evret n) s (fun t => (x.source < 1024 → t.core.srcBit .EVR_ACTIVE x.source = false) ∧ t.core.srcBit .EVR_ACTIVE u = true ∧
        t.core.srcBit .EVR_PEND u = false ∧ (t.core.seq n).pc = s.core.srcHandler u ∧ (t.core.seq n).level = q.level ∧
        (kget {} (t.core.seq n).ctx q.level).evpc = x.evpc ∧ (kget {} (t.core.seq n).ctx q.level).evps = x.evps ∧
        (t.core.st n).tickCyc = (s.core.st n).tickCyc + 6))

/-- The host's sources: the best eligible one passes one message to the HOST block and becomes active (R98); EVR_DONE ends the activity of
the owned active sources among its bits that no handler runs for and of no other source; EVR_REARM schedules the clearing of owned quarantines; EVR_PEND
writes set and clear the pending bits of owned contracted sources that are no levels (R98, R101, R102, R103). Pins: a raw edge flips the pin's raw level and counts as chatter; a filtered transition brings the raw and, of an enabled pin, the filtered
level to the new one, and raises the pin's source where its edge mode counts that direction; while the reference is stopped the filter stands
and an armed latch captures the first edge in the active direction, which the next filtered transition takes as the event or, steady at
the other level, counts as chatter; while it runs the latch captures nothing (R89, R90, R91). -/
def Obligations.SourceBitsAndPinsFollowTheirInputs : Prop :=
  ((∀ (s : State) (f src : Nat), s.core.posted = [] →
    s.core.best (s.core.eligible (fun u => s.core.srcTarget u = 255 && !(s.core.srcBit .EVR_ACTIVE u) && sameOwner (s.core.owner 6 u) { part := f }))
      = some src →
    Gives (.hostSourceMessage f) s (fun t => (s.core.isLevel src = false → t.core.srcBit .EVR_PEND src = false) ∧ t.core.srcBit .EVR_ACTIVE src = true ∧
      t.core.rdF (rg .EVR_SRC_STAT src) 15 0 = sat 65535 (s.core.rdF (rg .EVR_SRC_STAT src) 15 0 + 1) ∧ t.core.seqs = s.core.seqs ∧
      t.core.owners = s.core.owners)) ∧
  ∀ (s : State) (ag : Agent) (o : Owner) (w : Nat) (v : W32), w < 32 → s.core.posted = [] →
    (s.core.granted ag o (rg .EVR_DONE w) v = true → Gives (.evrDone ag w v) s (fun t => (∀ j, j < 32 → let u := 32 * w + j
      t.core.srcBit .EVR_ACTIVE u = (s.core.srcBit .EVR_ACTIVE u && !(bit v j && s.core.ownsSrc o u && !s.core.inHandler u))) ∧
      OnlyRegs (fun r => r == rg .EVR_ACTIVE w) s t)) ∧
    (s.core.granted ag o (rg .EVR_REARM w) v = true → Gives (.evrRearm ag w v) s (fun t => (∀ j, j < 32 → let u := 32 * w + j
      kget false t.core.evr.rearm u = (kget false s.core.evr.rearm u || (bit v j && s.core.srcBit .EVR_QUAR u &&
        (s.core.ownsSrc o u || (isP0 o && !(s.core.owner 6 u).world))))) ∧
      Only (fun _ => false) (fun c d => { d with evr := { d.evr with rearm := c.evr.rearm } }) s t)) ∧
    (s.core.granted ag o (rg .EVR_PEND w) v = true → Gives (.evrPendWrite ag w v) s (fun t => (∀ j, j < 32 → let u := 32 * w + j
      s.core.ownsSrc o u = true → s.core.isLevel u = false → s.core.srcLive u = true → t.core.srcBit .EVR_PEND u = bit v j) ∧
      OnlyRegs (fun _ => false) s t))) ∧
  (∀ (s : State) (pin : Nat) (l : Bool), pin < 32 → s.core.posted = [] →
    Gives (.pinRawEdge pin) s (fun t => t.core.rdB (rg0 .EVR_PIN_RAW) pin = !s.core.rdB (rg0 .EVR_PIN_RAW) pin ∧
      t.core.rdF (rg .EVR_PIN_CHAT pin) 15 0 = sat 65535 (s.core.rdF (rg .EVR_PIN_CHAT pin) 15 0 + 1) ∧
      OnlyRegs (fun r => r == rg0 .EVR_PIN_RAW || r == rg .EVR_PIN_CHAT pin) s t) ∧
    Gives (.pinFilteredTransition pin l) s (fun t => t.core.rdB (rg0 .EVR_PIN_RAW) pin = l ∧
      t.core.rdB (rg0 .EVR_PIN_FILT) pin =
        (if s.core.rdB (rg .EVR_PIN_CFG pin) 0 && !s.core.refStopped then l else s.core.rdB (rg0 .EVR_PIN_FILT) pin) ∧
      (s.core.rdB (rg .EVR_PIN_CFG pin) 0 = true → s.core.refStopped = false → s.core.rdF (rg .EVR_PIN_CFG pin) 3 2 ≠ 3 →
        (kget none s.core.evr.latched pin = none → s.core.rdB (rg0 .EVR_PIN_FILT) pin ≠ l → s.core.pinDir pin l = true →
          s.core.srcLive (992 + pin) = true → t.core.srcBit .EVR_PEND (992 + pin) = true) ∧
        ∀ dir, kget none s.core.evr.latched pin = some dir → kget none t.core.evr.latched pin = none ∧
          (if (if s.core.rdF (rg .EVR_PIN_CFG pin) 3 2 = 2 then l == dir else s.core.pinDir pin l) = true
           then s.core.srcLive (992 + pin) = true → t.core.srcBit .EVR_PEND (992 + pin) = true
           else t.core.rdF (rg .EVR_PIN_CHAT pin) 15 0 = sat 65535 (s.core.rdF (rg .EVR_PIN_CHAT pin) 15 0 + 1))) ∧
      Only (fun r => r == rg0 .EVR_PIN_RAW || r == rg0 .EVR_PIN_FILT || r == rg .EVR_PIN_CHAT pin)
        (fun c d => { d with evr := { d.evr with latched := c.evr.latched }, pwr := c.pwr }) s t) ∧
    (s.core.refStopped = true → s.core.rdB (rg .EVR_PIN_CFG pin) 4 = true → s.core.pinDir pin l = true → kget none s.core.evr.latched pin = none →
      Gives (.pinLatchCapture pin l) s (fun t => kget none t.core.evr.latched pin = some l ∧
        Only (fun _ => false) (fun c d => { d with evr := { d.evr with latched := c.evr.latched }, pwr := c.pwr }) s t)) ∧
    (s.core.refStopped = false → Gives (.pinLatchCapture pin l) s (fun t => OnlyRegs (fun _ => false) s t)))
/-! ### Control space -/

namespace Sys2Proof.Machine

/-- The commands that write one word of control space: requester, address, value, and the outcomes from outside that come with it. -/
def Core.writeOf (c : Core) : Instr → Option (Agent × Nat × W32 × CtlEnv)
  | .registerWrite ag a v => some (ag, a, v, {})
  | .tkgSourceSelect ag v => some (ag, 0x20010000, v, {})
  | .contractAdd ag v | .contractRelease ag v | .contractReplace ag v => some (ag, 0x20021004 + 0x40 * winOf (c.tag ag), v, {})
  | .pwCommit ag => some (ag, 0x20021008 + 0x40 * winOf (c.tag ag), 1, {})
  | .pwDiscard ag w => some (ag, 0x20021008 + 0x40 * w, 2, {})
  | .evrDone ag w v => some (ag, (rg .EVR_DONE w).addr, v, {})
  | .evrRearm ag w v => some (ag, (rg .EVR_REARM w).addr, v, {})
  | .evrPendWrite ag w v => some (ag, (rg .EVR_PEND w).addr, v, {})
  | .create ag p => some (ag, (rg0 .PART_CMD).addr, w32 (256 * p + 1), {})
  | .destroy ag p => some (ag, (rg0 .PART_CMD).addr, w32 (256 * p + 2), {})
  | .partitionReset ag p => some (ag, (rg0 .PART_CMD).addr, w32 (256 * p + 3), {})
  | .run ag p => some (ag, (rg0 .PART_CMD).addr, w32 (256 * p + 4), {})
  | .claim ag => some (ag, (rg0 .PART_CMD).addr, 5, {})
  | .claimRelease ag => some (ag, (rg0 .PART_CMD).addr, 6, {})
  | .potEdit ag => some (ag, (rg0 .POT_EDIT_STATUS).addr, 1, {})
  | .faultLatchClear ag => some (ag, (rg0 .POT_FAULT_INFO).addr, 0x80000000, {})
  | .dmaStart ag ch => some (ag, (rg .DMA_CH_CTRL ch).addr, 1, {})
  | .dmaStop ag ch => some (ag, (rg .DMA_CH_CTRL ch).addr, 2, {})
  | .crcConfigWrite ag n v => some (ag, (rg .CRC_CFG n).addr, v, {})
  | .crcRestart ag n => some (ag, (rg .CRC_CTRL n).addr, 1, {})
  | .crcAliveReset ag n => some (ag, (rg .CRC_CTRL n).addr, 2, {})
  | .crcFeed ag n w v => some (ag, (rg (if w = 1 then .CRC_DATA8 else if w = 2 then .CRC_DATA16 else .CRC_DATA32) n).addr, v, {})
  | .crcCheck ag n v => some (ag, (rg .CRC_RX_LO n).addr, v, {})
  | .publishGuest ag k => some (ag, 0x20002008 + 0x40 * winOf (c.tag ag), w32 k, {})
  | .publishDerived ag k o => some (ag, 0x20002008 + 0x40 * winOf (c.tag ag), w32 (0x40000000 + 65536 * o + k), {})
  | .publishReplay ag k => some (ag, 0x20002008 + 0x40 * winOf (c.tag ag), w32 (0x80000000 + k), {})
  | .publishSynthetic ag k => some (ag, 0x20002008 + 0x40 * winOf (c.tag ag), w32 (0xC0000000 + k), {})
  | .vdeWptrWrite ag v x p => some (ag, (rg2 .VDE_CTX_WPTR v x).addr, p, {})
  | .vdeCancel ag v x => some (ag, (rg2 .VDE_CTX_CTRL v x).addr, 1, {})
  | .layerWrite ag h k off v => if k < 30 then some (ag, 0x20600800 + 0x1000 * h + 0x40 * k + off, v, {}) else none
  | .headEnable ag h en => some (ag, (rg .HD_CTRL h).addr, if en then 1 else 0, {})
  | .syncWrite ag h vert v => some (ag, (rg (if vert then .HD_VSYNC else .HD_HSYNC) h).addr, v, {})
  | .adaptGo ag h => some (ag, (rg .HD_ADAPT_GO h).addr, 1, {})
  | .auxNativeWrite ag t a len => some (ag, (rg .DPT_AUX_CMD t).addr, w32 (0x80000000 + (len - 1) * 0x1000000 + a), {})
  | .auxNativeRead ag t a len => some (ag, (rg .DPT_AUX_CMD t).addr, w32 (0x90000000 + (len - 1) * 0x1000000 + a), {})
  | .auxI2cWrite ag t a len => some (ag, (rg .DPT_AUX_CMD t).addr, w32 ((len - 1) * 0x1000000 + a), {})
  | .auxI2cRead ag t a len => some (ag, (rg .DPT_AUX_CMD t).addr, w32 (0x10000000 + (len - 1) * 0x1000000 + a), {})
  | .holdSet ag n => some (ag, (rg .WIT_HOLD_CTL n).addr, 0x80000000, {})
  | .holdRelease ag n => some (ag, (rg .WIT_HOLD_CTL n).addr, 0x40000000, {})
  | .remove ag m => some (ag, (rg0 .CAVE_MEMBER_CMD).addr, w32 (0x10000000 + m), {})
  | .insert ag m => some (ag, (rg0 .CAVE_MEMBER_CMD).addr, w32 (0x20000000 + m), {})
  | .forceRemove ag m => some (ag, (rg0 .CAVE_MEMBER_CMD).addr, w32 (0x30000000 + m), {})
  | .caveFormat ag ids => some (ag, (rg0 .CAVE_CTRL).addr, setBit (c.rd (rg0 .CAVE_CTRL)) 1 true, { ids := some ids })
  | .tdmConfigWrite ag t v => some (ag, (rg .AUD_TDM_CFG t).addr, v, {})
  | .nsConfigWrite ag n k v => some (ag, (rg2 .AUD_NS_CFG n k).addr, v, {})
  | .inConfigWrite ag i v => some (ag, (rg .AUD_IN_CFG i).addr, v, {})
  | .chimeStart ag v => some (ag, (rg .AUD_CHIME_GO v).addr, 1, {})
  | .chimeStop ag v => some (ag, (rg .AUD_CHIME_GO v).addr, 2, {})
  | .tslWrite ag t n a => some (ag, (rg .TCH_TSL_CMD t).addr, w32 (0x80000000 + (n - 1) * 0x1000000 + a), {})
  | .tslRead ag t n a => some (ag, (rg .TCH_TSL_CMD t).addr, w32 (0x90000000 + (n - 1) * 0x1000000 + a), {})
  | .touchStart ag t => some (ag, (rg .TCH_CTRL t).addr, 1, {})
  | .touchStop ag t => some (ag, (rg .TCH_CTRL t).addr, 0, {})
  | .rebase ag t => some (ag, (rg .TCH_CTRL t).addr, if c.rdB (rg .TCH_STATUS t) 29 then 3 else 2, {})
  | .touchSelftest ag t => some (ag, (rg .TCH_CTRL t).addr, if c.rdB (rg .TCH_STATUS t) 29 then 5 else 4, {})
  | .hptGo ag ch v => some (ag, (rg .HPT_GO ch).addr, v, {})
  | .hapticSelftest ag ch => some (ag, (rg .HPT_CTRL ch).addr, c.rd (rg .HPT_CTRL ch) ||| 4, {})
  | .hapticDisable ag ch => some (ag, (rg .HPT_CTRL ch).addr, c.rd (rg .HPT_CTRL ch) &&& ~~~1, {})
  | .exportEnable ag x v room => some (ag, (rg .RGL_EXP_CTRL x).addr, v, { room := some room })
  | _ => none

end Sys2Proof.Machine

/-- Every command that is a write of one control-space word is journalled as that write and then has the effect of the register it reaches, when its requester passes the gate (R11, R23, R24, R38, R108, R420). -/
def Obligations.RegisterCommandsHaveTheirRegistersEffect : Prop :=
  ∀ (i : Instr) (s : State) (ag : Agent) (t : Owner) (r : Reg) (v : W32) (e : CtlEnv),
    i.wf = true → s.core.writeOf i = some (ag, r.addr, v, e) → s.core.granted ag t r v = true → isRwp r = false →
    Does i s (fun c => (c.logWrite ag r.addr 0 v).unitEffect ag t r v e)

/-- Every register of the map stands at its own address, an aligned word of control space: the map reads back the register it gave the
address to, so no two registers share one. -/
def Obligations.EveryRegisterHasItsOwnAddress : Prop :=
  ∀ r : Reg, (if r.fam.info.flat then r.i < r.fam.info.n1 * r.fam.info.n2 ∧ r.j = 0 else r.i < r.fam.info.n1 ∧ r.j < r.fam.info.n2) →
    regAt r.addr = some r ∧ 0x20000000 ≤ r.addr ∧ r.addr < 0x22000000 ∧ r.addr % 4 = 0

/-- A register without behaviour of its own takes a written value in its RW bits, clears its W1C bits where the value is 1 and keeps the others
(R11); the bits are those the writer may change (R102). -/
def Obligations.PlainRegistersTakeTheirWritableBits : Prop :=
  ∀ (c : Core) (t : Owner) (r : Reg) (v : W32),
    let m := c.ownBits t r
    ∀ j, j < 32 → bit ((c.plainWrite t r v).rd r) j =
      if bit m j && bit (w32 r.fam.info.w1c) j && bit v j then false
      else if bit m j && bit (w32 r.fam.info.rw) j then bit v j else bit (c.rd r) j

/-- A write that the gate turns away changes no register but the record of the refusal: at an address that names no register or one that is
absent or off, outside control space or unaligned, nothing (R5, R23, R24); without the right, POT_FAULT_CNT counts and, while no fault is
latched, POT_FAULT_INFO and POT_FAULT_ADDR take requester and address (R109). -/
def Obligations.WritesTurnedAwayChangeNothingElse : Prop :=
  ∀ (s : State) (ag : Agent) (a : Nat) (v : W32), s.core.posted = [] →
    ((regAt a = none ∨ ¬ (0x20000000 ≤ a ∧ a < 0x22000000 ∧ a % 4 = 0) ∨ s.core.awake = false ∨ (∃ r, regAt a = some r ∧ s.core.reachable r = false)) →
      Gives (.registerWrite ag a v) s (fun t => OnlyRegs (fun _ => false) s t)) ∧
    ∀ (r : Reg) (o : Owner), 0x20000000 ≤ a ∧ a < 0x22000000 ∧ a % 4 = 0 → s.core.awake = true → regAt a = some r → s.core.reachable r = true →
      s.core.ctlTag ag r = some o → (s.core.canLog o = true ∨ ∃ n, ag = .seq n) → s.core.mayWrite ag o r v = false → r.fam.info.wr ≠ .window →
      Gives (.registerWrite ag a v) s (fun t =>
        t.core.rdF (rg0 .POT_FAULT_CNT) 15 0 = sat 65535 (s.core.rdF (rg0 .POT_FAULT_CNT) 15 0 + 1) ∧
        (s.core.rdB (rg0 .POT_FAULT_INFO) 31 = false →
          t.core.rdPair (rg0 .POT_FAULT_ADDR_LO) (rg0 .POT_FAULT_ADDR_HI) = a ∧ t.core.rdB (rg0 .POT_FAULT_INFO) 31 = true ∧
          t.core.rdB (rg0 .POT_FAULT_INFO) 30 = true ∧ t.core.rdB (rg0 .POT_FAULT_INFO) 29 = (s.core.tag ag).world ∧
          t.core.rdF (rg0 .POT_FAULT_INFO) 28 23 = (s.core.tag ag).part % 64 ∧ t.core.rdF (rg0 .POT_FAULT_INFO) 22 20 = (agCls ag).1 % 8 ∧
          t.core.rdF (rg0 .POT_FAULT_INFO) 19 12 = (agCls ag).2 % 256 ∧ t.core.rdF (rg0 .POT_FAULT_INFO) 3 0 = 1) ∧
        OnlyRegs (fun q => q == rg0 .POT_FAULT_CNT || (!s.core.rdB (rg0 .POT_FAULT_INFO) 31 &&
          (q == rg0 .POT_FAULT_ADDR_LO || q == rg0 .POT_FAULT_ADDR_HI || q == rg0 .POT_FAULT_INFO))) s t)

namespace Sys2Proof.Machine

/-- The held first words of complement pairs and the copies of paired stores, put back for a frame. -/
def samePairs (c d : Core) : Core := { d with pot := { d.pot with held := c.pot.held, copies := c.pot.copies } }

end Sys2Proof.Machine

/-- Complement pairs: the first word changes no register and is held; a second word from the same requester in time that is not the complement
is a MISMATCH, one from another an INTRUDER and leaves the held word; 16 fabric cycles without a second word are a TIMEOUT: each counts in
POT_PAIR_CNT with its kind in POT_PAIR_INFO, the register unchanged. PAIRED_WRITE writes both words and has the register's effect (R124, R125). -/
def Obligations.ComplementPairsGuardTheirRegisters : Prop :=
  (∀ (s : State) (ag : Agent) (o : Owner) (r : Reg) (v : W32), s.core.posted = [] → s.core.granted ag o r v = true → isRwp r = true →
    (kget none s.core.pot.held r.addr = none → Gives (.registerWrite ag r.addr v) s (fun t =>
      kget none t.core.pot.held r.addr = some { value := v, agent := agKey ag, at_ps := s.core.now } ∧
      Only (fun _ => false) samePairs s t)) ∧
    ∀ h : HeldWord, kget none s.core.pot.held r.addr = some h → s.core.now ≤ h.at_ps + s.core.pairPs →
      let bad (k : Nat) (left : Option HeldWord) : Prop := Gives (.registerWrite ag r.addr v) s (fun t =>
        t.core.rdF (rg0 .POT_PAIR_INFO) 31 28 = k ∧ kget none t.core.pot.held r.addr = left ∧
        t.core.rdF (rg0 .POT_PAIR_CNT) 15 0 = sat 65535 (s.core.rdF (rg0 .POT_PAIR_CNT) 15 0 + 1) ∧
        Only (fun q => q == rg0 .POT_PAIR_INFO || q == rg0 .POT_PAIR_CNT) samePairs s t)
      (h.agent = agKey ag → v ≠ ~~~h.value → bad 1 none) ∧ (h.agent ≠ agKey ag → bad 3 (some h)) ∧
      (h.agent = agKey ag → v = ~~~h.value → Does (.registerWrite ag r.addr v) s (fun c =>
        (((c.logWrite ag r.addr 0 v).setHeld (kset none c.pot.held r.addr none)).repair r.addr).unitEffect ag o r v {}))) ∧
  (∀ (s : State) (a : Nat) (h : HeldWord), s.core.posted = [] → s.core.awake = true → kget none s.core.pot.held a = some h →
    Gives (.pairTimeout a) s (fun t => t.core.rdF (rg0 .POT_PAIR_INFO) 31 28 = 2 ∧ kget none t.core.pot.held a = none ∧
      h.at_ps + s.core.pairPs < t.core.now ∧ t.core.rdF (rg0 .POT_PAIR_CNT) 15 0 = sat 65535 (s.core.rdF (rg0 .POT_PAIR_CNT) 15 0 + 1) ∧
      Only (fun q => q == rg0 .POT_PAIR_INFO || q == rg0 .POT_PAIR_CNT) (fun c d => { samePairs c d with now := c.now }) s t)) ∧
  ∀ (s : State) (ag : Agent) (o : Owner), s.core.posted = [] → s.core.jfill < 65000 →
    (∀ (r : Reg) (v : W32), isRwp r = true → s.core.granted ag o r v = true → s.core.granted ag o r (~~~v) = true →
      kget none s.core.pot.held r.addr = none →
      Does (.pairedWrite ag r.addr v) s (fun c =>
        let d := c.logWrite ag r.addr 0 (~~~v)
        let d := d.setHeld (kset none d.pot.held r.addr (some { value := ~~~v, agent := agKey ag, at_ps := c.now }))
        (((d.logWrite ag r.addr 0 v).setHeld (kset none d.pot.held r.addr none)).repair r.addr).unitEffect ag o r v {})) ∧
    ∀ n, n < 8 → s.core.granted ag o (rg0 .ADM_PL_FLOOR) (w32 n) = true → s.core.granted ag o (rg0 .ADM_PL_FLOOR) (~~~(w32 n)) = true →
      kget none s.core.pot.held 0x20020008 = none → s.core.rdF (rg0 .ADM_PL_FLOOR) 2 0 ≤ n →
      Gives (.plFloorWrite ag n) s (fun t => t.core.rd (rg0 .ADM_PL_FLOOR) = w32 n ∧ kget none t.core.pot.held 0x20020008 = none)

/-- Reads: the value a requester may see; reading the lower half of a 64-bit pair latches the upper half for that requester (R426); reading
AUD_METER returns the peak held and clears it (R330). A host function's BAR0 reads and writes are those of its tag, and its completion carries
the data (R366). -/
def Obligations.ReadsGiveWhatTheRequesterMaySee : Prop :=
  ∀ (s : State) (ag : Agent) (o : Owner) (r : Reg), s.core.posted = [] → s.core.awake = true → s.core.reachable r = true →
    s.core.ctlTag ag r = some o → s.core.mayRead ag o r = true → 0x20000000 ≤ r.addr ∧ r.addr < 0x22000000 ∧ r.addr % 4 = 0 →
    regAt r.addr = some r →
    (∀ h, r.fam.info.pair = .lo → regAt (r.addr + 4) = some h →
      Gives (.loReadLatch ag r.addr) s (fun t => t.core.resp.data = (s.core.shown o r (s.core.value r)).setWidth 64 ∧
        kget none t.core.loLatch (latchKey ag h) = some (s.core.shown o h (s.core.value h)) ∧
        Only (fun _ => false) (fun c d => { d with loLatch := c.loLatch, resp := c.resp }) s t)) ∧
    (∀ k, r = rg .AUD_METER k → k < 64 → Gives (.meterRead ag k) s (fun t => t.core.resp.data = (s.core.rd r).setWidth 64 ∧
      t.core.rdF r 31 16 = 0 ∧ t.core.rdF r 15 0 = s.core.rdF r 15 0 ∧ Only (fun q => q == r) (fun c d => { d with resp := c.resp }) s t)) ∧
    ∀ f, ag = .host f → f < 64 → s.core.rdB (rg0 .HOST_LINK) 31 = true → s.core.fnState f = 0 → s.core.boot.recovery = false →
      (∀ v, Does (.hostBarAccess f 0 false (r.addr - 0x20000000) 4 v) s (fun c =>
        let x := c.ctlRead ag r.addr
        { x.1 with resp := { status := 0, data := x.2.setWidth 64 } })) ∧
      ∀ v w, s.core.granted ag o r (v.setWidth 32) = true → isRwp r = false → w = v.setWidth 32 →
        Does (.hostBarAccess f 0 true (r.addr - 0x20000000) 4 v) s (fun c => (c.logWrite ag r.addr 0 w).unitEffect ag o r w {})

/-! ### Ticks and time -/

/-- The master boundary and its commit switch, the boundaries of heads and audio domains, and the close of tick windows take their phases in
the order of R34: close 32 sequencer cycles before the boundary, count, strobe, phase measurement, overruns and tick-window writes; 2 µs later level, drafts, banks, resets, and one
fabric cycle on sources 64 and 65 and the wake (R30, R31, R33, R34, R35). -/
def Obligations.BoundariesTakeTheirPhasesInOrder : Prop :=
  ∀ s : State, s.core.awake = true →
    (s.core.tkg.inApply = false →
      (∀ e, Does (.masterBoundary e) s (fun c =>
        let k := c.tickOf 0 + 1
        let b := c.psOf (c.boundaryNs k)
        let d := ((c.upTo b).closeDom 0 b).wrPair (rg0 .TKG_TICK_LO) (rg0 .TKG_TICK_HI) k
        let d := (d.setTkg { d.tkg with inApply := true, starts := kset 0 d.tkg.starts 0 (d.boundaryNs k) }).evrStrobe
        let d := (d.setJnl { d.jnl with merge := [] }).pairCompare
        ((((d.tkgPhase e).portTick).hqTick).boundary 0 b).starterTick)) ∧
      s.core.nextTickPs 0 = some (s.core.psOf (s.core.boundaryNs (s.core.tickOf 0 + 1)))) ∧
    (∀ h, h < 16 → (s.core.head h).tickDue = true → s.core.nextTickPs (0x10 + h) = some (s.core.head h).tickPs) ∧
    (∀ dom, Does (.tickWindowClose dom) s (fun c => match c.nextTickPs dom with
      | some b => (c.upTo (b - 32000000 / c.seqMHz)).closeDom dom b
      | none => c)) ∧
    (s.core.tkg.inApply = true → Does .commitSwitch s (fun c =>
      let d := (((c.upTo (c.psOf (c.boundaryNs (c.tickOf 0)) + 2000000)).levelSwitch).switchDom 0).commitAll
      let e := ((d.1.partsWith PartRun.resetAt).foldl Core.resetDone d.1).hqSwitch
      let e := (e.upTo (e.now + e.fabricPs)).raise 64
      let e := (if d.2 then e.raise 65 else e).wakeDom 0
      e.setTkg { e.tkg with inApply := false })) ∧
    (∀ h, (s.core.head h).tickDue = true → Does (.headTick h) s (fun c =>
      let x := c.head h
      let d := (c.upTo x.tickPs).tickAt (0x10 + h) x.tickPs x.tickIdx (69 + h) (fun c => c.layersIn h)
      d.setHead h { d.head h with tickDue := false })) ∧
    ∀ d, s.core.audOn d = true → ((s.core.mixToTick d).audDom d).tickDue = true → Does (.audioTick d) s (fun c =>
      let c := c.mixToTick d
      let k := (c.audDom d).pos - 1
      let e := (c.upTo (c.sampleAt d k)).tickAt (0x20 + d) (c.sampleAt d k) (k / 16) (85 + d) (fun c => c)
      e.setAudDom d { e.audDom d with tickDue := false })

/-- At the close a program short of WAITT, or that reached it only after the closing time, or that debug kept from running, is late and its
tick-window writes are gone, one that waits is in time (R33, R36, R127). At the boundary a
late program's writes are not applied and its overrun counts; in time, its writes are applied in program order and the row of overruns ends
(R35, R36); TKG_OVR_LIMIT overruns in a row halt it (R37). At the wake a program that waits in a domain whose owner runs starts at its entry in its active bank with its registers as they stand; one to
be restarted starts with fresh sets, no return records and no loops; its tick's cycles and tick-window writes count from 0 (R34, R56, R58, R59,
R78). -/
def Obligations.TicksStartAtTheEntryAndLateOnesCount : Prop :=
  (∀ (c : Core) (n at_ : Nat), n < 64 →
    let q := c.seq n
    let t := c.st n
    let miss := (q.mode == .running && !q.asleep) || (t.ran && decide (at_ < t.doneAt)) || (q.dbg && q.mode != .halted && !t.ran)
    (t.closed = false → ((c.closeSeq n at_).st n).closed = true ∧ ((c.closeSeq n at_).st n).late = (t.late || miss) ∧
      ((c.closeSeq n at_).seq n).tw = (if miss then [] else q.tw)) ∧
    (t.late = true → c.applySeq n = c ∧ ((c.overrunSeq n).st n).overs = t.overs + 1 ∧
      (c.overrunSeq n).rdB (rg .TKG_OVR_STAT (n / 32)) (n % 32) = true ∧
      (c.overrunSeq n).rdF (rg .TKG_OVR_CNT n) 15 0 = sat 65535 (c.rdF (rg .TKG_OVR_CNT n) 15 0 + 1) ∧
      (((c.overrunSeq n).seq n).mode = .halted ↔ q.mode = .halted ∨
        (q.dbg = false ∧ c.rdF (rg0 .TKG_OVR_LIMIT) 7 0 ≠ 0 ∧ c.rdF (rg0 .TKG_OVR_LIMIT) 7 0 ≤ t.overs + 1))) ∧
    (t.late = false → ((c.overrunSeq n).st n).overs = 0 ∧ (c.overrunSeq n).seqs = c.seqs ∧ (c.overrunSeq n).regs = c.regs ∧
      c.applySeq n = (c.setSeq n { q with tw := [] }).twrAll n q.tw)) ∧
  (∀ (c : Core) (n : Nat) (i : Image), (c.seq n).live = some i → (c.seq n).mode = .waiting → (c.seq n).change = none →
    (c.seq n).deferred = false → (c.seq n).dbg = false → c.ownerRuns n = true → (c.seq n).level = 0 →
    let q := c.seq n
    let d := c.wakeSeq n
    (d.seq n).mode = .running ∧ (d.seq n).pc = bankBase q.bank + 4 * i.entry ∧ (d.st n).tickCyc = 0 ∧ (d.st n).late = false ∧
    (d.st n).closed = false ∧ (d.st n).epoch = c.rd (rg0 .ADM_EPOCH) ∧ d.special n 2 = w64 (c.rd (rg0 .ADM_EPOCH)).toNat ∧ d.special n 10 = 0 ∧
    (q.restart = false → (d.seq n).sets = q.sets ∧ (d.seq n).tw = q.tw) ∧
    (q.restart = true → (d.seq n).rets = [] ∧ (d.seq n).loops = [] ∧ ∀ k, k < 4 → (kget {} (d.seq n).sets k).p = ({} : RegSet).p ∧
      ∀ g, kget 0 (kget {} (d.seq n).sets k).g g = if g = 29 then w64 (c.stackTop n k) else 0) ∧
    ∀ m, m ≠ n → d.seq m = c.seq m ∧ d.st m = c.st m)

/-- Time: valid information from the selected source, and from no other, takes FREE and HOLDOVER to ACQUIRE; its loss takes LOCKED to HOLDOVER
and ACQUIRE back; a phase step, taken only with step_ok, a valid source and no head scanning, moves PTP time and sets TKG_TICK to the index of
R28; a time frame off by more than 1 µs is reported (R28, R29, R385). The phase discipline at a boundary: 16 boundaries in a row within 1 µs take ACQUIRE to LOCKED, 4 in a row beyond it take LOCKED to ACQUIRE, any
other count keeps the state; TKG_STATUS shows the phase error in ns; in ACQUIRE the boundary moves by that error, at most 100 ppm of the period
(log entry 148), in LOCKED none moves (R29). -/
def Obligations.TimeFollowsTheSelectedSource : Prop :=
  (∀ s : State, s.core.posted = [] → s.core.awake = true →
    let st := s.core.tkgState
    let L : Reg → Bool := fun r => r == rg0 .TKG_STATUS || r.fam == .HD_FRESH_STATUS || r == rg0 .RGL_EVT
    let K : Core → Core → Core := fun c d => { d with tkg := c.tkg, now := c.now }
    (∀ src, src < 3 → src = s.core.tkgSrc → Gives (.timeInfo src) s (fun t => t.core.tkg.srcValid = true ∧ t.core.tkg.infoAt = s.core.now ∧
      t.core.tkgState = (if st = 0 ∨ st = 3 then 1 else st) ∧ Only L K s t)) ∧
    (∀ src, src ≠ s.core.tkgSrc → Gives (.timeInfo src) s (fun t =>
      t.core.tkg = (if src < 3 then { s.core.tkg with seen := kset 0 s.core.tkg.seen src (s.core.now + 1) } else s.core.tkg) ∧
      Only (fun _ => false) (fun c d => { d with tkg := c.tkg }) s t)) ∧
    (s.core.tkg.srcValid = true → Gives .sourceLossTimeout s (fun t => t.core.tkg.srcValid = false ∧ t.core.rdB (rg0 .TKG_STATUS) 2 = false ∧
      t.core.tkgState = (if st = 2 then 3 else if st = 1 then (if s.core.tkg.everLocked then 3 else 0) else st) ∧
      s.core.tkg.infoAt + (if s.core.tkgSrc = 2 then 1000000000 else 1000000000000) ≤ t.core.now ∧ Only L K s t)) ∧
    (∀ step, s.core.tkg.inApply = false → s.core.rdB (rg0 .TKG_CTRL) 1 = true → s.core.tkg.srcValid = true → (st = 1 ∨ st = 2) →
      (∀ h, h < 16 → s.core.scanning h = false) → Gives (.phaseStep step) s (fun t => t.core.ptpOff = s.core.ptpOff + step ∧
        (let num := s.core.rdN (rg0 .TKG_MASTER_NUM)
         let den := s.core.rdN (rg0 .TKG_MASTER_DEN)
         let k := t.core.rdPair (rg0 .TKG_TICK_LO) (rg0 .TKG_TICK_HI)
         0 < num → num ≤ 1000000000 * den → t.core.ns < 2 ^ 60 →
           k * den * 1000000000 / num ≤ t.core.ns ∧ t.core.ns < (k + 1) * den * 1000000000 / num ∧
           ∀ i, t.core.boundaryNs i = i * den * 1000000000 / num) ∧
        (∀ w, (t.core.draft w).ops = (s.core.draft w).ops) ∧
        Only (fun r => r == rg0 .TKG_TICK_LO || r == rg0 .TKG_TICK_HI) (fun c d =>
          { d with tkg := c.tkg, ptpOff := c.ptpOff, partRuns := c.partRuns, adm := { d.adm with drafts := c.adm.drafts } }) s t)) ∧
    (∀ step, s.core.rdB (rg0 .TKG_CTRL) 1 = false → Gives (.phaseStep step) s (fun t => t.core.ptpOff = s.core.ptpOff ∧ OnlyRegs (fun _ => false) s t)) ∧
    ∀ err : Int, s.core.tkgSrc = 2 → (s.core.portUp 0 || s.core.portUp 1) = true → Gives (.timeFrame err) s (fun t =>
      t.core.tkg.srcValid = true ∧ t.core.rdB (rg0 .RGL_EVT) 3 = (s.core.rdB (rg0 .RGL_EVT) 3 || decide (1000 < err.natAbs)) ∧ Only L K s t)) ∧
  (∀ (c : Core) (e : Int), -8388607 ≤ e → e ≤ 8388607 → c.tkg.srcValid = true → (c.tkgState = 1 ∨ c.tkgState = 2) →
    let inside := decide (e.natAbs ≤ 1000)
    let d := c.tkgPhase e
    d.tkgState = (if c.tkgState = 1 ∧ inside = true ∧ 16 ≤ c.tkg.good + 1 then 2
      else if c.tkgState = 2 ∧ inside = false ∧ 4 ≤ c.tkg.bad + 1 then 1 else c.tkgState) ∧
    (d.tkgState = c.tkgState → d.tkg.good = (if inside then c.tkg.good + 1 else 0) ∧ d.tkg.bad = (if inside then 0 else c.tkg.bad + 1)) ∧
    (BitVec.ofNat 24 (d.rdF (rg0 .TKG_STATUS) 31 8)).toInt = e ∧ d.rdB (rg0 .TKG_STATUS) 2 = decide (e ≠ 0) ∧
    (d.tkgState = 1 → c.tkgState = 1 →
      let k := c.tickOf 0
      let m : Int := ((c.boundaryNs (k + 1) - c.boundaryNs k) / 10000 : Nat)
      (d.boundaryNs k : Int) = max 0 ((c.boundaryNs k : Int) - max (-m) (min m e))) ∧
    (d.tkgState = 2 → c.tkgState = 2 → ∀ k, d.boundaryNs k = c.boundaryNs k))
/-! ### Admission -/

namespace Sys2Proof.Machine

/-- A unit that may read these bytes reads them as they stand in memory: no boot ROM, every byte powered, no request at the DRAM controller
that would be performed first. -/
def Core.PlainRead (c : Core) (a n : Nat) : Prop :=
  c.place a ≠ .rom ∧ (∀ k, k < n → c.memOn (a + k) = true) ∧ c.dmc.reqs = []

/-- What a descriptor's 64 bytes enter into a draft: the operation its byte 5 names, with its words and target. -/
def Entered (bs : List Byte) : DraftOp → Prop
  | .add x => x.words = (wordsOf bs).map w32 ∧ x.op = 1
  | .replace i x => x.words = (wordsOf bs).map w32 ∧ x.op = 3 ∧ i = x.target
  | .release i => ({ id := 0, sub := 0, words := (wordsOf bs).map w32 } : Contract).op = 2 ∧ i = ({ id := 0, sub := 0, words := (wordsOf bs).map w32 } : Contract).target

end Sys2Proof.Machine

/-- A submission (ADD, RELEASE, REPLACE) of a descriptor that can be read without an error changes no live contract, no epoch and no other window's
draft: it is refused, with ADM_PW_RESULT.refused and the draft as it was, or it enters the descriptor's one operation at the end of the requester's
draft, which was not sealed (R39, R45, R47, R50, R54). -/
def Obligations.SubmissionsOnlyExtendTheOwnDraft : Prop :=
  ∀ (s : State) (ag : Agent) (o : Owner) (hi : W32), s.core.posted = [] →
    let w := winOf (s.core.tag ag)
    let addr := (s.core.rdN (rg .ADM_PW_DESC_LO w) + hi.toNat * 4294967296) % 281474976710656
    s.core.granted ag o (rg .ADM_PW_DESC_HI w) hi = true → s.core.PlainRead addr 64 →
    ∀ i, i = .contractAdd ag hi ∨ i = .contractRelease ag hi ∨ i = .contractReplace ag hi →
      Gives i s (fun t => t.core.adm.live = s.core.adm.live ∧ t.core.rd (rg0 .ADM_EPOCH) = s.core.rd (rg0 .ADM_EPOCH) ∧
        (∀ u, u ≠ w → t.core.draft u = s.core.draft u) ∧
        ((t.core.rdB (rg .ADM_PW_RESULT w) 31 = true ∧ t.core.draft w = s.core.draft w) ∨
         (t.core.rdB (rg .ADM_PW_RESULT w) 31 = false ∧ (s.core.draft w).sealed = none ∧
          ∃ op, Entered (s.core.bytes addr 64) op ∧ t.core.draft w = { s.core.draft w with ops := (s.core.draft w).ops ++ [op] })))

/-- PW_COMMIT seals a draft that holds operations for the first boundary whose cut-off is not past, with the epoch it will have; an empty or sealed
draft stays. PW_DISCARD empties the window's draft and the inactive banks that it filled. Neither changes a live contract (R47, R48, R49, R53). -/
def Obligations.SealsAndDiscardsActOnTheDraft : Prop :=
  ∀ (s : State) (ag : Agent) (o : Owner), s.core.posted = [] → s.core.jfill < 65000 →
    let w := winOf (s.core.tag ag)
    (s.core.granted ag o (rg .ADM_PW_CMD w) 1 = true → s.core.canLog o = true → Gives (.pwCommit ag) s (fun t =>
      t.core.draft w = (if (s.core.draft w).sealed = none ∧ (s.core.draft w).ops ≠ []
        then { s.core.draft w with sealed := some s.core.nextBoundary, epoch := s.core.epochAt s.core.nextBoundary } else s.core.draft w) ∧
      t.core.adm.live = s.core.adm.live ∧ (∀ u, u ≠ w → t.core.draft u = s.core.draft u) ∧
      Only (fun _ => false) (fun c d => { d with adm := c.adm }) s t)) ∧
    ∀ u, s.core.granted ag o (rg .ADM_PW_CMD u) 2 = true → u < 65 → Gives (.pwDiscard ag u) s (fun t =>
      t.core.draft u = {} ∧ t.core.adm.live = s.core.adm.live ∧ (∀ k, k ≠ u → t.core.draft k = s.core.draft k) ∧
      (∀ x, (.add x ∈ (s.core.draft u).ops ∨ ∃ i, .replace i x ∈ (s.core.draft u).ops) → x.kind = kPROGRAM → (t.core.seq x.unit).next = none) ∧
      Only (fun _ => false) (fun c d => { d with adm := c.adm, seqs := c.seqs }) s t)

/-! ### Partitions and page owners -/

/-- CREATE and CLAIM, of a descriptor that can be read without an error: with PART_RESULT.code 0 every unit the descriptor names belongs to the
partition, which is STOPPED, or to the secure world; RELEASE: with code 0 the units named belong to nobody; with any other code no owner record has
changed (R112, R122, R131). -/
def Obligations.GrantsPassEveryNamedUnitOrNone : Prop :=
  ∀ (s : State) (ag : Agent) (o : Owner) (p : Nat), s.core.posted = [] → p < 64 →
    let addr := s.core.rdPair (rg0 .PART_DESC_LO) (rg0 .PART_DESC_HI)
    let bs := s.core.bytes addr 320
    let given (i : Instr) (w : Owner) (st : Nat) : Prop := Gives i s (fun t =>
      (t.core.rdF (rg0 .PART_RESULT) 3 0 ≠ 0 → t.core.owners = s.core.owners ∧ t.core.partState p = s.core.partState p) ∧
      (t.core.rdF (rg0 .PART_RESULT) 3 0 = 0 → t.core.partState p = st ∧ ∀ g ∈ gFields bs, ∀ i ∈ g.items, t.core.owner g.kind i = w))
    s.core.PlainRead addr 320 →
    (s.core.granted ag o (rg0 .PART_CMD) (w32 (256 * p + 1)) = true → given (.create ag p) { granted := true, part := p } 1) ∧
    (s.core.granted ag o (rg0 .PART_CMD) 5 = true → given (.claim ag) { granted := true, world := true } (s.core.partState p)) ∧
    (s.core.granted ag o (rg0 .PART_CMD) 6 = true → given (.claimRelease ag) {} (s.core.partState p))

/-- RUN, RESET and DESTROY by the secure world or partition 0 of partitions 1 to 63 move the partition between its states: RUN starts a STOPPED one;
RESET resets a STOPPED or ACTIVE one, which will be STOPPED at the next boundary; DESTROY takes a STOPPED one to DESTROYING and resets an ACTIVE one
first; in a state that does not allow it the command answers its code and changes no partition (R128, R130, R131, R132). -/
def Obligations.PartitionCommandsMoveBetweenStates : Prop :=
  ∀ (s : State) (ag : Agent) (o : Owner) (p : Nat), s.core.posted = [] → 0 < p → p < 64 → s.core.jfill < 65000 → s.core.canLog (s.core.tag ag) = true →
    (s.core.isSecure (s.core.tag ag) = true ∨ isP0 (s.core.tag ag) = true) →
    let st := s.core.partState p
    let ends (k : Nat) (f : Core → Core) (c : Core) (op : Nat) : Core :=
      let d := (f (c.logWrite ag (rg0 .PART_CMD).addr 0 (w32 (256 * p + op)))).wr (rg0 .PART_RESULT) (w32 k)
      if d.canLog (d.tag ag) then d.log jPart k (d.origin ag) (w32 p) (w32 op) 0 else d
    let codeIs (i : Instr) (k : Nat) : Prop := Gives i s (fun t => t.core.rd (rg0 .PART_RESULT) = w32 k ∧ t.core.partState p = st ∧
      OnlyRegs (fun r => r == rg0 .PART_RESULT) s t)
    (s.core.granted ag o (rg0 .PART_CMD) (w32 (256 * p + 4)) = true →
      (st = 1 → Does (.run ag p) s (fun c => ends 0 (fun d => d.partGo p) c 4)) ∧ (st = 2 → codeIs (.run ag p) 0) ∧ (st = 3 → codeIs (.run ag p) 6) ∧
      (st = 0 ∨ st = 4 → codeIs (.run ag p) 8)) ∧
    (s.core.granted ag o (rg0 .PART_CMD) (w32 (256 * p + 3)) = true →
      (st = 1 ∨ st = 2 → Does (.partitionReset ag p) s (fun c => ends 0 (fun d => d.resetStart p false) c 3)) ∧
      (st = 3 → codeIs (.partitionReset ag p) 0) ∧ (st = 4 → codeIs (.partitionReset ag p) 6) ∧ (st = 0 → codeIs (.partitionReset ag p) 8)) ∧
    (s.core.granted ag o (rg0 .PART_CMD) (w32 (256 * p + 2)) = true →
      (st = 1 → Gives (.destroy ag p) s (fun t => t.core.partState p = 4 ∧ t.core.rd (rg0 .PART_RESULT) = 0 ∧
        (t.core.partRun p).releaseAt = some (if s.core.tkg.inApply then s.core.tickOf 0 else s.core.tickOf 0 + 1) ∧
        Only (fun r => r == rg0 .PART_RESULT || r == rg .PART_STATE p) (fun c d => { d with partRuns := c.partRuns }) s t)) ∧
      (st = 2 → Does (.destroy ag p) s (fun c => ends 0 (fun d => let e := d.resetStart p false; e.setPartRun p { e.partRun p with destroy := true }) c 2)) ∧
      (st = 3 → Gives (.destroy ag p) s (fun t => (t.core.partRun p).destroy = true ∧ t.core.partState p = 3)) ∧
      (st = 0 ∨ st = 4 → codeIs (.destroy ag p) 0))

/-- The Page Owner Table: an edit of the secure world inside the table begins, a second one while it runs is BUSY, one outside is a RANGE error, one
by partition 0 that would set the world bit is DENIED, a running edit or not; when its entries are written every entry of its range, and no
other byte, has the entry's word, and it is done unless a request to a page of its range is still at the DRAM controller; the entries of a destroyed partition become partition 0's without
rights and the partition is FREE; the latched fault is cleared by a 1 (R109, R119, R120, R132). -/
def Obligations.PageOwnersAreEditedWhole : Prop :=
  ∀ s : State, s.Inv →
    (∀ (ag : Agent) (o : Owner), s.core.granted ag o (rg0 .POT_EDIT_STATUS) 1 = true →
      let n := s.core.rdF (rg0 .POT_EDIT_COUNT) 16 0
      let a := s.core.rdPair (rg0 .POT_EDIT_ADDR_LO) (rg0 .POT_EDIT_ADDR_HI)
      let first := (a - 0x1000000000) / 16384
      let inside := s.core.potBase ≠ 0 ∧ 0x1000000000 ≤ a ∧ 0 < n ∧ n ≤ 65536 ∧ first + n ≤ s.core.potPages
      let K : Core → Core → Core := fun c d => { d with pot := { d.pot with edit := c.pot.edit } }
      (s.core.isSecure o = false → s.core.secure = true → bit (s.core.rd (rg0 .POT_EDIT_ENTRY)) 30 = true → Gives (.potEdit ag) s (fun t =>
        t.core.rdF (rg0 .POT_EDIT_STATUS) 7 4 = 1 ∧ t.core.pot = s.core.pot ∧ OnlyRegs (fun r => r == rg0 .POT_EDIT_STATUS) s t)) ∧
      (s.core.pot.edit.isSome = true → s.core.isSecure o = true → Gives (.potEdit ag) s (fun t => t.core.rdF (rg0 .POT_EDIT_STATUS) 7 4 = 2 ∧ t.core.pot = s.core.pot ∧
        OnlyRegs (fun r => r == rg0 .POT_EDIT_STATUS) s t)) ∧
      (s.core.pot.edit = none → s.core.isSecure o = true →
        Gives (.potEdit ag) s (fun t => (inside → t.core.rdF (rg0 .POT_EDIT_STATUS) 7 4 = 0 ∧ t.core.rdB (rg0 .POT_EDIT_STATUS) 1 = false ∧
            ∃ e, t.core.pot.edit = some e ∧ e.next = first ∧ e.left = n ∧ e.count = n ∧ potSound e.entry = true ∧
              (s.core.secure = true → fld e.entry 31 16 = s.core.rdF (rg0 .POT_EDIT_ENTRY) 31 16)) ∧
          (¬ inside → t.core.rdF (rg0 .POT_EDIT_STATUS) 7 4 = 3 ∧ t.core.pot.edit = none) ∧
          Only (fun r => r == rg0 .POT_EDIT_STATUS) K s t))) ∧
    (∀ e, s.core.pot.edit = some e → Gives .potEditDone s (fun t =>
      (∀ k, k < e.left → leAt t.core.mem (s.core.potBase + 4 * (e.next + k)) 4 = e.entry.toNat) ∧
      (∀ q, (q < s.core.potBase + 4 * e.next ∨ s.core.potBase + 4 * (e.next + e.left) ≤ q) → memByte t.core.mem q = memByte s.core.mem q) ∧
      (let first := e.next + e.left - e.count
       if ∃ r ∈ s.core.dmc.reqs, r.addr < 0x1000000000 + (first + e.count) * 16384 ∧ 0x1000000000 + first * 16384 < r.addr + r.len
       then t.core.pot.edit = some { e with next := e.next + e.left, left := 0 }
       else t.core.pot.edit = none ∧ t.core.rdB (rg0 .POT_EDIT_STATUS) 1 = true) ∧ t.core.owners = s.core.owners)) ∧
    (∀ p, kget false s.core.pot.rewrites p = true → 0 < p → p < 64 → Gives (.potRewriteDone p) s (fun t =>
      t.core.partState p = 0 ∧ kget false t.core.pot.rewrites p = false ∧
      (s.core.potBase ≠ 0 → ∀ k, k < s.core.potPages → leAt t.core.mem (s.core.potBase + 4 * k) 4 =
        if leAt s.core.mem (s.core.potBase + 4 * k + 3) 1 % 128 = p then 0x80007FFF else leAt s.core.mem (s.core.potBase + 4 * k) 4))) ∧
    ∀ (ag : Agent) (o : Owner), s.core.granted ag o (rg0 .POT_FAULT_INFO) 0x80000000 = true → Gives (.faultLatchClear ag) s (fun t =>
      t.core.rdB (rg0 .POT_FAULT_INFO) 31 = false ∧ (∀ j, j < 31 → t.core.rdB (rg0 .POT_FAULT_INFO) j = s.core.rdB (rg0 .POT_FAULT_INFO) j) ∧
      OnlyRegs (fun r => r == rg0 .POT_FAULT_INFO) s t)

/-! ### Memory -/

/-- The map of the 48-bit device address space: Shared Store, local memories, control space, boot ROM, the DRAM window from 0x10_0000_0000 up to its end,
everything else unmapped; the window ends at 0x1D_FFFF_FFFF with 16 channels, 0x1A_7FFF_FFFF with 12, 0x16_FFFF_FFFF with 8, and every variant has one
of these (R14, R15). -/
def Obligations.EveryAddressHasItsPlace : Prop :=
  (∀ (c : Core) (a : Nat), a < 2 ^ 48 → c.place a =
    (if a ≤ 0x1FFFFFF then .shared (a / 0x100000)
     else if 0x10000000 ≤ a ∧ a ≤ 0x10FFFFFF then .localMem ((a - 0x10000000) / 0x40000) ((a - 0x10000000) % 0x40000)
     else if 0x20000000 ≤ a ∧ a ≤ 0x21FFFFFF then .control
     else if 0x30000000 ≤ a ∧ a ≤ 0x3003FFFF then .rom
     else if 0x1000000000 ≤ a ∧ a ≤ (if c.counts.dram = 16 then 0x1DFFFFFFFF else if c.counts.dram = 12 then 0x1A7FFFFFFF else 0x16FFFFFFFF) then .dram
     else .unmapped)) ∧
  ∀ c : Core, c.counts.dram = 16 ∨ c.counts.dram = 12 ∨ c.counts.dram = 8

/-- An access of the Shared Store inside one 128-byte block by the bank's owner reads the bytes of words without flipped bits or poison, all of
them, or writes its bytes and no others; onto a word with a double-bit error in part it writes nothing and is a data error; a bank without power
reads zero and takes no write (log entry 194); by anyone else it is refused with no byte read or written and POT_FAULT_CNT counting. The scrub
goes through the words in order and corrects a single flipped bit (R109, R121, R133, R134, R398). -/
def Obligations.SharedStoreServesItsOwners : Prop :=
  ∀ (s : State) (port part addr len : Nat) (world wr : Bool) (data : List Byte), s.core.posted = [] →
    addr + len ≤ 0x1E00000 → 0 < len → addr / 128 = (addr + len - 1) / 128 → data.length = len →
    let o : Owner := { granted := true, world := world && s.core.secure, part := part }
    let owns := s.core.isSecure o || sameOwner o (s.core.owner 8 (addr / 0x100000))
    let on := s.core.domOn (6 + addr / 0x800000)
    let keep (t : State) : Prop := ∀ q, memByte t.core.mem q = memByte s.core.mem q
    let frame (t : State) : Prop := Only (fun r => r == rg0 .DMC_SS_CORR || r == rg0 .DMC_SS_UNCORR || r == rg0 .DMC_SS_ERR_ADDR || r == rg0 .DMC_SS_ERR_INFO)
      (fun c d => { d with resp := c.resp, flips := c.flips, poison := c.poison, mem := c.mem }) s { t with core := { t.core with mem := s.core.mem } }
    (owns = true → on = true → (∀ w, kget 0 s.core.flips w = 0) → (∀ w, s.core.poisoned w = false) →
      Gives (.ssAccess port world part false addr len data) s (fun t => t.core.resp.status = 0 ∧ t.core.resp.data = w64 (leAt s.core.mem addr (min len 8)) ∧
        t.core.resp.rest.length = len - 8 ∧ (∀ k, k < len - 8 → t.core.resp.rest.getD k 0 = memByte s.core.mem (addr + 8 + k)) ∧ keep t ∧ frame t)) ∧
    (owns = true → on = true → (∀ w, kget 0 s.core.flips w < 2) → (∀ w, s.core.poisoned w = false) →
      Gives (.ssAccess port world part true addr len data) s (fun t => t.core.resp = {} ∧
        (∀ k, k < len → memByte t.core.mem (addr + k) = data.getD k 0) ∧
        (∀ q, q < addr ∨ addr + len ≤ q → memByte t.core.mem q = memByte s.core.mem q) ∧ frame t)) ∧
    (owns = true → on = true → (∃ w ∈ edgeWords addr len, 1 < kget 0 s.core.flips w ∨ s.core.poisoned w = true) →
      Gives (.ssAccess port world part true addr len data) s (fun t => t.core.resp.status = 3 ∧ keep t ∧ frame t)) ∧
    (owns = true → on = false →
      Gives (.ssAccess port world part true addr len data) s (fun t => t.core.resp.status = 0 ∧ keep t ∧ frame t) ∧
      ((∀ w, kget 0 s.core.flips w = 0) → (∀ w, s.core.poisoned w = false) →
        Gives (.ssAccess port world part false addr len data) s (fun t => t.core.resp.status = 0 ∧ t.core.resp.data = 0 ∧
          (∀ b ∈ t.core.resp.rest, b = 0) ∧ keep t ∧ frame t))) ∧
    (owns = false → Gives (.ssAccess port world part wr addr len data) s (fun t => t.core.resp = { status := 2 } ∧
      t.core.rdF (rg0 .POT_FAULT_CNT) 15 0 = sat 65535 (s.core.rdF (rg0 .POT_FAULT_CNT) 15 0 + 1) ∧
      Only (fun r => r == rg0 .POT_FAULT_CNT || r == rg0 .POT_FAULT_ADDR_LO || r == rg0 .POT_FAULT_ADDR_HI || r == rg0 .POT_FAULT_INFO)
        (fun c d => { d with resp := c.resp }) s t)) ∧
    let a := s.core.dmc.ssPos * 8
    Gives .ssScrub s (fun t => t.core.dmc.ssPos = (s.core.dmc.ssPos + 1) % 4194304 ∧
      (kget 0 s.core.flips a = 1 → s.core.memOn a = true → kget 0 t.core.flips a = 0 ∧
        t.core.rdF (rg0 .DMC_SS_CORR) 15 0 = sat 65535 (s.core.rdF (rg0 .DMC_SS_CORR) 15 0 + 1)) ∧
      (1 < kget 0 s.core.flips a → s.core.memOn a = true → t.core.poisoned a = true ∧
        t.core.rdF (rg0 .DMC_SS_UNCORR) 15 0 = sat 65535 (s.core.rdF (rg0 .DMC_SS_UNCORR) 15 0 + 1)) ∧
      (∀ w, w ≠ a → kget 0 t.core.flips w = kget 0 s.core.flips w) ∧ keep t)

/-- A DRAM request that its owner may make waits in the controller with its data and the target of its arrival, behind every earlier one and behind those
of the same fabric cycle on lower ports; refused, it ends at once and changes no memory; a memory without power answers zero (log entry 194).
A request is not performed while an earlier one to a burst of its own waits at the channels, nor while one that could be performed stands
before it in the order of urgency, or of deadlines at U3 and U2. One that its channels choose, on error-free channels and bursts without
poison, reads the bytes of its bursts or stores its bytes and no others. An in-contract request's urgency rises by one at 50, 75 and 90 % of
its target (R117, R139, R143, R145). -/
def Obligations.DramRequestsAreServedInOrder : Prop :=
  ∀ s : State, s.core.posted = [] →
    (∀ (q part addr len : Nat) (world wr : Bool) (data : List Byte), q < 32 →
      let o : Owner := { granted := true, world := world && s.core.secure, part := part }
      let chk := (s.core.check o (q = 28) wr addr len).1
      (chk = .ok → s.core.place addr = .dram → (∀ b ∈ burstsIn addr len, s.core.memOn b = true) →
        Gives (.dramRequest q world part wr addr len data) s (fun t => ∃ (x : DramReq) (front back : List DramReq),
        s.core.dmc.reqs = front ++ back ∧ t.core.dmc.reqs = front ++ x :: back ∧
        (∀ y ∈ back, s.core.fabCycle y.arrive = s.core.fabCycle s.core.now ∧ q < y.port) ∧
        (∀ y, front.getLast? = some y → ¬ (s.core.fabCycle y.arrive = s.core.fabCycle s.core.now ∧ q < y.port)) ∧
        x.id = s.core.dmc.nextId ∧ x.port = q ∧ x.tag = o ∧ x.write = wr ∧ x.addr = addr ∧ x.len = len ∧
        x.data = data.take len ∧ x.arrive = s.core.now ∧ x.target = s.core.targetOf q ∧ x.urgency = 0 ∧ t.core.dmc.nextId = s.core.dmc.nextId + 1 ∧
        Only (fun r => r.fam == .DMC_CH_STATUS)
          (fun c d => { d with dmc := c.dmc, free := c.free, pot := { d.pot with cache := c.pot.cache, copies := c.pot.copies } }) s t)) ∧
      (chk = .ok → s.core.place addr = .dram → (∃ b ∈ burstsIn addr len, s.core.memOn b = false) →
        Gives (.dramRequest q world part wr addr len data) s (fun t => t.core.resp = {} ∧ t.core.dmc.reqs = s.core.dmc.reqs ∧ t.core.mem = s.core.mem)) ∧
      (chk ≠ .ok → Gives (.dramRequest q world part wr addr len data) s (fun t => t.core.resp.status = 2 ∧ t.core.dmc = s.core.dmc ∧
        t.core.mem = s.core.mem))) ∧
    (∀ r : DramReq, s.core.dmc.reqs.find? (fun x => x.id = r.id) = some r →
      let before := s.core.dmc.reqs.takeWhile (fun x => x.id != r.id)
      let shares (x : DramReq) : Prop := ∃ b ∈ burstsIn x.addr x.len, b ∈ burstsIn r.addr r.len
      let stays : Prop := ∀ os ws, Gives (.dramRequestDone r.id os ws) s (fun t => t.core.dmc = s.core.dmc ∧ OnlyRegs (fun _ => false) s t)
      ((∃ x ∈ before, shares x ∧ x.waiting = false) → stays) ∧
      ((∃ x ∈ s.core.dmc.reqs, x.id ≠ r.id ∧ x.waiting = false ∧ s.core.reqReady x = true ∧ (∃ h ∈ s.core.reqChans x, h ∈ s.core.reqChans r) ∧
        (s.core.reqStep x < s.core.reqStep r ∨
          (s.core.reqStep x = s.core.reqStep r ∧ s.core.reqStep r ≤ 3 ∧ x.arrive + x.target * 1000 < r.arrive + r.target * 1000))) → stays) ∧
      (s.core.mayServe r = true → r.waiting = false → 0x2000000 ≤ r.addr → (∀ b ∈ burstsIn r.addr r.len, s.core.poisoned b = false) →
        (∀ b ∈ burstsIn r.addr r.len, s.core.chState (dramChannel s.core.counts.dram b) ≠ 5) → Gives (.dramRequestDone r.id [] []) s (fun t =>
          t.core.dmc.reqs = s.core.dmc.reqs.filter (fun x => x.id != r.id) ∧ t.core.resp.status = 0 ∧
          (r.write = false → t.core.resp.data = w64 (s.core.load r.addr (min r.len 8)) ∧ t.core.resp.rest = s.core.bytes (r.addr + 8) (r.len - 8) ∧
            ∀ q, memByte t.core.mem q = memByte s.core.mem q) ∧
          (r.write = true → r.data.length = r.len → (∀ k, k < r.len → memByte t.core.mem (r.addr + k) = r.data.getD k 0) ∧
            ∀ q, q < r.addr ∨ r.addr + r.len ≤ q → memByte t.core.mem q = memByte s.core.mem q))) ∧
      (r.inContract = true → r.waiting = false → r.urgency < 3 → Gives (.urgencyRaise r.id) s (fun t =>
        t.core.dmc.reqs = s.core.dmc.reqs.map (fun x => if x.id = r.id then { x with urgency := x.urgency + 1 } else x) ∧
        r.arrive + r.target * 10 * (if r.urgency = 0 then 50 else if r.urgency = 1 then 75 else 90) ≤ t.core.now ∧
        Only (fun _ => false) (fun c d => { d with dmc := c.dmc, now := c.now }) s t)))

/-- The controller's own work: the oldest write-back whose channel grants background work leaves its queue; the scrub reads burst after burst of one
channel after the other; a retraining steps to its end or its 512th window, one step without a working setting leaves the channel FAILED;
activations count by row, a block whose CRC does not hold counting as at the threshold, and a bank's busiest port is throttled when the
count reaches the threshold, until its window ends; a refresh multiplier shows in DMC_CH_STATUS and sets the window's length; an idle channel
powers down once its idle time has passed (R140, R147, R148, R149, R150). -/
def Obligations.DramKeepsItsHouse : Prop :=
  ∀ s : State, s.core.posted = [] →
    let K : Core → Core → Core := fun c d => { d with dmc := c.dmc }
    let KT : Core → Core → Core := fun c d => { d with dmc := c.dmc, now := c.now }
    Gives .correctionWriteback s (fun t => (match s.core.dmc.corrQ.find? (fun a => s.core.bgMay (s.core.chan a)) with
      | some a => t.core.dmc.corrQ = s.core.dmc.corrQ.filter (fun x => x != a)
      | none => t.core.dmc.corrQ = s.core.dmc.corrQ) ∧ Only (fun _ => false) K s t) ∧
    (let h := s.core.dmc.scrubPos / 58720256
     let a := dramAt s.core.counts.dram h (s.core.dmc.scrubPos % 58720256)
     s.core.rdF (rg0 .DMC_SCRUB_CFG) 7 0 ≠ 0 → s.core.bgMay h = true → s.core.poisoned a = false → s.core.chState (s.core.chan a) ≠ 5 →
      Gives (.scrubRead .clean []) s (fun t => t.core.dmc.scrubPos =
        (if s.core.counts.dram * 58720256 ≤ s.core.dmc.scrubPos + 1 then 0 else s.core.dmc.scrubPos + 1) ∧
        Only (fun r => r == rg0 .DMC_BG_STAT) K s t)) ∧
    (∀ ch, ch < s.core.counts.dram → s.core.dmc.training = none → 1 ≤ s.core.chState ch → s.core.chState ch ≤ 3 →
      let L : Reg → Bool := fun r => r == rg0 .DMC_BG_STAT || r == rg .DMC_CH_STATUS ch
      let begun (t : State) : Prop := t.core.dmc.training = some ch ∧ t.core.dmc.steps = 0 ∧ t.core.rdB (rg0 .DMC_BG_STAT) 9 = true ∧ t.core.chState ch = 4
      Gives (.retrainStart ch true) s (fun t => begun t ∧ t.core.dmc.lastTrain = s.core.dmc.lastTrain ∧ Only L K s t) ∧
      (s.core.rdB (rg0 .DMC_TRAIN_CFG) 16 = true → s.core.nextTrain s.core.counts.dram s.core.dmc.lastTrain s.core.counts.dram = some ch →
        ∀ k, Gives (.retrainStart k false) s (fun t => begun t ∧ t.core.dmc.lastTrain = ch ∧
          s.core.dmc.trainAt + max 1 (s.core.rdF (rg0 .DMC_TRAIN_CFG) 7 0) * 1000000000000 ≤ t.core.now ∧ Only L KT s t))) ∧
    (∀ h od low last, s.core.dmc.training = some h → Gives (.retrainStep low false last od) s (fun t =>
      t.core.chState h = 1 ∧ t.core.rdF (rg .DMC_CH_ODECC h) 15 0 = sat 65535 (s.core.rdF (rg .DMC_CH_ODECC h) 15 0 + od) ∧
      (if last = true ∨ 512 ≤ s.core.dmc.steps + 1 then t.core.dmc.training = none ∧ t.core.rdB (rg0 .DMC_BG_STAT) 9 = false
       else t.core.dmc.training = some h ∧ t.core.dmc.steps = s.core.dmc.steps + 1) ∧
      Only (fun r => r == rg0 .DMC_BG_STAT || r == rg .DMC_CH_STATUS h || r == rg .DMC_CH_ODECC h) KT s t) ∧
      Gives (.retrainStep low true last od) s (fun t => t.core.chState h = 5 ∧ t.core.dmc.training = none ∧ t.core.rdB (rg0 .DMC_BG_STAT) 9 = false)) ∧
    (∀ ch, ch < s.core.counts.dram →
      (∀ bank row q, s.core.throttled ch bank q = false → s.core.chState ch ≠ 4 →
        let L : Reg → Bool := fun r => r == rg .DMC_CH_STATUS ch
        let th := s.core.rhThreshold
        let armed (t : State) : Prop := t.core.rdB (rg .DMC_CH_STATUS ch) 16 = true ∧ t.core.rdF (rg .DMC_CH_STATUS ch) 20 17 = bank ∧
          t.core.rdF (rg .DMC_CH_STATUS ch) 25 21 + 1 = kget 0 t.core.dmc.throttles (bankKey ch bank)
        ∀ m, kget none s.core.dmc.rows (rowKey ch bank row) = some m →
        let w := kget 0 s.core.dmc.window ch
        (m.sound = true →
          let n := if m.window = w then sat 65535 (m.count + 1) else 1
          Gives (.rowActivation ch bank row q) s (fun t => kget none t.core.dmc.rows (rowKey ch bank row) = some (rowMeta n w) ∧
            kget 0 t.core.dmc.lastAct (actKey ch bank q) = s.core.now ∧
            (n = th → (m.window ≠ w ∨ m.count ≠ n) → bank < 16 → armed t) ∧
            (n < th → OnlyRegs (fun _ => false) s { t with core := K s.core t.core }) ∧ Only L K s t)) ∧
        (m.sound = false → bank < 16 → Gives (.rowActivation ch bank row q) s (fun t =>
          kget none t.core.dmc.rows (rowKey ch bank row) = some (rowMeta th w) ∧ armed t ∧ t.core.rdB (rg .DMC_CH_ERR_INFO ch) 31 = true))) ∧
      (∀ m, m = 1 ∨ m = 2 ∨ m = 4 → Gives (.refreshRateChange ch m) s (fun t => t.core.rdF (rg .DMC_CH_STATUS ch) 27 26 = m / 2 ∧
        t.core.refm ch = m ∧ OnlyRegs (fun r => r == rg .DMC_CH_STATUS ch) s t)) ∧
      Gives (.refreshWindowEnd ch) s (fun t => kget 0 t.core.dmc.window ch = (kget 0 s.core.dmc.window ch + 1) % 256 ∧
        kget 0 s.core.dmc.winAt ch + 32000000000 / s.core.refm ch ≤ t.core.now ∧
        t.core.rdB (rg .DMC_CH_STATUS ch) 16 = false ∧ (∀ bank q, bank < 16 → t.core.throttled ch bank q = false) ∧
        Only (fun r => r == rg .DMC_CH_STATUS ch) KT s t) ∧
      ∀ sr, (∀ r ∈ s.core.dmc.reqs, ch ∉ s.core.reqChans r) → s.core.dmc.training ≠ some ch →
        (∀ a ∈ s.core.dmc.corrQ, dramChannel s.core.counts.dram a ≠ ch) → s.core.rdB (rg0 .DMC_PD_CFG) (if sr then 17 else 16) = true →
        s.core.chState ch = 1 → (if sr then 600 else 30) ≤ s.core.headTol → (if sr then 600 else 30) ≤ s.core.halfTarget →
        Gives (.channelPowerDown ch sr) s (fun t => t.core.chState ch = (if sr then 3 else 2) ∧
          kget 0 s.core.dmc.lastUse ch + s.core.idleFor sr ≤ t.core.now ∧
          Only (fun r => r == rg .DMC_CH_STATUS ch) (fun c d => { d with now := c.now }) s t))

/-! ### DMA -/

namespace Sys2Proof.Machine

/-- Channel `ch` runs a descriptor of one line inside the Shared Store below the journal's banks, source and destination apart and its owner's,
every bank powered, no flipped or poisoned word anywhere, not stopped by a partition reset: what it moves is plain data. -/
def Core.PlainDma (c : Core) (ch : Nat) : Prop :=
  let d := (c.dma ch).desc
  ch < 128 ∧ c.awake = true ∧ (c.dma ch).err = 0 ∧ 0 < d.lineLen ∧ d.lines = 1 ∧ d.chain = false ∧ (c.dma ch).done ≤ d.lineLen ∧
  d.src + d.lineLen ≤ 0x1E00000 ∧ d.dst + d.lineLen ≤ 0x1E00000 ∧ (d.src + d.lineLen ≤ d.dst ∨ d.dst + d.lineLen ≤ d.src) ∧
  (∀ b, b < 30 → c.isSecure (c.tag (.dma ch)) = true ∨ sameOwner (c.tag (.dma ch)) (c.owner 8 b) = true) ∧
  (∀ b, b < 30 → c.domOn (6 + b / 8) = true) ∧ (c.dma ch).mute = false ∧ (∀ w, kget 0 c.flips w = 0) ∧ ∀ w, c.poisoned w = false

end Sys2Proof.Machine

/-- DMA: a start in IDLE or ERROR makes the channel RUNNING with the descriptor its register names, elsewhere it is refused; by a channel it does
nothing; a stop takes RUNNING to STOPPING and nothing else; a plain transfer's half point, at the end of the write that covers byte ceil(T ÷ 2),
and end leave the bytes of its source at its destination and nothing else there, with
their status bits, and the end counts and idles the channel; a stopped channel is IDLE with each destination byte old or new; a recorded error is
ERROR with its code (R154, R156, R158, R159, R160, R163). -/
def Obligations.DmaMovesWhatItsDescriptorNames : Prop :=
  ∀ (s : State) (ch : Nat), s.core.posted = [] → ch < 128 →
    let st := s.core.dmaState ch
    let status := rg .DMA_CH_STATUS ch
    let d := (s.core.dma ch).desc
    (∀ k o, s.core.granted (.dma k) o (rg .DMA_CH_CTRL ch) 1 = true → Gives (.dmaStart (.dma k) ch) s (fun t => OnlyRegs (fun _ => false) s t)) ∧
    (∀ ag o, s.core.granted ag o (rg .DMA_CH_CTRL ch) 1 = true → (∀ k, ag ≠ .dma k) →
      (st = 1 ∨ st = 2 → Gives (.dmaStart ag ch) s (fun t => t.core.rdB status 7 = true ∧ t.core.dmaState ch = st ∧ OnlyRegs (fun r => r == status) s t)) ∧
      (st = 0 ∨ st = 3 →
        let a := s.core.rdPair (rg .DMA_CH_DESC_LO ch) (rg .DMA_CH_DESC_HI ch)
        Gives (.dmaStart ag ch) s (fun t => t.core.dmaState ch = 1 ∧ t.core.rdF status 19 16 = 0 ∧
          t.core.rdPair (rg .DMA_CH_CUR_LO ch) (rg .DMA_CH_CUR_HI ch) = a ∧
          (∀ x, a % 64 = 0 → s.core.place a = .dram → s.core.memOn a = true → s.core.dmc.reqs = [] → s.core.chState (s.core.chan a) ≠ 5 → ((s.core.logWrite ag (rg .DMA_CH_CTRL ch).addr 0 1).check (s.core.tag (.dma ch)) false false a 64).1 = .ok → s.core.poisoned a = false →
            parseDma (s.core.bytes a 64) = some x → (t.core.dma ch) = { desc := x } ∧ t.core.rdN (rg .DMA_CH_REMAIN ch) = sat 0xFFFFFFFF x.total)))) ∧
    (∀ ag o, s.core.granted ag o (rg .DMA_CH_CTRL ch) 2 = true → Gives (.dmaStop ag ch) s (fun t =>
      t.core.dmaState ch = (if st = 1 then 2 else st) ∧ OnlyRegs (fun r => r == status) s t)) ∧
    (s.core.PlainDma ch → st = 1 →
      let moved (t : State) (n : Nat) : Prop := (∀ k, (s.core.dma ch).done ≤ k → k < n → memByte t.core.mem (d.dst + k) = memByte s.core.mem (d.src + k)) ∧
        ∀ q, (q < d.dst + (s.core.dma ch).done ∨ d.dst + n ≤ q) → memByte t.core.mem q = memByte s.core.mem q
      Gives (.dmaEnd ch) s (fun t => moved t d.lineLen ∧ t.core.dmaState ch = 0 ∧ t.core.dma ch = {} ∧ (d.fullEv = true → t.core.rdB status 5 = true) ∧
        t.core.rdN (rg .DMA_CH_DONE ch) = (s.core.rdN (rg .DMA_CH_DONE ch) + 1) % 65536 ∧ t.core.owners = s.core.owners) ∧
      ((s.core.dma ch).halfHit = false → (s.core.dma ch).done ≤ ceilDiv d.lineLen 2 → Gives (.dmaHalfPoint ch) s (fun t =>
        moved t (t.core.dma ch).done ∧ ceilDiv d.lineLen 2 ≤ (t.core.dma ch).done ∧ (t.core.dma ch).done < ceilDiv d.lineLen 2 + 64 ∧
        (t.core.dma ch).done ≤ d.lineLen ∧ (t.core.dma ch).halfHit = true ∧
        (d.halfEv = true → t.core.rdB status 4 = true) ∧ t.core.dmaState ch = 1 ∧ t.core.owners = s.core.owners))) ∧
    (s.core.PlainDma ch → st = 2 → Gives (.dmaStopped ch) s (fun t => t.core.dmaState ch = 0 ∧ t.core.rdB status 8 = true ∧ t.core.dma ch = {} ∧
      (∀ k, k < d.lineLen → memByte t.core.mem (d.dst + k) = memByte s.core.mem (d.dst + k) ∨
        memByte t.core.mem (d.dst + k) = memByte s.core.mem (d.src + k)) ∧
      ∀ q, (q < d.dst ∨ d.dst + d.lineLen ≤ q) → memByte t.core.mem q = memByte s.core.mem q)) ∧
    ∀ code, s.core.awake = true → (st = 1 ∨ st = 2) → (s.core.dma ch).err ≠ 0 → (s.core.dma ch).err < 16 → Gives (.dmaError ch code) s (fun t =>
      t.core.dmaState ch = 3 ∧ t.core.rdF status 19 16 = (s.core.dma ch).err ∧ t.core.rdB status 5 = true ∧ t.core.dma ch = {} ∧
      t.core.rdF (rg .DMA_CH_ERR ch) 15 0 = sat 65535 (s.core.rdF (rg .DMA_CH_ERR ch) 15 0 + 1) ∧
      Only (fun r => r == status || r == rg .DMA_CH_ERR ch) (fun c d => { d with dmas := c.dmas }) s t)

/-! ### Check-value units -/

/-- A check-value unit: a valid configuration takes effect and restarts it, an invalid one is ignored with cfg_err; a restart sets the remainder to
INIT and lets the next check accept any alive counter, an alive reset forgets the counter; each fed word is absorbed byte by byte, lowest first; a check compares the result with what was
received and restarts the unit; in region mode feeds and checks are ignored with cfg_err (R164, R165, R166, R167). -/
def Obligations.CheckValuesFollowTheirFeeds : Prop :=
  ∀ (s : State) (ag : Agent) (o : Owner) (n : Nat), s.core.posted = [] → n < 128 →
    let status := rg .CRC_STATUS n
    let left (c : Core) : Nat := ((c.crcDrain n).crc n).reg
    let refused (i : Instr) : Prop := Gives i s (fun t => t.core.rdB status 4 = true ∧
      t.core.rdF (rg .CRC_ERR_CNT n) 15 0 = sat 65535 (s.core.rdF (rg .CRC_ERR_CNT n) 15 0 + 1) ∧
      OnlyRegs (fun r => r == status || r == rg .CRC_ERR_CNT n) s t)
    let K : Core → Core → Core := fun c d => { d with crcs := c.crcs }
    (∀ v, s.core.granted ag o (rg .CRC_CFG n) v = true →
      (fld v 6 0 < 3 ∨ 64 < fld v 6 0 ∨ 1 < fld v 31 30 → refused (.crcConfigWrite ag n v)) ∧
      (3 ≤ fld v 6 0 → fld v 6 0 ≤ 64 → fld v 31 30 ≤ 1 → Gives (.crcConfigWrite ag n v) s (fun t => t.core.rd (rg .CRC_CFG n) = v &&& 0xC0FF037F ∧
        left t.core = t.core.crcPar n .CRC_INIT_LO .CRC_INIT_HI ∧ t.core.rd (rg .CRC_ALIVE n) = 0 ∧
        Only (fun r => r == rg .CRC_CFG n || r == rg .CRC_ALIVE n || r == status) K s t))) ∧
    (s.core.granted ag o (rg .CRC_CTRL n) 1 = true → Gives (.crcRestart ag n) s (fun t =>
      left t.core = s.core.crcPar n .CRC_INIT_LO .CRC_INIT_HI ∧ (t.core.crc n).aliveSeen = false ∧
      t.core.rd (rg .CRC_ALIVE n) = s.core.rd (rg .CRC_ALIVE n) ∧ Only (fun r => r == status) K s t)) ∧
    (s.core.granted ag o (rg .CRC_CTRL n) 2 = true → Gives (.crcAliveReset ag n) s (fun t => t.core.rd (rg .CRC_ALIVE n) = 0 ∧
      (t.core.crc n).aliveSeen = false ∧ left t.core = left s.core ∧ Only (fun r => r == status || r == rg .CRC_ALIVE n) K s t)) ∧
    (∀ w v, w = 1 ∨ w = 2 ∨ w = 4 → s.core.granted ag o (rg (if w = 1 then .CRC_DATA8 else if w = 2 then .CRC_DATA16 else .CRC_DATA32) n) v = true →
      (s.core.crcRegion n = true → refused (.crcFeed ag n w v)) ∧
      (s.core.crcRegion n = false → Gives (.crcFeed ag n w v) s (fun t =>
        left t.core = ((leBytes w v.toNat).map (fun b => b.toNat)).foldl (s.core.crcAbsorb n) (left s.core) ∧
        (t.core.crc n).queue.length ≤ max 16 (s.core.crc n).queue.length ∧ Only (fun r => r == status) K s t))) ∧
    ∀ v, s.core.granted ag o (rg .CRC_RX_LO n) v = true →
      (s.core.crcRegion n = true → refused (.crcCheck ag n v)) ∧
      (s.core.crcRegion n = false →
        let good := decide (s.core.crcOut n (left s.core) = (v.toNat + s.core.rdN (rg .CRC_RX_HI n) * 4294967296) % 2 ^ s.core.crcW n)
        Gives (.crcCheck ag n v) s (fun t => left t.core = s.core.crcPar n .CRC_INIT_LO .CRC_INIT_HI ∧
          (good = false → t.core.rdB status 0 = false ∧ t.core.rdB status 1 = true ∧
            t.core.rdF (rg .CRC_ERR_CNT n) 15 0 = sat 65535 (s.core.rdF (rg .CRC_ERR_CNT n) 15 0 + 1)) ∧
          (good = true → s.core.rdF (rg .CRC_CFG n) 23 22 = 0 → t.core.rdB status 0 = true ∧ t.core.rdB status 1 = s.core.rdB status 1) ∧
          Only (fun r => r == status || r == rg .CRC_ERR_CNT n || r == rg .CRC_ALIVE n) K s t))

/-! ### Sources -/

namespace Sys2Proof.Machine

/-- Slot `n` of `t` is LIVE with a current record of a surface, a sequence number and a capture time. -/
def Published (n addr : Nat) (q : W32) (cap : Nat) (t : State) : Prop :=
  t.core.slotState n = 2 ∧ (t.core.slot n).cur.addr = addr ∧ stampSeq (t.core.slot n).cur.stamp = q ∧
  stampCapture (t.core.slot n).cur.stamp = cap % 2 ^ 64 ∧ stampOk (t.core.slot n).cur.stamp = true

end Sys2Proof.Machine

/-- A publish by the holder of the slot's contract, of a surface it may read, within the slot's rate makes the slot LIVE with the surface, the next
sequence number and the present time, its flags by the kind; a derived one takes sequence and capture time of the record it derives from, and of its
flags replayed and degraded; a publish by another is refused and counted, the slot's records as they were. The result is in SYS_SRC_PW_RESULT (R176,
R178, R186, R188). A live slot whose deadline comes without a publish is LOST, with its bit in SYS_SRC_LOST; a slot without a deadline is not touched
(R180). -/
def Obligations.SlotsLiveByPublishesAndAreLostInSilence : Prop :=
  (∀ (s : State) (ag : Agent) (o : Owner) (n : Nat) (x : Contract), s.core.posted = [] → n < 1024 →
    let w := winOf (s.core.tag ag)
    let cmd := rg .SYS_SRC_PW_CMD w
    let addr := s.core.rdPair (rg .SYS_SRC_PW_ADDR_LO w) (rg .SYS_SRC_PW_ADDR_HI w)
    let code (t : State) : W32 := t.core.rd (rg .SYS_SRC_PW_RESULT w)
    let fits (v : W32) : Prop := s.core.granted ag o cmd v = true ∧ ((s.core.logWrite ag cmd.addr 0 v).check o false false addr (max 1 (x.n 5))).1 = .ok ∧
      x.sub = w ∧ s.core.slotState n ≠ 0 ∧ s.core.partActive w = true ∧ x.f 7 3 0 = 2 ∧
      ((s.core.slot n).pubs.filter (fun t => decide (s.core.mono < t + x.n 4 * 1000))).length < 2
    let live (i : Instr) (fl : Nat) : Prop := Gives i s (fun t => code t = 0 ∧ Published n addr (epochSucc (s.core.slot n).seq) s.core.ns t ∧
      stampFlags (t.core.slot n).cur.stamp = fl ∧ (t.core.slot n).seq = epochSucc (s.core.slot n).seq ∧ ∀ m, m ≠ n → t.core.slot m = s.core.slot m)
    s.core.slotSrc n = some x →
    (fits (w32 n) → live (.publishGuest ag n) 0) ∧ (fits (w32 (0x80000000 + n)) → live (.publishReplay ag n) 4) ∧
    (fits (w32 (0xC0000000 + n)) → o.world = true → s.core.secure = true → live (.publishSynthetic ag n) 2) ∧
    (∀ k y r, k < 1024 → (s.core.potBase = 0 ∨ 0x2000000 ≤ s.core.potBase) → fits (w32 (0x40000000 + 65536 * k + n)) → bit (x.w 9) 31 = true → k = x.f 9 9 0 → s.core.slotSrc k = some y → y.sub = w →
      s.core.originRec k (s.core.rd (rg .SYS_SRC_PW_SEQ w)) = some r → Gives (.publishDerived ag n k) s (fun t => code t = 0 ∧
        Published n addr (stampSeq r.stamp) (stampCapture r.stamp) t ∧
        stampFlags (t.core.slot n).cur.stamp = stampFlags r.stamp / 4 % 4 * 4 ∧ (t.core.slot n).seq = (s.core.slot n).seq ∧
        ∀ m, m ≠ n → t.core.slot m = s.core.slot m)) ∧
    (s.core.granted ag o cmd (w32 n) = true → x.sub ≠ w → Gives (.publishGuest ag n) s (fun t => code t = 1 ∧ t.core.slots = s.core.slots ∧
      t.core.rdF (rg .SYS_SRC_STATE n) 15 0 = sat 65535 (s.core.rdF (rg .SYS_SRC_STATE n) 15 0 + 1) ∧ t.core.rdB (rg0 .SYS_SRC_EVT) 1 = true ∧
      OnlyRegs (fun r => r == rg .SYS_SRC_STATE n || r == rg0 .SYS_SRC_EVT || r == rg .SYS_SRC_PW_RESULT w) s t))) ∧
  (∀ (s : State) (n : Nat), n < 1024 → s.core.posted = [] →
    (∀ at_, s.core.lossAt n = some at_ → Gives (.sourceLossDeadline n) s (fun t => t.core.slotState n = 3 ∧ at_ * 1000 ≤ t.core.now ∧
      t.core.rdB (rg .SYS_SRC_LOST (n / 32)) (n % 32) = true ∧
      Only (fun r => r == rg .SYS_SRC_STATE n || r == rg .SYS_SRC_LOST (n / 32)) (fun c d => { d with now := c.now }) s t)) ∧
    (s.core.lossAt n = none → Gives (.sourceLossDeadline n) s (fun t => OnlyRegs (fun _ => false) s t)))

/-- Cameras and network streams of a port that receives: a frame start publishes the next buffer of the slot bound to its virtual channel; a good line
lies at its place in that buffer; a line of no bound type counts in CSI_CNT 4, with an uncorrectable header in CSI_CNT 1; a frame end closes the frame; a link failure loses every bound slot
(R179, R181, R182, R188). A packet of no bound stream counts; one of a bound stream extends its sequence number; a sender report is kept for the stream
(R184, R185, R188). -/
def Obligations.IntakeFollowsItsLines : Prop :=
  ∀ s : State, s.core.posted = [] →
    (∀ p vc, s.core.csiOn p = true →
      Gives (.csiFrameStart p vc) s (fun t => t.core.rdB (rg .CSI_STATUS p) 0 = true ∧ t.core.rdB (rg .CSI_STATUS p) 1 = true ∧
        ∀ n x b, s.core.csiSlots p vc = [(n, x)] → s.core.slotSrc n = some x → s.core.nextBuf n x = some b → s.core.slotState n ≠ 0 →
          s.core.partActive x.sub = true → (s.core.slot n).pubs = [] →
          Published n (x.n64 12 + b * x.n 14) (epochSucc (s.core.slot n).seq) (s.core.ns - s.core.rdF (rg .CSI_CAPOFS p) 15 0 * 1000) t ∧
          (t.core.slot n).inFrame = true ∧ (t.core.slot n).shown = true ∧ (t.core.slot n).rows = 0) ∧
      (∀ dt cb hb data, (csiType dt = false ∨ ∀ x ∈ s.core.adm.live, x.kind = kSOURCE → x.f 7 3 0 = 0 → x.f 9 2 0 = p → x.f 9 7 4 = vc → x.f 9 13 8 ≠ dt) →
        let k := if hb then 1 else 4
        Gives (.csiLine p vc dt cb hb data) s (fun t =>
        t.core.rdF (rg2 .CSI_CNT p k) 15 0 = sat 65535 (s.core.rdF (rg2 .CSI_CNT p k) 15 0 + 1) ∧ t.core.rdB (rg .CSI_ERR p) k = true ∧
        Only (fun r => r == rg .CSI_STATUS p || r == rg2 .CSI_CNT p k || r == rg .CSI_ERR p)
          (fun c d => { d with evr := { d.evr with blk := c.evr.blk } }) s t)) ∧
      (∀ dt data n x, csiType dt = true → s.core.csiSlots p vc = [(n, x)] → x.f 9 13 8 = dt → (s.core.slot n).inFrame = true →
        (s.core.slot n).tooSmall = false → x.f 15 7 0 ≠ 1 → s.core.slotHsrc n = none →
        let q := if (s.core.slot n).rows = 0 then { s.core.slot n with lineLen := data.length } else s.core.slot n
        let a := lineAddr x q q.rows
        a + data.length ≤ x.n64 12 + (q.buf + 1) * x.n 14 → (s.core.check (ownerOf x.sub) false true a data.length).1 = .ok → s.core.place a ≠ .dram →
        s.core.memOn a = true → (∀ w, kget 0 s.core.flips w = 0) → (∀ w, s.core.poisoned w = false) →
        Gives (.csiLine p vc dt false false data) s (fun t => (∀ k, k < data.length → memByte t.core.mem (a + k) = data.getD k 0) ∧
          (∀ j, (j < a ∨ a + data.length ≤ j) → memByte t.core.mem j = memByte s.core.mem j) ∧ (t.core.slot n).rows = (s.core.slot n).rows + 1)) ∧
      Gives (.csiFrameEnd p vc) s (fun t => ∀ e ∈ s.core.csiSlots p vc, (t.core.slot e.1).inFrame = false) ∧
      Gives (.csiLinkFailure p) s (fun t => t.core.rdB (rg .CSI_STATUS p) 0 = false ∧
        ∀ x ∈ s.core.adm.live, x.kind = kSOURCE → x.f 7 3 0 = 0 → x.f 9 2 0 = p → s.core.slotState x.unit ≠ 0 → t.core.slotState x.unit = 3)) ∧
    ∀ n udp ssrc, n < s.core.counts.net → s.core.rdB (rg .NET_PORT_CTRL n) 0 = true → s.core.domOn 19 = true →
      (s.core.netSlots n udp ssrc = [] → ∀ seq ts m ptp off data, Gives (.rtpPacket n udp ssrc seq ts m ptp off data) s (fun t =>
        kget 0 t.core.netCnt (2 * n + 1) = kget 0 s.core.netCnt (2 * n + 1) + 1 ∧
        Only (fun _ => false) (fun c d => { d with netCnt := c.netCnt, evr := { d.evr with blk := c.evr.blk } }) s t)) ∧
      (∀ k x, s.core.netSlots n udp ssrc = [(k, x)] → s.core.partActive x.sub = true → ∀ seq ts m ptp off data,
        let e := extSeq (s.core.slot k).net.started (s.core.slot k).net.ext seq
        Gives (.rtpPacket n udp ssrc seq ts m ptp off data) s (fun t => (t.core.slot k).net.started = true ∧
          (t.core.slot k).net.ext = (if e.2 then e.1 else (s.core.slot k).net.ext) ∧ (e.2 = true → e.1 % 65536 = seq % 65536))) ∧
      ∀ rtp at_, Gives (.rtcpSenderReport n udp ssrc rtp at_) s (fun t =>
        (∀ e ∈ s.core.netSlots n udp ssrc, (t.core.slot e.1).net.report = some (rtp, at_)) ∧
        Only (fun _ => false) (fun c d => { d with slots := c.slots }) s t)

/-- A decoder context: the write pointer of a host-fed ring moves modulo the ring, a context that is halted passing over what it gets; a cancel
empties ring and references and leaves the context ARMED while its contract is live; each refill gives the token of the next period, which releases
the oldest waiting unit; a decoded unit leaves the queue and VDE_CTX_RPTR passes it (R192, R193, R194, R197). -/
def Obligations.DecodersWorkUnitByUnit : Prop :=
  ∀ (s : State) (v x : Nat) (k : Contract), s.core.posted = [] → v < 8 → x < 32 → s.core.vdeCon v x = some k →
    let q := s.core.vctx v x
    (∀ ag o p, s.core.granted ag o (rg2 .VDE_CTX_WPTR v x) p = true → s.core.vdeState v x ≠ 0 →
      (∃ y, s.core.slotSrc (k.f 8 9 0) = some y ∧ y.f 7 3 0 = 2) → s.core.dmc.reqs = [] → Gives (.vdeWptrWrite ag v x p) s (fun t =>
        t.core.rdN (rg2 .VDE_CTX_WPTR v x) = p.toNat % max 1 (k.n 9) ∧
        t.core.rd (rg2 .VDE_CTX_RPTR v x) = (if s.core.vdeDead v x then t.core.rd (rg2 .VDE_CTX_WPTR v x) else s.core.rd (rg2 .VDE_CTX_RPTR v x)) ∧
        t.core.slots = s.core.slots ∧ t.core.mem = s.core.mem)) ∧
    (∀ ag o, s.core.granted ag o (rg2 .VDE_CTX_CTRL v x) 1 = true → Gives (.vdeCancel ag v x) s (fun t => t.core.vdeState v x = 1 ∧
      t.core.rd (rg2 .VDE_CTX_RPTR v x) = s.core.rd (rg2 .VDE_CTX_WPTR v x) ∧ (t.core.vctx v x).units = [] ∧ (t.core.vctx v x).refs = [] ∧
      (t.core.vctx v x).pics = [] ∧ (t.core.vctx v x).token = q.token ∧
      Only (fun r => r == rg2 .VDE_CTX_RPTR v x || r == rg2 .VDE_CTX_STATE v x || r == rg .VDE_STATUS v) (fun c d => { d with vctxs := c.vctxs }) s t)) ∧
    Gives (.pictureTokenRefill v x) s (fun t => (t.core.vctx v x).tokenAt = q.tokenAt + s.core.vdePeriod v x k ∧
      (t.core.vctx v x).token = q.units.all (fun u => u.released.isSome) ∧ (q.tokenAt + s.core.vdePeriod v x k) * 1000 ≤ t.core.now ∧
      (t.core.vctx v x).units.length = q.units.length ∧
      Only (fun r => r == rg .VDE_STATUS v) (fun c d => { d with vctxs := c.vctxs, now := c.now }) s t) ∧
    ∀ info u us at_, q.units = u :: us → u.released = some at_ → s.core.partActive k.sub = true → s.core.vdeNext v = some x → (info.shows.isSome = true ∨ (s.core.vdeBuf k q).isSome = true) →
      Gives (.pictureDecoded v x info) s (fun t => (t.core.vctx v x).units.length = us.length ∧
        t.core.rdN (rg2 .VDE_CTX_RPTR v x) = (u.at_ + u.size) % max 1 (k.n 9) % 2 ^ 32)

/-! ### Heads -/

/-- A head's frames. The raster starts at line V_active, a locked head's at a master boundary at least 1 ms after both conditions hold; each line
follows the one before; a vertical-blanking start counts the frame, sets its event and brings the registers of the next frame into force, and
ends the raster when contract or enable is gone; the latch takes the pending set and the surfaces and makes strip 0 due; a strip composed
without layers is the background colour; a complete strip is scanned and makes the next one due, an incomplete one is an underrun,
counted, whose remaining lines are black outside protected layers; a line that no encoder takes leaves memory as it is; lost content is black; frame done sets its event; a faulted engine stops, its
strip broken (R201, R203 to R205, R227, R235, R241 to R243, R261). -/
def Obligations.FramesFollowTheRaster : Prop :=
  ∀ (s : State) (h : Nat), h < 16 → s.core.posted = [] →
    let x := s.core.head h
    let still (t : State) : Prop := ∀ a, memByte t.core.mem a = memByte s.core.mem a
    let mild (t : State) : Prop := t.core.adm = s.core.adm ∧ t.core.owners = s.core.owners ∧ ∀ g, g ≠ h → t.core.head g = s.core.head g
    let calm (t : State) : Prop := still t ∧ mild t
    let untapped : Prop := (∀ y ∈ s.core.adm.live, y.kind = kENCODE → encRemote y = true ∨ y.f 4 7 0 ≠ h) ∧
      ∀ i p, p ∈ (kget {} s.core.encs i).pics → encRemote p.con = true ∨ p.con.f 4 7 0 ≠ h
    let counted (t : State) : Prop := t.core.rd (rg .HD_FRAME h) = s.core.rd (rg .HD_FRAME h) + 1 ∧ t.core.rdB (rg .HD_EVT h) 0 = true
    let failed (t : State) (line : Nat) : Prop := (t.core.head h).under = some line ∧ t.core.rdB (rg .HD_EVT h) 3 = true ∧
      t.core.rdF (rg .HD_UNDERRUN h) 15 0 = sat 65535 (s.core.rdF (rg .HD_UNDERRUN h) 15 0 + 1) ∧
      t.core.rdF (rg .HD_UNDERRUN_INFO h) 12 0 = line % 8192
    (∀ t0 k, x.bothAt = some t0 → s.core.headCon h = some k → s.core.scanning h = false → s.core.rdB (rg .HD_CTRL h) 0 = true →
      let at_ := if k.hMode = 1 then s.core.psOf (s.core.boundaryNs (s.core.nextBoundaryAt (s.core.ptpOf (t0 + 999) + 1000000))) else max s.core.now t0
      Gives (.rasterStart h) s (fun t => t.core.scanning h = true ∧ t.core.headLine h = k.vActive % 8192 ∧ (t.core.head h).con = some k ∧
        (t.core.head h).lineAt = at_ ∧ (t.core.head h).unlatched = true ∧ at_ ≤ t.core.now ∧ counted t ∧ calm t)) ∧
    (∀ k ringLate protLate chk, x.con = some k → s.core.scanning h = true →
      let q := s.core.nextLine h k
      (q.1 ≠ k.vActive → Gives (.headLineStart h ringLate protLate chk) s (fun t => t.core.headLine h = q.1 % 8192 ∧ t.core.rdB (rg .HD_STATUS h) 28 = q.2.2 ∧
        (t.core.head h).lineAt = x.blankAt + s.core.linesPs k (sinceBlank k q.1 q.2.1 q.2.2) ∧ t.core.rd (rg .HD_FRAME h) = s.core.rd (rg .HD_FRAME h) ∧
        (bit (x.inForce 4) 31 = true → fld (x.inForce 4) 12 0 = q.1 → q.2.2 = false → q.1 ≠ fpEnd k x → t.core.rdB (rg .HD_EVT h) 1 = true) ∧
        (q.1 < k.vActive → ringLate = true → x.unlatched = false → x.under = none → failed t q.1) ∧
        (0 < q.1 → q.1 < k.vActive → x.unlatched = false → x.under.isSome = true → (∀ j, 30 ≤ j → j < 32 → (kget {} x.latched j).part = false) →
          (t.core.head h).tap = List.replicate k.hActive 0) ∧ mild t ∧ (s.core.dmc.reqs = [] → untapped → still t))) ∧
      (q.1 = k.vActive → q.2.2 = false → s.core.rdB (rg .HD_STATUS h) 28 = false → Gives (.headLineStart h ringLate protLate chk) s (fun t => counted t ∧
        (s.core.headCon h = some k → s.core.rdB (rg .HD_CTRL h) 0 = true → t.core.scanning h = true ∧ t.core.headLine h = k.vActive % 8192 ∧
          (t.core.head h).doneDue = true ∧ (t.core.head h).tickDue = true ∧ (t.core.head h).under = none ∧
          (t.core.head h).blankAt = (if k.hMode = 1 then s.core.lockedTick k x (x.tickIdx + 1) else
            x.blankAt + (if k.hMode = 3 then max (s.core.linesPs k (k.vTotal + x.ext)) (ceilDiv 1000000000000000 (k.n 9)) else s.core.linesPs k (k.vTotal + x.ext))) ∧
          (t.core.head h).sync = [.HD_HSYNC, .HD_VSYNC, .HD_OUT, .HD_QUIET, .HD_LINE_MATCH].map (fun f => s.core.rd (rg f h))) ∧
        (s.core.headCon h = none ∨ s.core.rdB (rg .HD_CTRL h) 0 = false → t.core.scanning h = false ∧ (t.core.head h).con = none) ∧ calm t))) ∧
    (∀ k, x.con = some k → s.core.scanning h = true → s.core.headLine h = k.vTotal - k.hStrip → x.line0 ≠ x.lineAt + s.core.linesPs k k.hStrip →
      Gives (.latchInstant h) s (fun t =>
        let y := t.core.head h
        y.act = s.core.pendingSet h (fun r => r.j < 30) ∧ y.line0 = x.lineAt + s.core.linesPs k k.hStrip ∧ y.due = some 0 ∧ y.next = none ∧ y.inUse = true ∧
        (∀ p ∈ s.core.headSources h k, (kget {} y.latched p.1).part = true) ∧
        (∀ p, s.core.headSources h k = [p] → s.core.snapOf h p.2 = none → (s.core.slot p.2).held.stamp ≠ [] → stampOk (s.core.slot p.2).held.stamp = true →
          kget {} y.latched p.1 = { part := true, addr := (s.core.slot p.2).held.addr, stamp := (s.core.slot p.2).held.stamp, ok := true }) ∧
        (isDirect k = false → s.core.inBanks (s.core.owner 1 h) (snapF s.core.var s.core.regs (rg .HD_COMP_RING h) 24 7 * 128) (2 * k.hActive * k.hStrip * 4) = false →
          y.ringBad = true ∧ t.core.rdB (rg .HD_COMP_STATUS h) 0 = true) ∧
        t.core.rdB (rg .HD_COMP_STATUS h) 2 = decide (k.vTotal - k.hStrip < k.vActive ∨ s.core.linesPs k (k.vTotal - k.hStrip - k.vActive) < 1000000) ∧
        still t ∧ t.core.adm = s.core.adm)) ∧
    (∀ k n, x.con = some k → s.core.scanning h = true → x.due = some n → n < stripCount k → Gives (.stripCompositionStart h n) s (fun t =>
      (t.core.head h).due = none ∧ (∃ r, (t.core.head h).next = some r ∧ r.k = n ∧ r.lines = stripEnd k n - n * k.hStrip ∧ r.broken = false) ∧
      ((∀ j, j < 32 → s.core.mkView h k n j = none) → isDirect k = false → x.ringBad = false →
        s.core.inBanks (s.core.owner 1 h) (snapF s.core.var x.act (rg .HD_COMP_RING h) 24 7 * 128) (2 * k.hActive * k.hStrip * 4) = true →
        (∀ d, 6 ≤ d → d ≤ 9 → s.core.domOn d = true) → (∀ w, kget 0 s.core.flips w = 0) → (∀ w, s.core.poisoned w = false) →
        ∀ y p, n * k.hStrip ≤ y → y < stripEnd k n → p < k.hActive →
          leAt t.core.mem (ringLineAddr (snapF s.core.var x.act (rg .HD_COMP_RING h) 24 7 * 128) k y + 4 * p) 4 =
            (colOf (snapRd s.core.var x.act (rg .HD_BGCOLOR h))).word.toNat) ∧ t.core.adm = s.core.adm)) ∧
    (∀ k n complete, x.con = some k → s.core.scanning h = true → (s.core.nextLine h k).1 = n * k.hStrip → (s.core.nextLine h k).2.2 = false → n < stripCount k →
      x.under = none → x.unlatched = false → Gives (.stripScanoutStart h n complete) s (fun t => calm t ∧
        (∀ r, x.next = some r → complete = true → r.k = n → r.broken = false → x.ringBad = false → (t.core.head h).scan = some r ∧ (t.core.head h).next = none ∧
          (t.core.head h).due = (if n + 1 < stripCount k then some (n + 1) else none)) ∧
        (complete = false ∨ x.next = none → failed t (n * k.hStrip) ∧ (t.core.head h).next = none ∧ (t.core.head h).due = none))) ∧
    (x.doneDue = true → Gives (.frameDone h) s (fun t => (t.core.head h).frames = x.frames + 1 ∧ (t.core.head h).doneDue = false ∧
      t.core.rdB (rg .HD_EVT h) 2 = true ∧ Only (fun r => r == rg .HD_EVT h) (fun c d => { d with heads := c.heads, free := c.free }) s t)) ∧
    (∀ n check, n < s.core.counts.le → Gives (.engineFault n check) s (fun t => t.core.leState n = 2 ∧ t.core.rdB (rg .LE_FAULT n) (if check then 1 else 0) = true ∧
      t.core.rdF (rg .LE_ERR_CNT n) 15 0 = sat 65535 (s.core.rdF (rg .LE_ERR_CNT n) 15 0 + 1) ∧
      (∀ r, x.group.contains n = true → x.next = some r → (t.core.head h).next = some { r with broken := true }) ∧
      Only (fun r => r == rg .LE_FAULT n || r == rg .LE_ERR_CNT n || r == rg .LE_STATUS n) (fun c d => { d with heads := c.heads }) s t)) ∧
    ∀ (vs : List LayView) (v : LayView) (i y : Nat) (p : W32), v ∈ vs → v.slot < 30 → inRegion vs v i y = true → v.state = 4 → substitute vs i y p = 0

/-! ### Links -/

/-- A DisplayPort transmitter: a training begins on hot-plug, on a reported loss of lock or on request and turns the streams off; its outcome shows in
DPT_STATUS, the streams then enabled fit the link's payload, and a training without a configuration, a hot-plug loss and a link loss all
mark the link lost and raise bit 7 of each head carried; a DEFER is retried after 400 µs, at most seven times, any other reply ends the AUX
transaction with its code and the read bytes; a sink value among the last window frames is a match, another one counts, and sink_bad is set
at the limit (R247 to R251). -/
def Obligations.LinksFollowTheirSinks : Prop :=
  ∀ (s : State) (n : Nat), n < 8 → s.core.posted = [] →
    let status := rg .DPT_STATUS n
    let x := s.core.dpt n
    let K : Core → Core → Core := fun c d => { d with dpts := c.dpts }
    let training (t : State) : Prop := (t.core.dpt n).training = true ∧ (t.core.dpt n).on = [] ∧ t.core.trained n = false
    let lost (t : State) : Prop := t.core.rdB status 2 = true ∧ t.core.trained n = false ∧ (t.core.dpt n).training = false ∧ (t.core.dpt n).on = [] ∧
      (∀ k ∈ s.core.wanted n, t.core.rdB (rg .HD_EVT (2 * n + k)) 7 = true) ∧
      Only (fun r => r == status || r.fam == .HD_EVT || r == rg0 .SYS_BOOT_STATUS) K s t
    (s.core.dptPresent n = true →
      (∀ cause, Gives (.linkTrain n cause) s (fun t => t.core.rdB status 30 = (decide (cause = 1) || s.core.rdB status 30) ∧
        (s.core.rdB (rg .DPT_CTRL n) 0 = true → training t) ∧ Only (fun r => r == status) K s t)) ∧
      (∀ ll, Gives (.irqHpd n ll) s (fun t => t.core.rdB status 0 = true ∧ (ll = true → s.core.rdB (rg .DPT_CTRL n) 0 = true → training t) ∧
        Only (fun r => r == status) K s t)) ∧
      Gives (.hpdLoss n) s (fun t => t.core.rdB status 30 = false ∧ lost t)) ∧
    (s.core.trained n = true → Gives (.linkLoss n) s lost) ∧
    (x.training = true → ∀ rate lanes fec lttpr sr sl crc msa,
      let r0 := min (s.core.rdF (rg .DPT_LINK n) 3 0) sr
      let l0 := min (s.core.rdF (rg .DPT_LINK n) 6 4) sl
      let good := linkMbps rate ≠ 0 ∧ rate ≤ r0 ∧ lanes ≤ l0 ∧ (lanes = 1 ∨ lanes = 2 ∨ lanes = 4) ∧
        (s.core.rdB (rg .DPT_CTRL n) 3 = true ∨ (rate = r0 ∧ lanes = l0))
      (good → Gives (.linkTrainingDone n rate lanes fec lttpr sr sl crc msa) s (fun t => t.core.trained n = true ∧ t.core.rdF status 28 25 = rate ∧
        t.core.rdF status 24 22 = lanes ∧ (t.core.dpt n).training = false ∧ ((t.core.dpt n).on.map (fun p => t.core.streamBits n p.1)).sum ≤ t.core.payload n ∧
        (∀ p ∈ (t.core.dpt n).on, p.1 ∈ s.core.wanted n) ∧ Only (fun r => r == status || r.fam == .HD_EVT) K s t)) ∧
      (¬ good → Gives (.linkTrainingDone n rate lanes fec lttpr sr sl crc msa) s (fun t => t.core.rdB status 1 = true ∧ lost t))) ∧
    (∀ v, x.aux = some v →
      let aux := rg .DPT_AUX_STATUS n
      let ended (t : State) (r : Nat) : Prop := (t.core.dpt n).aux = none ∧ t.core.rdB aux 31 = false ∧ t.core.rdF aux 29 28 = r ∧
        t.core.rdB aux 30 = s.core.rdB aux 30 ∧ Only (fun r => r == aux || (r.fam == .DPT_AUX_DATA && r.i == n)) K s t
      (∀ r data, ¬ (r % 4 = 2 ∧ x.retries < 7) → Gives (.auxReply n r data) s (fun t => ended t (r % 4) ∧
        (fld v 31 28 % 2 = 1 → r % 4 = 0 → data.length = fld v 27 24 + 1 → t.core.rdF aux 4 0 = data.length ∧
          ∀ i, i < data.length → t.core.rdF (rg2 .DPT_AUX_DATA n (i / 4)) (i % 4 * 8 + 7) (i % 4 * 8) = (data.getD i 0).toNat))) ∧
      (x.retries < 7 → Gives (.auxDeferRetry n) s (fun t => (t.core.dpt n) = { x with retries := x.retries + 1 } ∧ t.core.now = s.core.now + 400000000 ∧
        Only (fun _ => false) (fun c d => { d with dpts := c.dpts, now := c.now }) s t)) ∧
      (7 ≤ x.retries → Gives (.auxDeferRetry n) s (fun t => ended t 2))) ∧
    ∀ k ok crc,
      let h := 2 * n + k
      let y := s.core.head h
      let st := rg .DPT_SINKCRC_STAT n
      let cfg := s.core.rd (rg .DPT_SINKCRC n)
      let v := [crc / 4294967296 % 65536, crc / 65536 % 65536, crc % 65536]
      let runs := bit cfg 31 = true ∧ x.sinkCrc = true ∧ kget false x.on k = true ∧ s.core.rdB (rg2 .DPT_STREAM n k) 30 = false ∧ k < 2
      (¬ runs → Gives (.sinkCrcResult n k ok crc) s (fun t => t.core.rdB st 7 = false ∧ OnlyRegs (fun r => r == st) s t)) ∧
      (runs → Gives (.sinkCrcResult n k ok crc) s (fun t =>
        (ok = true → v ∈ y.crcs.take (max 1 (fld cfg 11 8)) → t.core.rdB st 7 = true ∧ t.core.rdB (rg .HD_STATUS h) 27 = false ∧ (t.core.head h).misses = 0) ∧
        (ok = true → v ∉ y.crcs.take (max 1 (fld cfg 11 8)) → t.core.rdB st 7 = true ∧ (t.core.head h).misses = y.misses + 1 ∧
          t.core.rdB (rg .HD_EVT h) 6 = true ∧ t.core.rdF st 31 16 = sat 65535 (s.core.rdF st 31 16 + 1) ∧
          (max 1 (fld cfg 7 0) ≤ y.misses + 1 → t.core.rdB (rg .HD_STATUS h) 27 = true)) ∧
        (ok = false → t.core.rdF st 15 8 = sat 255 (s.core.rdF st 15 8 + 1) ∧ (t.core.head h).misses = y.misses ∧
          (2 ≤ y.auxBad → t.core.rdB st 7 = false)) ∧
        Only (fun r => r == st || r == rg .HD_STATUS h || r == rg .HD_EVT h) (fun c d => { d with heads := c.heads }) s t))

/-! ### Encoders and the witness -/

/-- Encoders and the recorder: the token comes back one period after the last; a ready row joins the newest picture with its deadline; the row with
the earliest deadline is coded by the cap rule, a late one wholly in fallback and counted, and the last row ends its picture; a fault
drops every picture and restarts with an IDR; a row of a remote picture lies in its slot of the input ring, a coded row in its rows of the reference
buffer, and neither reaches another byte; a record enters its namespace's segment, or, the staging ring full, is dropped and counted; a
closed segment takes the next number; sealed, it is offered with its hash as the next one's predecessor, and lies in the ring (R279, R286,
R287, R289 to R293). A picture's bytes stay within 1.02 times its cap: whatever its CTUs take, the cap rule over a row keeps room for a fallback of every CTU left
(R287). -/
def Obligations.EncodersFeedTheWitness : Prop :=
  (∀ s : State, s.core.posted = [] →
    let w := s.core.wit
    let Kw : Core → Core → Core := fun c d => { d with wit := c.wit }
    (∀ e x y, s.core.encCon e x = some y →
      let q := s.core.enc e x
      let K : Core → Core → Core := fun c d =>
        { d with encs := c.encs, encCaches := c.encCaches, wit := c.wit, free := c.free, now := c.now, evr := { d.evr with blk := c.evr.blk } }
      let alone (t : State) : Prop := ∀ i, i ≠ 8 * e + x → kget {} t.core.encs i = kget {} s.core.encs i
      let apart (t : State) (a n : Nat) (b m : Nat) : Prop := s.core.dmc.reqs = [] →
        ∀ j, (j < a ∨ a + n ≤ j) → (j < b ∨ b + m ≤ j) → memByte t.core.mem j = memByte s.core.mem j
      let mine (r : Reg) : Bool := [Fam.VEE_STR_PICS, .VEE_STR_BYTES, .VEE_STR_FALLBACK, .VEE_STR_DROP, .VEE_STR_STATE, .VEE_EVT, .VEE_STATUS].contains r.fam
      let coded (p : EncPic) (later : List EncPic) (r : Nat × Bool × Bool) (t : State) : Prop :=
        (p.made + 1 ≠ encRows p.con → ∃ m, (t.core.enc e x).pics = m :: later ∧ m.made = p.made + 1 ∧ m.bytes = r.1 ∧ m.ready = p.ready.tail ∧
          m.bitmap = (if r.2.2 then p.bitmap + 2 ^ p.made else p.bitmap)) ∧
        (p.made + 1 = encRows p.con → (t.core.enc e x).pics = later ∧ t.core.rd (rg2 .VEE_STR_PICS e x) = s.core.rd (rg2 .VEE_STR_PICS e x) + 1 ∧
          t.core.rd (rg2 .VEE_STR_BYTES e x) = w32 r.1 ∧ t.core.rdB (rg .VEE_EVT e) 0 = true) ∧ alone t ∧ OnlyMem mine K s t ∧
        let line := p.con.f 5 31 16 * sampleBytes p.con
        let n := min 64 (p.con.f 5 15 0 - 64 * p.made)
        apart t (refBuf p.con q.buf + 64 * p.made * line) (n * line) (refBuf p.con q.buf + p.con.f 5 15 0 * line + 32 * p.made * line) (n / 2 * line)
      let rule (p : EncPic) (start : Nat) (drop : Bool) (sizes fallback : List Nat) : Nat × Bool × Bool :=
        capRow (p.con.n 8) (if p.idr then 96 else 2) ((encRows p.con - p.made) * encCols p.con) start (p.spent || drop) false
          ((List.range (encCols p.con)).map (fun i => sizes.getD i 0)) fallback
      (s.core.encState e x ≠ 0 → s.core.encState e x ≠ 3 → Gives (.encodeTokenRefill e x) s (fun t => (t.core.enc e x).token = true ∧
        (t.core.enc e x).tokenAt = q.tokenAt + encPeriod y ∧ (t.core.enc e x).pics = q.pics ∧ q.tokenAt * 1000 ≤ t.core.now ∧
        t.core.encState e x = (if encRemote y && q.token then 1 else s.core.encState e x) ∧ alone t ∧ Only mine K s t)) ∧
      (∀ row deadline frame t0 flags older p, encRemote y = false → q.pics = older ++ [p] → encRemote p.con = false →
        row = p.made + p.ready.length → row < encRows p.con → min (p.con.f 5 15 0) (64 * (row + 1)) ≤ p.lines →
        Gives (.ctuRowReady e x row deadline frame t0 flags) s (fun t =>
          (∃ fl, (t.core.enc e x).pics = older ++ [{ p with ready := p.ready ++ [{ row := row, deadline := deadline }], flags := fl }]) ∧ alone t ∧ Only mine K s t)) ∧
      (∀ deadline frame t0 flags, encRemote y = true → q.token = true → s.core.encState e x ≠ 3 → 0 < encRows y →
        Gives (.ctuRowReady e x 0 deadline frame t0 flags) s (fun t => (∃ p, (t.core.enc e x).pics = q.pics ++ [p] ∧ p.frame = frame ∧ p.t0 = t0 ∧ p.con = y ∧
          p.ready = [{ row := 0, deadline := deadline }]) ∧ (t.core.enc e x).token = false ∧ alone t ∧ OnlyMem mine K s t ∧
          apart t (encSlot y 0) (64 * y.f 5 31 16 * 3 / 2 * sampleBytes y) 0 0)) ∧
      (∀ p later, q.pics = p :: later →
        (∀ v head sizes fallback, s.core.encNext e = some (x, v) → Gives (.ctuRowCoded e x head sizes fallback) s
          (coded p later (rule p (p.bytes + head) false sizes fallback))) ∧
        ∀ fallback, Gives (.rowDeadline e x p.made fallback) s (fun t => coded p later (rule p p.bytes true [] fallback) t ∧
          t.core.rdF (rg2 .VEE_STR_DROP e x) 15 0 = sat 65535 (s.core.rdF (rg2 .VEE_STR_DROP e x) 15 0 + 1) ∧ t.core.rdB (rg .VEE_EVT e) 2 = true)) ∧
      (e < s.core.counts.vee → x < 8 → Gives (.encoderFault e) s (fun t => (t.core.enc e x).pics = [] ∧ (t.core.enc e x).idrNext = true ∧
        t.core.rdB (rg .VEE_EVT e) 3 = true ∧
        (s.core.witOn = true → ∃ r, (nsOf y.sub, r) ∈ t.core.wit.queue ∧ r.kind = 5 ∧ r.stream = 8 * e + x) ∧ Only mine K s t))) ∧
    (∀ n r rest, w.queue = (n, r) :: rest →
      let g := kget {} w.gaps n
      let old := (w.segs.find? (fun p => p.1 = n)).map (fun p => p.2)
      let need := r.bytes.length + (if old.isNone then segExtra else 0) + (if g.open_ then (gapRec g).bytes.length else 0)
      Gives .witnessRecord s (fun t => t.core.wit.queue = rest ∧
        (s.core.staged + need ≤ s.core.stageSize → ∃ v, (t.core.wit.segs.find? (fun p => p.1 = n)).map (fun p => p.2) = some v ∧
          v.body = (match old with | some o => o.body | none => []) ++ (if g.open_ then (gapRec g).bytes else []) ++ r.bytes) ∧
        (s.core.stageSize < s.core.staged + need → t.core.wit.segs = w.segs ∧ (kget {} t.core.wit.gaps n).open_ = true ∧
          t.core.rdF (rg0 .WIT_GAP_CNT) 15 0 = sat 65535 (s.core.rdF (rg0 .WIT_GAP_CNT) 15 0 + 1)) ∧
        Only (fun r => r == rg0 .WIT_GAP_CNT || r == rg0 .WIT_STATUS) Kw s t)) ∧
    (∀ n p bySize, w.segs.find? (fun p => p.1 = n) = some p → (bySize = true → 67108864 ≤ p.2.body.length) →
      let num := s.core.rdPair (rg .WIT_SEG_LO n) (rg .WIT_SEG_HI n)
      Gives (.segmentClose n bySize) s (fun t => (∃ g, t.core.wit.closed = w.closed ++ [g] ∧ g.number = num ∧ g.body = p.2.body ∧ g.records = p.2.records) ∧
        t.core.wit.segs.find? (fun p => p.1 = n) = none ∧ t.core.rdPair (rg .WIT_SEG_LO n) (rg .WIT_SEG_HI n) = (num + 1) % 2 ^ 64 ∧
        (bySize = false → s.core.psOf ((p.2.tStart / witPeriod s.core + 1) * witPeriod s.core) ≤ t.core.now) ∧
        Only (fun r => r == rg .WIT_SEG_LO n || r == rg .WIT_SEG_HI n || r == rg0 .WIT_STATUS) (fun c d => { d with wit := c.wit, now := c.now }) s t)) ∧
    ∀ g rest, w.closed = g :: rest →
      let key := kget 0 w.keys g.key
      let bs := sealSeg key w.signKey s.core.devAddr (kget 0 w.prevs g.ns) g
      let base := s.core.rdPair (rg0 .WIT_STAGE_BASE_LO) (rg0 .WIT_STAGE_BASE_HI)
      let size := s.core.stageSize
      (key = 0 ∨ w.signKey = 0 → Gives .segmentHandoff s (fun t => OnlyRegs (fun r => r == rg0 .WIT_STATUS) s t)) ∧
      (key ≠ 0 → w.signKey ≠ 0 → Gives .segmentHandoff s (fun t => t.core.wit.closed = rest ∧
        t.core.wit.offered = w.offered ++ [{ ns := g.ns, number := g.number, bytes := bs, stage := s.core.stagePlace bs.length }] ∧
        kget 0 t.core.wit.prevs g.ns = Config.sha384 bs ∧
        (∀ a, s.core.stagePlace bs.length = [(a, bs.length)] → (s.core.check s.core.witClient.tag false true a bs.length).1 = .ok → s.core.memOn a = true →
          (∀ i, kget 0 s.core.flips i = 0) → (∀ i, s.core.poisoned i = false) → (∀ i, s.core.chState i ≠ 5) → s.core.dmc.reqs = [] →
          (size ≠ 0 → a = base + w.stageAt % size) ∧ ∀ k, k < bs.length → memByte t.core.mem (a + k) = bs.getD k 0) ∧
        (bs.length ≤ size → s.core.dmc.reqs = [] → ∀ j, (j < base ∨ base + size ≤ j) → memByte t.core.mem j = memByte s.core.mem j) ∧
        OnlyMem (fun r => r == rg0 .WIT_STATUS) Kw s t))) ∧
  (∀ (cap f left b : Nat) (spent fb : Bool) (sizes fallback : List Nat), sizes.length ≤ left → 100 * (b + left * f) ≤ 102 * cap →
    100 * ((capRow cap f left b spent fb sizes fallback).1 + (left - sizes.length) * f) ≤ 102 * cap)

/-! ### The cave -/

/-- The cave: an offered segment, read from the staging ring, that fits its namespace and its open superblock is stored there with its intent; committed, it is
done; a failed program makes its block bad, counts and takes a spare; a read counts on its blocks, a retry or a missing unit makes the superblock due, and
more than one missing unit loses the segment, counted; the patrol does the same page by page; a refresh moves the content of a due superblock to a new
one, byte for byte, and erases it; retention counts rise with the temperature of their die; members drain, time out and are admitted between
their states; a page of a stripe is the XOR of its others (R299, R300, R302 to R308, R310 to R313). -/
def Obligations.CaveKeepsWhatItAccepts : Prop :=
  (∀ (x : CSuper) (j u : Nat), 2 ≤ x.units.length → u < x.units.length → x.rebuilt j u = x.page j u) ∧
  ∀ s : State, s.core.posted = [] →
    let v := s.core.cave
    let still (t : State) : Prop := ∀ a, memByte t.core.mem a = memByte s.core.mem a
    let calm (t : State) : Prop := t.core.owners = s.core.owners ∧ t.core.adm = s.core.adm ∧ still t
    (∀ g rest, s.core.wit.offered = g :: rest →
      (s.core.caveTakes = false → Gives .caveSegmentAccept s (fun t => OnlyRegs (fun _ => false) s t)) ∧
      (∀ id sb bs, s.core.caveTakes = true → ((v.segs.filter (fun y => y.ns = g.ns)).map (fun y => y.len)).sum + bs.length ≤ s.core.nsCap g.ns →
        s.core.openOf g.ns = some (id, sb) → bs ≠ [] → sb.data.length + bs.length ≤ sb.cap →
        (g.stage = [] ∧ bs = g.bytes ∨ ∃ a, g.stage = [(a, bs.length)] ∧ bs = s.core.bytes a bs.length ∧ (∀ k, k < bs.length → s.core.memOn (a + k) = true) ∧
          (s.core.check s.core.caveClient.tag false false a bs.length).1 = .ok) →
        (∀ i, kget 0 s.core.flips i = 0) → (∀ i, s.core.poisoned i = false) → (∀ i, s.core.chState i ≠ 5) → s.core.dmc.reqs = [] →
        Gives .caveSegmentAccept s (fun t =>
          t.core.cave.segs = v.segs ++ [{ ns := g.ns, number := g.number, len := bs.length, spans := [(id, sb.data.length, bs.length)], stage := g.stage }] ∧
          t.core.wit.offered = rest ∧ kget (0, 0) t.core.cave.intents g.ns = (g.number + 1, Config.sha384 bs) ∧
          (t.core.super id).data = sb.data ++ bs ∧ still t ∧ OnlyMem (fun r => r == rg0 .WIT_STATUS) (fun c d => { d with cave := c.cave, wit := c.wit }) s t))) ∧
    (∀ g, v.segs.find? (fun y => !y.done && decide (y.ns < 64)) = some g → Gives .segmentCommit s (fun t =>
      t.core.cave.segs = v.segs.map (fun y => if y.ns = g.ns && y.number = g.number then { y with done := true } else y) ∧ calm t)) ∧
    (∀ m b, s.core.memState m = 1 → b < (s.core.member m).dies * (s.core.member m).blocks → (s.core.blk m b).bad = false → (s.core.blk m b).factory = false →
      (∀ id, (s.core.blk m b).sb = some id → ∃ g ∈ v.segs, g.done = false ∧ g.uses id = true) →
      let x := s.core.member m
      let die := b / x.blocks
      Gives (.programFailure m b) s (fun t =>
        (t.core.blk m b).bad = true ∧ t.core.rdB (rg0 .CAVE_EVT) 6 = true ∧
        t.core.rdF (rg .CAVE_MEMBER_STATUS m) 15 0 = sat 65535 (s.core.rdF (rg .CAVE_MEMBER_STATUS m) 15 0 + 1) ∧
        (sparesLeft x die = 0 → t.core.memState m = 4) ∧ (sparesLeft x die ≠ 0 → kget 0 (t.core.member m).used die = kget 0 x.used die + 1) ∧
        ((s.core.blk m b).sb = none → sparesLeft x die ≠ 0 → t.core.cave.segs = v.segs ∧ t.core.cave.supers = v.supers) ∧ calm t)) ∧
    (∀ n num g retry bad, s.core.findSeg n num = some g →
      let most := (g.supers.map (fun id => s.core.missing id (s.core.super id) bad)).foldl max 0
      Gives (.caveRead n num retry bad) s (fun t => calm t ∧
        (g.lost = true ∨ 1 < most → t.core.rdB (rg0 .CAVE_EVT) 8 = true ∧ (∀ y ∈ t.core.cave.segs, y.ns = n → y.number = num → y.lost = true) ∧
          t.core.rdF (rg0 .CAVE_LOSS_CNT) 15 0 = sat 65535 (s.core.rdF (rg0 .CAVE_LOSS_CNT) 15 0 + 1)) ∧
        (g.lost = false → most ≤ 1 → t.core.cave.segs = v.segs ∧ t.core.rd (rg0 .CAVE_LOSS_CNT) = s.core.rd (rg0 .CAVE_LOSS_CNT) ∧
          (most = 1 → t.core.rdB (rg0 .CAVE_EVT) 7 = true) ∧ (retry = true → ∀ id ∈ g.supers, (t.core.super id).due = true)))) ∧
    (∀ m b page bits retry parity id, (s.core.blk m b).sb = some id → s.core.memState m = 1 → page = kget 0 v.patrol (blkKey m b) →
      let gone : Prop := parity = true ∧ 1 < s.core.missing id (s.core.super id) [m]
      let w := (s.core.super id).dataUnits * 16384
      Gives (.affinageRead m b page bits retry parity) s (fun t => (t.core.blk m b).reads = (s.core.blk m b).reads + 1 ∧
        (¬ gone → t.core.cave.segs = v.segs) ∧
        (gone → ∀ g ∈ v.segs, g.done = true → (∃ p ∈ g.spans, p.1 = id ∧ p.2.1 < (page + 1) * w ∧ page * w < p.2.1 + p.2.2) →
          ∃ y ∈ t.core.cave.segs, y.ns = g.ns ∧ y.number = g.number ∧ y.lost = true) ∧
        (s.core.rdF (rg0 .CAVE_PATROL) 23 16 ≤ bits ∨ 100 < bits ∨ retry = true ∨ parity = true → (t.core.super id).due = true) ∧
        Only (fun r => r == rg0 .CAVE_EVT || r == rg0 .CAVE_LOSS_CNT) (fun c d => { d with cave := c.cave }) s t)) ∧
    (∀ id d nid, let x := s.core.super id
      x.due = true → x.full = true → 2 ≤ x.units.length → s.core.missing id x [] < 2 → s.core.openSuper x.ns = some (d, nid) → nid ≠ id →
      x.data.length ≤ (d.super nid).cap → (∀ g ∈ v.segs, ∀ p ∈ g.spans, p.1 = id → 0 < p.2.2 ∧ p.2.1 + p.2.2 ≤ x.data.length) →
      (∀ u ∈ x.units, (s.core.blk u.1 u.2).weak = false) → Gives (.superblockRefresh id) s (fun t =>
      t.core.cave.segs = v.segs.map (fun g => if g.uses id then { g with spans := g.spans.map (fun p => if p.1 = id then (nid, p.2) else p) } else g) ∧
      (t.core.super nid).data = x.data ∧ t.core.cave.supers.find? (fun p => p.1 = id) = none ∧ calm t)) ∧
    (∀ temps, Gives (.retentionUpdate temps) s (fun t => (∀ m d, d < (s.core.member m).dies →
        let at_ := ((temps.find? (fun q => q.1 = m && q.2.1 = d)).map (fun q => q.2.2)).getD (sx16 (s.core.rdF (rg0 .PWR_TEMP) 15 0) / 16)
        kget 0 (t.core.member m).ret d = kget 0 (s.core.member m).ret d + retStep at_) ∧
      (∀ p ∈ v.supers, (∃ u ∈ p.2.units, s.core.retLimit ≤ t.core.retOf u.1 u.2) → (t.core.super p.1).due = true) ∧
      v.retAt + 60000000000000 ≤ t.core.now ∧ t.core.cave.retAt = t.core.now ∧ t.core.cave.blks = v.blks ∧
      t.core.cave.segs = v.segs ∧ Only (fun _ => false) (fun c d => { d with cave := c.cave, now := c.now }) s t)) ∧
    (∀ m, m < 32 →
      (s.core.memState m = 2 → Gives (.memberDrained m) s (fun t => t.core.memState m = 3 ∧ t.core.cave.cmd = none ∧ t.core.rd (rg0 .CAVE_MEMBER_RESULT) = 0 ∧
        t.core.rdB (rg0 .CAVE_EVT) 4 = true ∧ calm t)) ∧
      (s.core.memState m = 1 ∨ s.core.memState m = 2 ∨ s.core.memState m = 5 →
        let ch := s.core.rdF (rg .CAVE_MEMBER_CFG m) 9 8
        Gives (.memberTimeout m) s (fun t => t.core.memState m = 4 ∧ t.core.rdB (rg0 .CAVE_EVT) ch = true ∧
          t.core.rdF (rg .CAVE_CH_STATUS ch) 23 16 = sat 255 (s.core.rdF (rg .CAVE_CH_STATUS ch) 23 16 + 1) ∧ calm t))) ∧
    (∀ i : MemberId, s.core.memState i.m = 5 → Gives (.insertionDone i) s (fun t => t.core.memState i.m = (if idOk i then 1 else 6) ∧ t.core.cave.cmd = none ∧
      t.core.rd (rg0 .CAVE_MEMBER_RESULT) = (if idOk i then 0 else 4) ∧
      (idOk i = true → t.core.member i.m = { dies := i.dies, blocks := i.blocks, blkBytes := i.pages * 16384, endurance := i.endurance, base := 1 } ∧
        ∀ b, b < 4294967296 → t.core.blk i.m b = if i.bad.contains b then { factory := true } else {}) ∧ calm t)) ∧
    (v.rebuild = true → Gives .rebuildComplete s (fun t => t.core.rdB (rg0 .CAVE_EVT) 5 = true ∧ calm t ∧
      ((∀ p ∈ v.supers, s.core.missing p.1 p.2 [] = 0) → t.core.cave.segs = v.segs ∧ t.core.cave.rebuild = false ∧ t.core.rd (rg0 .CAVE_REBUILD) = 0) ∧
      ∀ id sb, v.supers = [(id, sb)] → 2 ≤ s.core.missing id sb [] → ∀ g ∈ v.segs, g.uses id = true →
        ∃ g' ∈ t.core.cave.segs, g'.ns = g.ns ∧ g'.number = g.number ∧ g'.lost = true))

/-! ### Audio -/

/-- Audio: an output's sample is the saturated sum of the permitted crosspoints and its gain, exact where the scaling divides, a saturation counted; a
domain's next sample advances its position at its instant, every sixteenth begins a period; TDM frames enter at the port's next position and a slip
counts; packets enter at their play positions, transmitted ones leave with their first position; a lost ratio or frame sync shows; a silent
output powers down and its pin with the last one; domain B starts at its synthesiser's lock (R315, R317, R320 to R325, R328, R329). -/
def Obligations.AudioMovesSampleBySample : Prop :=
  (∀ (c : Core) (o : Nat) (y : Contract) (xs : List (Nat × Contract × W32)) (words : List (Nat × W32)), (c.audOut o).down = false → (c.audOut o).waking = false →
    c.rdB (rg .AUD_OUT_GAIN o) 17 = false → c.rdB (rg .AUD_OUT_SIL o) 31 = false → (∀ p ∈ words, c.voiceOn p.1 o = false) →
    let share (q : Nat × Contract × W32) : Int :=
      if q.2.1.sub = y.sub ∨ c.rdB (rg .AUD_IN_CFG q.1) 29 = true
      then (if c.rdB (rg2 .AUD_XP o q.1) 16 then -(sInt q.2.2 * (c.rdF (rg2 .AUD_XP o q.1) 15 0 : Int)) else sInt q.2.2 * (c.rdF (rg2 .AUD_XP o q.1) 15 0 : Int))
      else 0
    let g : Int := (xs.map share).sum * (c.rdF (rg .AUD_OUT_GAIN o) 15 0 : Int)
    let n : Int := if c.rdB (rg .AUD_OUT_GAIN o) 16 then -g else g
    let d := c.mixOut o y xs words
    n % 268435456 = 0 →
      (d.audOut o).hist = (sWord (sat32 (n / 268435456)) :: (c.audOut o).hist).take 192 ∧
      (d.audOut o).peak = max (c.audOut o).peak (sat32 (n / 268435456)).natAbs ∧
      (sat32 (n / 268435456) ≠ n / 268435456 → d.rdB (rg0 .AUD_EVT) 16 = true ∧
        d.rdF (rg .AUD_OUT_STATUS o) 15 0 = sat 65535 (c.rdF (rg .AUD_OUT_STATUS o) 15 0 + 1)) ∧
      (sat32 (n / 268435456) = n / 268435456 → d.rdF (rg .AUD_OUT_STATUS o) 15 0 = c.rdF (rg .AUD_OUT_STATUS o) 15 0)) ∧
  ∀ s : State, s.core.posted = [] →
    let K : Core → Core → Core := fun c d => { d with aud := c.aud, now := c.now }
    (∀ d, s.core.audOn d = true → Gives (.mixSample d) s (fun t =>
      let pos := (s.core.audDom d).pos
      let periods (r : Nat) : Nat := s.core.rdF (rg .AUD_RING_CFG r) 23 16
      let chans (r : Nat) : Nat := s.core.rdF (rg .AUD_RING_CFG r) 29 24 + 1
      let base (r : Nat) : Nat := s.core.rdF (rg .AUD_RING_BASE r) 24 7 * 128
      (t.core.audDom d).pos = pos + 1 ∧ s.core.sampleAt d pos ≤ t.core.now ∧
      OnlyMem (fun r => [Fam.AUD_POS, .AUD_METER, .AUD_RING_WPTR, .AUD_RING_RPTR, .AUD_EVT, .AUD_OUT_STATUS, .AUD_NS_STATUS].contains r.fam)
        (fun c d => { d with aud := c.aud, wit := c.wit }) s t ∧
      (pos % 16 = 0 → (t.core.audDom d).tickDue = true ∧ t.core.rd (rg .AUD_POS d) = w32 pos) ∧
      (pos % 16 ≠ 0 → (t.core.audDom d).tickDue = (s.core.audDom d).tickDue) ∧
      (s.core.dmc.reqs = [] → ∀ a, (pos % 16 = 0 → ∀ r, r < 8 → s.core.rdB (rg .AUD_RING_CFG r) 31 = true → s.core.rdB (rg .AUD_RING_CFG r) 30 = true →
          s.core.rdF (rg .AUD_RING_WPTR r) 7 0 < periods r ∧ (kget [] s.core.aud.capture r).length ≤ 16 * chans r ∧
          (a < base r ∨ base r + periods r * 64 * chans r ≤ a)) →
        memByte t.core.mem a = memByte s.core.mem a))) ∧
    (∀ n drift data, n < 8 → s.core.rdB (rg .AUD_TDM_CFG n) 31 = true → s.core.audOn (s.core.tdmDom n) = true →
      let v := s.core.rd (rg .AUD_TDM_CFG n)
      let frame := (data.take (fld v 20 16)).map (fun w : W32 => w32 (w.toNat * (match fld v 26 25 with | 0 => 65536 | 1 => 256 | _ => 1)))
      let old := kget [] s.core.aud.rx n
      let here := (s.core.audDom (s.core.tdmDom n)).pos
      let at_ := if old = [] then here else match s.core.aud.rxNext.find? (fun p => p.1 = n) with | some p => p.2 | none => here
      let slip : Prop := bit v 30 = false ∧ (drift < -2 ∨ 2 < drift)
      Gives (.tdmFrame n drift data) s (fun t => Only (fun r => r == rg .AUD_TDM_STATUS n || r == rg0 .AUD_EVT) K s t ∧
        (¬ slip → kget [] t.core.aud.rx n = ((at_, frame) :: old).take 40 ∧ t.core.rd (rg .AUD_TDM_STATUS n) = s.core.rd (rg .AUD_TDM_STATUS n)) ∧
        (slip → t.core.rdB (rg0 .AUD_EVT) n = true ∧ t.core.rdF (rg .AUD_TDM_STATUS n) 15 0 = sat 65535 (s.core.rdF (rg .AUD_TDM_STATUS n) 15 0 + 1) ∧
          (drift < 0 → kget [] t.core.aud.rx n = old.take 40) ∧
          (0 < drift → kget [] t.core.aud.rx n = ((at_ + 1, frame) :: (at_, frame) :: old).take 40)))) ∧
    (∀ n, n < 8 → s.core.rdB (rg .AUD_TDM_CFG n) 31 = true → s.core.audOn (s.core.tdmDom n) = true → Gives (.tdmFsTimeout n) s (fun t =>
      t.core.aud.rxNext.find? (fun p => p.1 = n) = none ∧ t.core.aud.rx = s.core.aud.rx ∧
      (∀ p, s.core.aud.rxNext.find? (fun p => p.1 = n) = some p → s.core.sampleAt (s.core.tdmDom n) (p.2 + 15) ≤ t.core.now) ∧
      t.core.rdB (rg0 .AUD_EVT) n = true ∧ Only (fun r => r == rg0 .AUD_EVT) K s t)) ∧
    (∀ n udp ssrc pt ts chans data, s.core.rdB (rg .NET_PORT_CTRL n) 0 = true → n < s.core.counts.net → s.core.audOn 0 = true →
      ((∀ k, k < 8 → s.core.rdB (rg2 .AUD_NS_CFG n k) 31 = false) → Gives (.audioPacket n udp ssrc pt ts chans data) s (fun t => OnlyRegs (fun _ => false) s t)) ∧
      (∀ k e, k < 8 → (∀ j, j < 8 → j ≠ k → s.core.rdB (rg2 .AUD_NS_CFG n j) 31 = false) →
        let v := s.core.rd (rg2 .AUD_NS_CFG n k)
        let u := s.core.rd (rg2 .AUD_NS_UDP n k)
        let pos := (s.core.audDom 0).pos
        let ss := netSamples (bit v 30) data.length data
        bit v 31 = true → fld u 15 0 = udp → s.core.rd (rg2 .AUD_NS_SSRC n k) = ssrc → (bit u 23 = true → fld u 22 16 = pt) → chans = fld v 26 22 + 1 →
        e < 2147483648 → (ts + fld v 14 0) % 4294967296 = (pos + e) % 4294967296 →
        Gives (.audioPacket n udp ssrc pt ts chans data) s (fun t => Only (fun _ => false) K s t ∧
          ∀ i, i < ss.length / chans → (pos + e + i, (ss.drop (i * chans)).take chans) ∈ kget [] t.core.aud.net (16 * n + k)))) ∧
    (∀ n k y,
      let v := s.core.rd (rg2 .AUD_NS_CFG n k)
      let first := kget 0 s.core.aud.txPos (16 * n + k)
      let per := s.core.ptime v
      8 ≤ k → k < 16 → n < 4 → bit v 31 = true → 0 < per → first + per ≤ (s.core.audDom 0).pos → s.core.audOn 0 = true →
      s.core.outCon (fld v 21 15) = some y → s.core.ownerStopped y.sub = false → Gives (.audioPacketTx n k) s (fun t =>
        kget 0 t.core.aud.txPos (16 * n + k) = first + per ∧ (kget [] t.core.aud.sent (16 * n + k)).take 4 = (leBytes 4 first).reverse ∧
        (kget [] t.core.aud.sent (16 * n + k)).length = 4 + per * (fld v 26 22 + 1) * (if bit v 30 then 3 else 2) ∧ Only (fun _ => false) K s t)) ∧
    (∀ b err, b < 4 →
      (10000 < err.natAbs → Gives (.bridgeRatioFault b err) s (fun t => t.core.rdB (rg .AUD_BR_STATUS b) 31 = false ∧ t.core.rdB (rg0 .AUD_EVT) (12 + b) = true ∧
        OnlyRegs (fun r => r == rg .AUD_BR_STATUS b || r == rg0 .AUD_EVT) s t)) ∧
      (err.natAbs ≤ 10000 → Gives (.bridgeRatioFault b err) s (fun t => t.core.rdB (rg .AUD_BR_STATUS b) 31 = true ∧
        t.core.rdF (rg .AUD_BR_STATUS b) 15 0 = (BitVec.ofInt 16 err).toNat ∧ OnlyRegs (fun r => r == rg .AUD_BR_STATUS b) s t))) ∧
    (∀ o y, s.core.outCon o = some y → s.core.rdB (rg .AUD_OUT_SIL o) 31 = true → (s.core.audOut o).down = false → s.core.silNa o = false →
      ceilDiv (max 1 (s.core.rdF (rg .AUD_OUT_SIL o) 15 0) * s.core.audRate y.unit) 1000 ≤ (s.core.audOut o).quiet → Gives (.silenceHoldExpiry o) s (fun t =>
        (t.core.audOut o).down = true ∧ t.core.rdB (rg .AUD_OUT_STATUS o) 31 = true ∧ t.core.rdB (rg0 .AUD_EVT) 17 = true ∧
        (∀ p, s.core.pinOf o = some p → t.core.audPin p =
          if (s.core.pinOuts p).all (fun k => decide (k = o) || (s.core.audOut k).down) then {} else s.core.audPin p) ∧
        Only (fun r => r == rg .AUD_OUT_STATUS o || r == rg0 .AUD_EVT) K s t)) ∧
    (∀ p, (s.core.audPin p).asserted = true → Gives (.ampWakeDone p) s (fun t => (∀ o ∈ s.core.pinOuts p, (t.core.audOut o).waking = false) ∧
      (s.core.audPin p).wakeAt ≤ t.core.now ∧ Only (fun _ => false) K s t)) ∧
    ∀ lock, s.core.awake = true → s.core.rdN (rg .TKG_AUDIO_CFG 1) ≠ 0 → s.core.rdB (rg .AUD_DOM 1) 30 ≠ lock → Gives (.synthesiserLock lock) s (fun t =>
      t.core.rdB (rg .AUD_DOM 1) 30 = lock ∧ t.core.rdB (rg .AUD_DOM 1) 31 = true ∧ t.core.audRate 1 = s.core.rdN (rg .TKG_AUDIO_CFG 1) % 262144 ∧
      (lock = true → (t.core.audDom 1).origin = s.core.now ∧ (t.core.audDom 1).pos = 0 ∧ t.core.rd (rg .AUD_POS 1) = 0) ∧
      Only (fun r => r == rg .AUD_DOM 1 || r == rg .AUD_POS 1) K s t)

/-! ### Touch -/

/-- Touch engines: each tick of the rate timer makes a scan wait, or, with one running, is skipped and counted; a scan takes its configuration at its
start; the first scans set the baselines to their mean, a test scan marks the open electrodes, a spoiled linked scan is discarded and counted;
an untouched baseline moves by a part of its distance, a touched one stays; a report is written and its pointer moved, or, the ring full, dropped
and counted; link frames, replies and timeouts end as they came; a long contact is flagged; in WATCH an engine
scans 30 times a second, learns its baselines, and a gesture it has recognised wakes the device (R335 to R339, R342 to R347, R402). -/
def Obligations.TouchScansAndReports : Prop :=
  (∀ (x : Touch) (raw : List Nat) (k salt i : Nat),
    (kget false x.touched i = true ∨ tchSense x * tchDrive x ≤ i → kget 0 (trackBase x raw k salt) i = kget 0 x.base i) ∧
    (kget false x.touched i = false → i < tchSense x * tchDrive x → (256 * (raw.getD i 0 : Int) - kget 0 x.base i) % ((2 ^ k : Nat) : Int) = 0 →
      kget 0 (trackBase x raw k salt) i = kget 0 x.base i + (256 * (raw.getD i 0 : Int) - kget 0 x.base i) / ((2 ^ k : Nat) : Int))) ∧
  (∀ (c : Core) (n time : Nat) (more : Bool) (cs : List (Contact × Nat)),
    let base := c.rdF (rg .TCH_RING_BASE n) 24 7 * 128
    let m := c.rdF (rg .TCH_RING_CFG n) 7 0
    let w := c.rdN (rg .TCH_RING_WPTR n)
    let d := c.tchReport n time more cs
    w < m → cs.length ≤ 10 → c.inBanks (c.owner 9 n) base (m * 128) = true → (∀ k, 6 ≤ k → k ≤ 9 → c.domOn k = true) →
      (∀ i, kget 0 c.flips i = 0) → (∀ i, c.poisoned i = false) → (d.tch n).seq = (c.tch n).seq + 1 ∧
      ((w + 1) % m = c.rdF (rg .TCH_RING_RPTR n) 7 0 → d.mem = c.mem ∧ d.rdB (rg .TCH_EVT n) 3 = true ∧ d.rd (rg .TCH_RING_WPTR n) = c.rd (rg .TCH_RING_WPTR n) ∧
        d.rdF (rg .TCH_STATUS n) 15 8 = sat 255 (c.rdF (rg .TCH_STATUS n) 15 8 + 1)) ∧
      ((w + 1) % m ≠ c.rdF (rg .TCH_RING_RPTR n) 7 0 → d.rdN (rg .TCH_RING_WPTR n) = (w + 1) % m ∧ d.rdB (rg .TCH_EVT n) 0 = true ∧
        leAt d.mem (base + w * 128) 4 = (c.tch n).seq.toNat ∧ leAt d.mem (base + w * 128 + 8) 8 = time % 2 ^ 64 ∧
        ∀ a, (a < base + w * 128 ∨ base + w * 128 + 128 ≤ a) → memByte d.mem a = memByte c.mem a)) ∧
  ∀ (s : State) (n : Nat), s.core.posted = [] → n < 8 →
    let x := s.core.tch n
    let status := rg .TCH_STATUS n
    let evt := rg .TCH_EVT n
    let cfg := s.core.rd (rg .TCH_CFG n)
    let K : Core → Core → Core := fun c d => { d with tchs := c.tchs, now := c.now }
    (∀ w, s.core.watching n = some w →
      Gives (.touchRateTick n) s (fun t => (t.core.tch n).tickAt = x.tickAt + 33333333333 ∧ x.tickAt + 33333333333 ≤ t.core.now ∧
        (t.core.tch n).armed = !x.scanning ∧ Only (fun _ => false) K s t) ∧
      (x.armed = true → x.scanning = false → Gives (.scanStart n) s (fun t => (t.core.tch n).scanning = true ∧ (t.core.tch n).armed = false ∧
        (t.core.tch n).startAt = s.core.now ∧ Only (fun _ => false) K s t)) ∧
      (x.scanning = true → w.learn ≠ 0 → ∀ raw self, Gives (.scanEnd n raw self) s (fun t => (t.core.tch n).scanning = false ∧
        (∃ y, (t.core.tch n).watch = some y ∧ y.learn = w.learn - 1 ∧ y.hit = w.hit) ∧ Only (fun _ => false) K s t))) ∧
    (s.core.watching n = none → s.core.tchOn n = true →
      Gives (.touchRateTick n) s (fun t => (t.core.tch n).tickAt = x.tickAt + tchPeriod cfg ∧ x.tickAt + tchPeriod cfg ≤ t.core.now ∧
        (x.scanning = true → t.core.rdF status 23 16 = sat 255 (s.core.rdF status 23 16 + 1) ∧ (t.core.tch n).armed = x.armed) ∧
        (x.scanning = false → fld cfg 31 30 ≠ 1 → (t.core.tch n).armed = true) ∧ Only (fun r => r == status) K s t) ∧
      (let win := s.core.tchWindow cfg (s.core.rd (rg .TCH_PULSE n))
       let free := fld cfg 31 30 = 2 ∨ (s.core.rdB status 28 = true ∧ win = false)
       x.scanning = false → (x.armed = true ∨ (fld cfg 31 30 ≠ 0 ∧ ¬ free)) → (free ∨ win = true) →
        (s.core.ownerStopped (winOf (s.core.owner 9 n)) = false → Gives (.scanStart n) s (fun t => (t.core.tch n).scanning = true ∧
          (t.core.tch n).startAt = t.core.now ∧ (free → t.core.now = s.core.now ∧ (t.core.tch n).perWin = 0) ∧
          (¬ free → t.core.now = max s.core.now (s.core.tchNextWin cfg (if fld cfg 31 30 = 0 then max s.core.now x.tickAt else s.core.now)) ∧
            (t.core.tch n).perWin = s.core.tchLen cfg / max 1 (fld (s.core.rd (rg .TCH_PULSE n)) 11 0)) ∧ (t.core.tch n).cfg = cfg ∧ (t.core.tch n).geom = s.core.rd (rg .TCH_GEOM n) ∧
          (t.core.tch n).pulse = s.core.rd (rg .TCH_PULSE n) ∧ (t.core.tch n).testScan = x.selftest ∧ (t.core.tch n).armed = false ∧
          t.core.rdB status 28 = (s.core.rdB status 28 && !win) ∧ Only (fun r => r == status) K s t)) ∧
        (s.core.ownerStopped (winOf (s.core.owner 9 n)) = true → Gives (.scanStart n) s (fun t => t.core.tchOn n = false ∧ t.core.rd (rg .TCH_RING_WPTR n) = 0 ∧
          t.core.rd (rg .TCH_RING_RPTR n) = 0 ∧ (t.core.tch n).contacts = [] ∧
          Only (fun r => r == status || r == rg .TCH_RING_WPTR n || r == rg .TCH_RING_RPTR n) K s t))) ∧
      (let g := if x.scanning then x.cfg else cfg
       let y := s.core.head (fld g 29 26)
       fld g 31 30 ≤ 1 → s.core.rdB status 28 = false → s.core.tchLen g = 0 → Gives (.freeModeFallback n) s (fun t =>
        t.core.rdB status 28 = true ∧ t.core.rdB evt 3 = true ∧ (x.scanning = false → (t.core.tch n).armed = true) ∧
        (x.scanning = true → (t.core.tch n).perWin = 0 ∧ (t.core.tch n).startAt = t.core.now) ∧
        max x.since (if fld g 31 30 = 0 then y.lineAt else y.blankAt) + 2 * tchPeriod g ≤ t.core.now ∧ Only (fun r => r == status || r == evt) K s t)) ∧
      (x.scanning = true → (x.perWin = 0 ∨ s.core.tchLen x.cfg ≠ 0) → ∀ raw self,
        (linked n = true → x.spoiled = true → Gives (.scanEnd n raw self) s (fun t => (t.core.tch n).scanning = false ∧ t.core.rdB status 26 = true ∧
          t.core.rdB evt 3 = true ∧ t.core.rdF (rg .TCH_ERR_CNT n) 15 0 = sat 65535 (s.core.rdF (rg .TCH_ERR_CNT n) 15 0 + 1) ∧
          Only (fun r => r == status || r == evt || r == rg .TCH_ERR_CNT n) K s t)) ∧
        (x.spoiled = false → x.testScan = true → Gives (.scanEnd n raw self) s (fun t => (t.core.tch n).scanning = false ∧ t.core.rdB evt 2 = true ∧
          (∀ e, e < 48 → e < tchSense x → t.core.rdB (rg2 .TCH_ST_RES n (e / 32)) (e % 32) = decide (raw.getD e 0 < 64 * s.core.rdF (rg .TCH_ST_LIM n) 31 22)) ∧
          (∀ e, e < 47 → e + 1 < tchSense x → 64 * s.core.rdF (rg .TCH_ST_LIM n) 11 0 < self.getD e 0 →
            t.core.rdB (rg2 .TCH_ST_RES n (e / 32 + 3)) (e % 32) = true ∧ t.core.rdB (rg2 .TCH_ST_RES n ((e + 1) / 32 + 3)) ((e + 1) % 32) = true) ∧
          (t.core.tch n).contacts = x.contacts ∧ Only (fun r => r == status || r == evt || (r.fam == .TCH_ST_RES && r.i == n)) K s t)) ∧
        (linked n = false → x.testScan = false → x.learn = 1 → Gives (.scanEnd n raw self) s (fun t => (t.core.tch n).scanning = false ∧ (t.core.tch n).learn = 0 ∧
          (∀ i, i < tchSense x * tchDrive x → kget 0 (t.core.tch n).base i = 64 * ((kget 0 x.sums i + raw.getD i 0 : Nat) : Int)) ∧
          Only (fun r => (r.fam == .TCH_RAW || r.fam == .TCH_SELF) && r.i == n) K s t)) ∧
        (linked n = false → x.testScan = false → x.learn = 0 → x.rebasing = false → Gives (.scanEnd n raw self) s (fun t => (t.core.tch n).scanning = false ∧
          ∀ i, i < tchSense x * tchDrive x → kget false (t.core.tch n).touched i =
            (decide (256 * (s.core.rdF (rg .TCH_THR n) 31 16 : Int) ≤ nodeSignal x raw i) ||
              (kget false x.touched i && decide (256 * (s.core.rdF (rg .TCH_THR n) 15 0 : Int) ≤ nodeSignal x raw i))))))) ∧
    (∀ step ok counts, linked n = true → x.scanning = true → step ≤ 33 → Gives (.tslStepFrame n step ok counts) s (fun t =>
      (ok = true → kget [] (t.core.tch n).steps step = counts ∧ (t.core.tch n).spoiled = x.spoiled) ∧ (ok = false → (t.core.tch n).spoiled = true) ∧
      Only (fun _ => false) K s t)) ∧
    (∀ v, x.tsl = some v → x.scanning = false →
      let link := rg .TCH_TSL_STATUS n
      let ended (t : State) (r : Nat) : Prop := (t.core.tch n).tsl = none ∧ t.core.rdB link 31 = false ∧ t.core.rdB link 30 = true ∧
        t.core.rdF link 7 0 = r ∧ t.core.rdB link 29 = s.core.rdB link 29 ∧ Only (fun q => q == link || q == rg .TCH_TSL_DATA n) K s t
      (∀ crcOk data, Gives (.tslReply n crcOk data) s (fun t => ended t (if crcOk then 0 else 1) ∧
        (crcOk = true → fld v 31 28 = 9 → t.core.rd (rg .TCH_TSL_DATA n) = w32 (leNat (data.take (fld v 25 24 + 1)))) ∧
        (crcOk = false → t.core.rd (rg .TCH_TSL_DATA n) = s.core.rd (rg .TCH_TSL_DATA n)))) ∧
      Gives (.tslTimeout n) s (fun t => ended t 2)) ∧
    ((x.contacts.any (fun k => !k.long)) = true → Gives (.longHold n) s (fun t => t.core.rdB evt 1 = true ∧
      (t.core.tch n).contacts = x.contacts.map (fun k =>
        if k.since + s.core.rdF (rg .TCH_HOLD n) 15 0 * 1000000000 ≤ t.core.mono then { k with long := true } else k) ∧
      (∃ k ∈ x.contacts, k.long = false ∧ k.since + s.core.rdF (rg .TCH_HOLD n) 15 0 * 1000000000 ≤ t.core.mono) ∧ Only (fun r => r == evt) K s t)) ∧
    (s.core.pwr.asleep = 1 → n < 4 → touchPresent s.core.counts n = true → s.core.rdB (rg .TCH_WAKE n) 31 = true → s.core.rdB (rg0 .PWR_WAKE_EN2) n = true →
      (∃ w, s.core.watching n = some w ∧ w.hit = true) →
      Does (.wakeGesture n) s (fun c => c.wakeBy 2 n))

/-! ### Haptics -/

/-- Haptic channels: the enable delay ends in the effect's first segment, an overdrive with the duties of its amplitude on the stage in use, each
segment's end in the next one with a duration, the last in an idle channel with its notification; an urgent effect starts and a replaced one brakes at
the next carrier period, and a main segment takes its drive of that period; the enable falls after the hold time; a fault stops the drive with its
status; a self-test's end decides between checked and failed (R350, R351, R357 to R361). -/
def Obligations.HapticsRunTheirSegments : Prop :=
  ∀ (s : State) (n : Nat), s.core.posted = [] → n < 8 →
    let h := s.core.hpt n
    let status := rg .HPT_STATUS n
    let evt := rg .HPT_EVT n
    let seg := s.core.hptSeg n
    let K : Core → Core → Core := fun c d => { d with hpts := c.hpts, now := c.now, free := c.free }
    let calm (t : State) : Prop := Only (fun r => r == status || r == evt || r == rg .HPT_ERR_CNT n || r == rg .HPT_RCOIL n) K s t ∧
      ∀ m, m ≠ n → t.core.hpt m = s.core.hpt m
    let p := s.core.carrierPs n
    let inSeg (t : State) (x : HEff) (k at_ : Nat) : Prop := (t.core.hpt n).eff = some x ∧ t.core.hptSeg n = k ∧ (t.core.hpt n).cut = none ∧
      (t.core.hpt n).from_ = at_ ∧ (t.core.hpt n).till = at_ + x.len k * 1000000 ∧
      (k = 1 → h.test = none → at_ ≤ t.core.now → h.pz = false → t.core.hptPins n = (512 * fld x.w1 15 0, 0)) ∧
      (k = 1 → h.test = none → at_ ≤ t.core.now → h.pz = true → t.core.hptPins n = (65535 * 256 + min (65535 * 256) (fld x.w1 15 0 * s.core.rdF (rg .HPT_PZ_GAIN n) 8 0), 0))
    let idle (t : State) : Prop := (t.core.hpt n).eff = none ∧ (t.core.hpt n).pend = none ∧ t.core.hptSeg n = 0 ∧ (t.core.hpt n).drive = 0
    (∀ x, h.eff = some x →
      (h.en = 1 → x.next 1 ≠ 0 → Gives (.enableDelayDone n) s (fun t => inSeg t x (x.next 1) (ceilDiv t.core.now p * p) ∧ (t.core.hpt n).en = 2 ∧ h.readyAt ≤ t.core.now ∧ calm t)) ∧
      (seg = 1 ∨ seg = 2 ∨ seg = 3 →
        let nxt := if seg = 3 then 0 else x.next (seg + 1)
        (nxt ≠ 0 → Gives (.effectSegmentEnd n) s (fun t => inSeg t x nxt t.core.now ∧ (nxt = 3 → (t.core.hpt n).leave = false) ∧ h.till ≤ t.core.now ∧ calm t)) ∧
        (nxt = 0 → h.pend = none → Gives (.effectSegmentEnd n) s (fun t => idle t ∧ (bit x.w0 29 = true → t.core.rdB evt 0 = true) ∧
          (t.core.hpt n).holdAt = t.core.now + s.core.rdF (rg .HPT_PWM n) 23 16 * 1000000000 ∧ h.till ≤ t.core.now ∧ calm t)))) ∧
    (s.core.hptOn n = true → h.en = 2 →
      (∀ x, h.cut = some x → x.next 1 ≠ 0 → Gives (.carrierPeriod n) s (fun t => inSeg t x (x.next 1) t.core.now ∧ (t.core.hpt n).leave = false ∧ t.core.now = (s.core.now / p + 1) * p ∧ calm t)) ∧
      (∀ x, h.cut = none → h.eff = some x → h.leave = true → (seg = 1 ∨ seg = 2) → x.len 3 ≠ 0 → Gives (.carrierPeriod n) s (fun t =>
        inSeg t x 3 t.core.now ∧ (t.core.hpt n).leave = false ∧ t.core.now = (s.core.now / p + 1) * p ∧ calm t)) ∧
      (∀ x, h.cut = none → h.eff = some x → h.leave = false → seg = 2 → Gives (.carrierPeriod n) s (fun t =>
        (t.core.hpt n) = { h with drive := mainDrive x (t.core.now - h.from_) s.core.free } ∧ t.core.now = (s.core.now / p + 1) * p ∧ calm t)) ∧
      (h.cut = none → h.eff = none → Gives (.carrierPeriod n) s (fun t => t.core.now = (s.core.now / p + 1) * p ∧ t.core.hpts = s.core.hpts ∧ calm t))) ∧
    (h.eff = none → h.en = 2 → Gives (.enableHoldExpiry n) s (fun t => (t.core.hpt n).en = 0 ∧ h.holdAt ≤ t.core.now ∧ calm t)) ∧
    (∀ kind, s.core.hptOn n = true → h.en = 2 → h.eff.isSome = true → kind ≤ 3 → (kind < 2 → h.pz = false) → (kind = 3 → h.pz = true) →
      (kind = 1 → seg = 2 ∧ h.from_ + 2000000000 ≤ h.till) →
      Gives (.hapticFault n kind) s (fun t => t.core.rdB status (if h.pz then 2 else 1) = true ∧ (kind = 2 → t.core.rdB status 3 = true) ∧
        t.core.rdB evt 1 = true ∧ (t.core.hpt n).drive = 0 ∧
        (h.cut = none → h.pend = none → idle t ∧ (t.core.hpt n).en = 0 ∧
          t.core.rdF (rg .HPT_ERR_CNT n) 15 0 = sat 65535 (s.core.rdF (rg .HPT_ERR_CNT n) 15 0 + 1)) ∧ calm t)) ∧
    ∀ t0 r, h.test = some t0 →
      let ok := decide (s.core.rdF (rg .HPT_LIM2 n) 15 0 ≤ r ∧ r ≤ s.core.rdF (rg .HPT_LIM2 n) 31 16)
      Gives (.hapticSelftestEnd n r) s (fun t => t.core.rdB status 0 = ok ∧ t.core.rdB status 1 = !ok ∧ (t.core.hpt n).test = none ∧
        (ok = true → t.core.rd (rg .HPT_RCOIL n) = w32 (r % 65536)) ∧ t.core.rdB evt 0 = true ∧ t0 ≤ t.core.now ∧ calm t)

/-! ### Host interface -/

/-- A queue pair: a doorbell moves its pointer and, where the queue may start a command, the next entry is fetched; each of the seven commands ends
with its status and result words in the next completion entry, COMMIT with wait and WAIT_EPOCH once their epoch is reached; a full
completion queue stops the queue until its head moves (R368 to R371). -/
def Obligations.HostCommandsCompleteInTheirQueue : Prop :=
  ∀ (s : State) (f q : Nat), s.core.posted = [] → f < 64 → q < 4 →
    let x := s.core.hq f q
    let cfg := s.core.rd (rg2 .HOST_Q_CFG f q)
    let stat := rg2 .HOST_Q_STATUS f q
    let head := s.core.rdF stat 11 0
    let tail := s.core.rdF stat 23 12
    let a := hostBase + (s.core.rdPair (rg2 .HOST_CQ_BASE_LO f q) (rg2 .HOST_CQ_BASE_HI f q) + 16 * tail) % hostBase
    let sq := hostBase + (s.core.rdPair (rg2 .HOST_SQ_BASE_LO f q) (rg2 .HOST_SQ_BASE_HI f q) + 128 * head) % hostBase
    let bs := s.core.bytes sq 128
    let flag := leNat ((bs.drop 1).take 1)
    let cmd : HCmd := { op := leNat (bs.take 1), wait := flag % 2 = 1, irq := flag / 2 % 2 = 1, cid := leNat ((bs.drop 2).take 2), pay := (bs.drop 16).take 64 }
    let free (y : HQueue) : Prop := bit cfg 31 = true ∧ y.cur = none ∧ head ≠ y.tail % qSize (fld cfg 3 0) ∧ y.started < max 1 (fld cfg 19 8) ∧
      s.core.fnMaster f = true ∧ s.core.rdB (rg0 .HOST_LINK) 31 = true ∧ kget false s.core.hostIf.toD3 f = false
    let fetched (y : HQueue) (t : State) : Prop :=
      (free y → (tail + 1) % qSize (fld cfg 7 4) ≠ y.cqHead % qSize (fld cfg 7 4) → cmd.op ≤ 6 → sqReserved bs = true →
        t.core.hq f q = { y with started := y.started + 1, cur := some cmd } ∧ t.core.rdF stat 11 0 = (head + 1) % qSize (fld cfg 3 0) ∧ t.core.rdB stat 31 = true) ∧
      (free y → (tail + 1) % qSize (fld cfg 7 4) = y.cqHead % qSize (fld cfg 7 4) → t.core.hq f q = { y with stuck := true } ∧
        (y.stuck = false → t.core.rdB stat 30 = true) ∧ Only (fun r => r == stat || r == rg0 .HOST_EVT) (fun c d => { d with hostIf := c.hostIf }) s t) ∧
      (¬ free y → t.core.hq f q = y ∧ Only (fun _ => false) (fun c d => { d with hostIf := c.hostIf }) s t)
    (∀ v, Gives (.sqTailWrite f q v) s (fun t => fetched { x with tail := v % 4096 } t)) ∧
    (∀ v, Gives (.cqHeadWrite f q v) s (fun t => fetched { x with cqHead := v % 4096, stuck := false } t)) ∧
    (head = x.tail % qSize (fld cfg 3 0) → kget false s.core.hostIf.toD3 f = false →
      let done (h : HCmd) (st : Nat) (w1 w2 : W32) (t : State) : Prop := (t.core.hq f q).cur = none ∧ t.core.rdB stat 31 = false ∧ t.core.rdF stat 11 0 = head ∧
        t.core.rdF stat 23 12 = (tail + 1) % qSize (fld cfg 7 4) ∧
        (t.core.hq f q).phase = (if (tail + 1) % qSize (fld cfg 7 4) = 0 then !x.phase else x.phase) ∧
        (h.irq = false → leAt t.core.mem a 4 = w1.toNat ∧ leAt t.core.mem (a + 4) 4 = w2.toNat ∧ leAt t.core.mem (a + 8) 2 = head ∧
          leAt t.core.mem (a + 10) 2 = h.cid % 65536 ∧ leAt t.core.mem (a + 12) 2 = st ∧ leAt t.core.mem (a + 14) 2 = (if x.phase then 1 else 0))
      let waits (h : HCmd) (e : W32) (t : State) : Prop := t.core.hq f q = { x with cur := some { h with till := some e } } ∧ t.core.rd stat = s.core.rd stat
      (∀ h, s.core.hqCur f q 0 = some h → Gives (.nop f q) s (fun t => done h 0 0 0 t ∧
        (h.irq = false → Only (fun r => r == stat) (fun c d => { d with hostIf := c.hostIf }) s { t with core := { t.core with mem := s.core.mem } } ∧
          ∀ j, (j < a ∨ a + 16 ≤ j) → memByte t.core.mem j = memByte s.core.mem j))) ∧
      (∀ h, s.core.hqCur f q 1 = some h → Gives (.contract f q) s (fun t => t.core.adm.live = s.core.adm.live ∧
        (t.core.rdB (rg .ADM_PW_RESULT f) 31 = true → done h 1 (t.core.rd (rg .ADM_PW_RESULT f)) (t.core.rd (rg .ADM_PW_EXCESS f)) t) ∧
        (t.core.rdB (rg .ADM_PW_RESULT f) 31 = false → done h 0 (t.core.rd (rg .ADM_PW_RESULT f)) (t.core.rd (rg .ADM_PW_ID f)) t))) ∧
      (∀ h, s.core.hqCur f q 2 = some h →
        let r := s.core.sealDraft (s.core.tag (.host f))
        Gives (.commit f q) s (fun t => (9223372036854775808 ≤ r.2.toNat → done h 1 (lo32 r.2.toNat) 0x80000000 t) ∧
          (r.2.toNat < 9223372036854775808 → h.wait = false ∨ r.1.epochIn (lo32 r.2.toNat) = true → done h 0 (lo32 r.2.toNat) 0 t) ∧
          (r.2.toNat < 9223372036854775808 → h.wait = true → r.1.epochIn (lo32 r.2.toNat) = false → waits h (lo32 r.2.toNat) t))) ∧
      (∀ h, s.core.hqCur f q 3 = some h → Gives (.discard f q) s (fun t => t.core.draft f = {} ∧ t.core.adm.live = s.core.adm.live ∧ done h 0 0 0 t)) ∧
      (∀ h, s.core.hqCur f q 4 = some h →
        let v := w32 (leNat ((h.pay.drop 8).take 4))
        let r := s.core.pwPublish f (s.core.tag (.host f)) v (leNat (h.pay.take 8)) (w32 (leNat ((h.pay.drop 12).take 4)))
        Gives (.submit f q) s (fun t => t.core.rd (rg .SYS_SRC_PW_RESULT f) = w32 r.2 ∧ t.core.slots = r.1.slots ∧
          (r.2 = 0 → done h 0 0 (stampSeq (t.core.slot (fld v 9 0)).cur.stamp) t) ∧ (r.2 ≠ 0 → done h 1 (w32 r.2) 0 t))) ∧
      (∀ h, s.core.hqCur f q 5 = some h →
        let e := w32 (leNat (h.pay.take 4))
        Gives (.waitEpoch f q) s (fun t => ((s.core.rd (rg0 .ADM_EPOCH) - e).toNat < 2147483648 → done h 0 (s.core.rd (rg0 .ADM_EPOCH)) 0 t) ∧
          (2147483648 ≤ (s.core.rd (rg0 .ADM_EPOCH) - e).toNat → waits h e t))) ∧
      ∀ h retry bad ok, s.core.hqCur f q 6 = some h →
        let num := leNat (h.pay.take 8)
        let ns := leNat ((h.pay.drop 8).take 4)
        let buf := leNat ((h.pay.drop 16).take 8)
        let room := leNat ((h.pay.drop 24).take 4)
        Gives (.readSeg f q retry bad ok) s (fun t => (f ≠ 0 → ns ≠ f → done h 3 0 0 t) ∧
          (f = 0 ∨ ns = f → 64 ≤ ns ∨ s.core.findSeg ns num = none → done h 1 0 0 t) ∧
          ∀ g, f = 0 ∨ ns = f → ns < 64 → s.core.findSeg ns num = some g →
            ((s.core.caveRead g retry bad).2 = none → done h 5 0 0 t) ∧
            ∀ bytes, (s.core.caveRead g retry bad).2 = some bytes →
              (room < bytes.length → done h 1 (w32 bytes.length) 0 t) ∧
              (bytes.length ≤ room → buf < hostBase ∨ ok = false → done h 6 0 0 t) ∧
              (bytes.length ≤ room → hostBase ≤ buf → ok = true → (t.core.hq f q).cur = none ∧ t.core.rdF stat 23 12 = (tail + 1) % qSize (fld cfg 7 4) ∧
                (h.irq = false → (a + 16 ≤ buf ∨ buf + bytes.length ≤ a) → done h 0 (w32 bytes.length) 0 t ∧
                  ∀ k, k < bytes.length → memByte t.core.mem (buf + k) = bytes.getD k 0))))

/-- Messages, link and functions: a message that is due while its entry is masked sets its pending bit, and is sent at the unmask; in L0, to a function
that may master the bus, its data word is written and its count returns to 0; link changes, L1, L0, D3hot, D3cold and D0 show in HOST_LINK and
HOST_FN; a function-level reset clears the function's queues and table, counts, and resets its partition (R372 to R375, R377). -/
def Obligations.MessagesAndFunctionsFollowTheLink : Prop :=
  ∀ s : State, s.core.posted = [] →
    let fn (f : Nat) : Reg := rg .HOST_FN f
    let link := rg0 .HOST_LINK
    let evt := rg0 .HOST_EVT
    let K : Core → Core → Core := fun c d => { d with hostIf := c.hostIf, now := c.now }
    let goes (f : Nat) : Prop := s.core.linkState = 1 ∧ s.core.fnMaster f = true
    let sent (f v : Nat) (t : State) : Prop :=
      let e := v - s.core.vecFirst f
      let a := (s.core.msixWord f e 0).toNat + (s.core.msixWord f e 1).toNat * 4294967296
      leAt t.core.mem (hostBase + a % hostBase) 4 = (s.core.msixWord f e 2).toNat ∧ t.core.rdF (rg .HOST_MOD v) 23 16 = 0 ∧ kget false t.core.hostIf.held v = false
    (∀ v, v < 2048 →
      let f := (s.core.owner 7 v).part
      let e := v - s.core.vecFirst f
      s.core.rdF (rg .HOST_MOD v) 15 0 ≠ 0 → s.core.rdF (rg .HOST_MOD v) 23 16 ≠ 0 → kget false s.core.hostIf.held v = false →
      kget false s.core.hostIf.pba (2048 * f + e) = false → Gives (.moderationTimer v) s (fun t =>
        (kget 0 s.core.hostIf.since v + s.core.rdF (rg .HOST_MOD v) 15 0 * 1000) * 1000 ≤ t.core.now ∧
        (s.core.vecMasked f e = true → kget false t.core.hostIf.pba (2048 * f + e) = true ∧ Only (fun _ => false) K s t) ∧
        (s.core.vecMasked f e = false → goes f → sent f v t) ∧
        (s.core.vecMasked f e = false → ¬ goes f → kget false t.core.hostIf.held v = true ∧
          t.core.rdF (rg .HOST_MOD v) 23 16 = s.core.rdF (rg .HOST_MOD v) 23 16 ∧ ∀ b, memByte t.core.mem b = memByte s.core.mem b))) ∧
    (∀ f e, f < 64 → e < 2048 →
      let v := s.core.vecFirst f + e
      (s.core.vecIn f v = false → Gives (.msixUnmask f e) s (fun t => OnlyRegs (fun _ => false) s t)) ∧
      (s.core.vecIn f v = true → Gives (.msixUnmask f e) s (fun t => t.core.msixWord f e 3 = 0 ∧
        (kget false s.core.hostIf.pba (2048 * f + e) = true → s.core.rdB (fn f) 27 = true → kget false t.core.hostIf.pba (2048 * f + e) = false ∧
          (goes f → sent f v t)) ∧
        (kget false s.core.hostIf.pba (2048 * f + e) = false → Only (fun _ => false) K s t)))) ∧
    (2 ≤ s.core.linkState → s.core.linkState ≤ 4 → Gives .linkL0Return s (fun t => t.core.linkState = 1 ∧
      (s.core.hostIf.held = [] → OnlyRegs (fun r => r == link) s t))) ∧
    (∀ speed width, (s.core.boot.released = true → linkOk speed width = true → Gives (.pcieLinkChange true speed width) s (fun t => t.core.linkState = 1 ∧ t.core.rdF link 3 0 = speed % 16 ∧
        t.core.rdF link 7 4 = width % 16 ∧ t.core.rdB evt 0 = true)) ∧
      (s.core.boot.released = false ∨ linkOk speed width = false → Gives (.pcieLinkChange true speed width) s (fun t => OnlyRegs (fun _ => false) s t)) ∧
      Gives (.pcieLinkChange false speed width) s (fun t => t.core.linkState = 0 ∧ t.core.rdB evt 0 = true ∧ t.core.hostIf = s.core.hostIf ∧
        OnlyRegs (fun r => r == link || r == evt) s t)) ∧
    (∀ k, 1 ≤ s.core.linkState → s.core.linkState ≤ 4 → k < 3 → Gives (.aspmL1Entry k) s (fun t => t.core.linkState = 2 + k ∧ OnlyRegs (fun r => r == link) s t)) ∧
    Gives .d3coldEntry s (fun t => t.core.fnState 0 = 2 ∧ t.core.linkState = 5 ∧ t.core.rdB evt 2 = true ∧
      OnlyRegs (fun r => r == link || r == evt || r == fn 0) s t) ∧
    (∀ f, f < 64 →
      (s.core.fnState f = 0 → (∀ q, q < 4 → (s.core.hq f q).cur = none) → Gives (.d3hotEntry f) s (fun t => t.core.fnState f = 3 ∧ t.core.rdB evt 2 = true ∧
        Only (fun r => r == evt || r == fn f) K s t)) ∧
      (∀ q h, s.core.fnState f = 0 → q < 4 → (s.core.hq f q).cur = some h → h.till.isSome = true → (∀ k, k < 4 → k ≠ q → (s.core.hq f k).cur = none) → h.op ≠ 6 →
        Gives (.d3hotEntry f) s (fun t => t.core.fnState f = 0 ∧ kget false t.core.hostIf.toD3 f = true ∧ (t.core.hq f q).cur = some h)) ∧
      (∀ en, Gives (.functionD0Entry f en) s (fun t => t.core.fnState f = 0 ∧ t.core.rdB (fn f) 28 = true ∧ t.core.rdB (fn f) 27 = en ∧
        kget false t.core.hostIf.pme f = false ∧ (s.core.fnState f ≠ 0 → t.core.rdB evt 2 = true))) ∧
      Gives (.flr f) s (fun t => t.core.rdF (fn f) 15 0 = sat 65535 (s.core.rdF (fn f) 15 0 + 1) ∧ (f ≠ 0 → t.core.rdB evt 1 = true) ∧
        (∀ q, q < 4 → t.core.hq f q = {} ∧ ∀ r ∈ [Fam.HOST_SQ_BASE_LO, .HOST_SQ_BASE_HI, .HOST_CQ_BASE_LO, .HOST_CQ_BASE_HI, .HOST_Q_CFG, .HOST_Q_STATUS],
          t.core.rd (rg2 r f q) = regReset s.core.var (rg2 r f q)) ∧
        (∀ e j, e < 2048 → j < 4 → kget 0 t.core.hostIf.table ((2048 * f + e) * 4 + j) = 0) ∧
        t.core.partState f = (if s.core.partState f = 0 ∨ s.core.partState f = 4 then s.core.partState f else 3)))

/-! ### Rogar -/

/-- Wheels: a frame with a bad crc is counted, one for another member is forwarded with one more hop (it leaves at once or waits its turn, R380), a time or control frame is acknowledged and resent
at most three times; a strip's header enters the import bound to its origin and its stamp the slot; ports come up and go down with their event, a
port that goes down loses the slots bound to it; discovery and rebuilding show each member's path; the snapshot takes the slot's held
record; a strip leaves behind its header; a missing strip is counted and its deadline remembered (R379, R381, R383, R384, R387, R389, R390). -/
def Obligations.WheelsCarryTheirFrames : Prop :=
  ∀ s : State, s.core.posted = [] →
    let me := s.core.wheelNo
    let K : Core → Core → Core := fun c d => { d with rgl := c.rgl }
    let open_ (q : Nat) (f : RFrame) : Prop := f.cls = 2 ∨ s.core.linkShut q = false
    let idle (q : Nat) : Prop := kget [] s.core.rgl.txq q = [] ∧ kget 0 s.core.rgl.txAt q ≤ s.core.now
    let carried (q : Nat) (f : RFrame) (t : State) : Prop :=
      (f ∈ kget [] t.core.rgl.sent q ∨ ∃ e ∈ kget [] t.core.rgl.txq q, e.f = f) ∧ (idle q → kget [] t.core.rgl.sent q = [f] ∧ kget [] t.core.rgl.txq q = [])
    (∀ p (f : RFrame), p < s.core.counts.rogar → s.core.portUp p = true →
      let plain := f.crcOk = true ∧ open_ p f
      (f.crcOk = false → Gives (.linkFrame p f) s (fun t => t.core.rdF (rg .RGL_PORT_CRCERR p) 15 0 = sat 65535 (s.core.rdF (rg .RGL_PORT_CRCERR p) 15 0 + 1) ∧
        OnlyRegs (fun r => r == rg .RGL_PORT_CRCERR p) s t)) ∧
      (f.crcOk = true → ¬ open_ p f → Gives (.linkFrame p f) s (fun t => OnlyRegs (fun _ => false) s t)) ∧
      (plain → f.dst ≠ me → s.core.portUp (1 - p) = true → Gives (.linkFrame p f) s (fun t =>
        (open_ (1 - p) f → carried (1 - p) { f with hops := f.hops + 1 } t) ∧ t.core.rgl.imps = s.core.rgl.imps ∧ Only (fun _ => false) K s t)) ∧
      (plain → f.dst = me → f.cls ≤ 2 → Gives (.linkFrame p f) s (fun t => Only (fun _ => false) K s t ∧
        (f.ack = false → carried p { f with dst := f.src, src := me, hops := 0, ack := true, hdr := none, data := [] } t) ∧
        (f.ack = true → ∀ q ∈ t.core.rgl.unacked, ¬ (q.1 = p ∧ q.2.2.cls = f.cls ∧ q.2.2.seq = f.seq)))) ∧
      (∀ hdr i z, plain → f.dst = me → f.cls = 3 → f.hdr = some hdr → i < 16 → s.core.rdB (rg .RGL_IMP_CFG i) 31 = true →
        (∀ j, j < 16 → j ≠ i → s.core.rdB (rg .RGL_IMP_CFG j) 31 = false) →
        let slot := s.core.rdF (rg .RGL_IMP_CFG i) 9 0
        s.core.slotSrc slot = some z → z.f 7 3 0 = 3 → z.w 9 = stampW hdr.stamp 0 → (s.core.rglImp i).missed ≠ some (hdr.frame, hdr.k) →
        s.core.rateOk me = true → s.core.rateOk f.src = true → Gives (.linkFrame p f) s (fun t => (t.core.rglImp i).cur = some hdr ∧ (t.core.rglImp i).src = f.src ∧ (t.core.rglImp i).stream = f.stream ∧
          (t.core.rglImp i).seq0 = f.seq ∧ (t.core.rglImp i).got = 0 ∧ (∀ a, memByte t.core.mem a = memByte s.core.mem a) ∧
          (stampOk hdr.stamp = true → s.core.slotState slot ≠ 0 → s.core.partActive z.sub = true → (t.core.slot slot).far = hdr.stamp ∧
            (t.core.slot slot).lastPub = t.core.mono ∧ t.core.slotState slot = 2)))) ∧
    (∀ p n f rest, s.core.rgl.unacked = (p, n, f) :: rest → Gives .frameResend s (fun t => Only (fun _ => false) K s t ∧
      (n < 3 → t.core.rgl.unacked = rest ++ [(p, n + 1, f)] ∧ (open_ p f → carried p f t)) ∧ (3 ≤ n → t.core.rgl.unacked = rest))) ∧
    (∀ p far, p < s.core.counts.rogar → p < 2 → s.core.rdB (rg .RGL_PORT_CTRL p) 0 = true → s.core.portUp p = false → Gives (.portUp p far) s (fun t =>
      t.core.portUp p = true ∧ t.core.rdB (rg .RGL_PORT_STATUS p) 1 = decide (far % 2 = 1) ∧ t.core.rdB (rg0 .RGL_EVT) p = true ∧
      OnlyRegs (fun r => r == rg .RGL_PORT_STATUS p || r == rg0 .RGL_EVT) s t)) ∧
    (∀ p, p < 2 → s.core.portUp p = true → Gives (.portDown p) s (fun t => t.core.portUp p = false ∧ t.core.rdB (rg0 .RGL_EVT) p = true ∧
      t.core.rgl.unacked = s.core.rgl.unacked.filter (fun q => q.1 != p) ∧ kget [] t.core.rgl.txq p = [] ∧
      (∀ x ∈ s.core.adm.live, x.kind = kSOURCE → x.f 7 3 0 = 3 → x.f 10 0 0 = p → s.core.slotState x.unit ≠ 0 → t.core.slotState x.unit = 3) ∧
      Only (fun r => r == rg .RGL_PORT_STATUS p || r == rg0 .RGL_EVT || r.fam == .SYS_SRC_STATE || r.fam == .SYS_SRC_LOST) K s t)) ∧
    (∀ (a0 a1 : List WheelNode), s.core.counts.rogar ≠ 0 → a0.length ≤ 255 → a1.length ≤ 255 →
      let found (late : Bool) (t : State) : Prop :=
        kget [] t.core.rgl.along 0 = (if s.core.portUp 0 then a0 else []) ∧ kget [] t.core.rgl.along 1 = (if s.core.portUp 1 then a1 else []) ∧
        (∀ m, m < 256 → t.core.rdF (rg .RGL_TOPO (m / 2)) (m % 2 * 16 + 15) (m % 2 * 16) = topoHalf me (t.core.walk 0).nodes (t.core.walk 1).nodes m) ∧
        t.core.rdB (rg0 .RGL_WHEEL_STATUS) 31 = (!late && !(decide (s.core.counts.rogar < 2) && decide (me ≠ 0))) ∧
        t.core.rdB (rg0 .RGL_WHEEL_STATUS) 30 = ((t.core.walk 0).closed && (t.core.walk 1).closed) ∧ t.core.wheelNo = me
      (∀ late, Gives (.discovery late a0 a1) s (fun t => found late t ∧
        t.core.rgl.unacked.length = s.core.rgl.unacked.length + (if s.core.portUp 0 then 1 else 0) + (if s.core.portUp 1 then 1 else 0))) ∧
      ∀ room, Gives (.pathRebuild a0 a1 room) s (found false)) ∧
    (∀ x k, x < 16 →
      let ctl := s.core.rd (rg .RGL_EXP_CTRL x)
      let h := fld ctl 27 24
      let r := (s.core.slot (fld ctl 9 0)).held
      let e := s.core.rglExp x
      (s.core.head h).con = some k → bit ctl 30 = true → s.core.scanning h = true → s.core.headLine h + 2 * k.hStrip = k.vTotal → Gives (.exportSnapshot x) s (fun t =>
        let at_ := ((s.core.head h).lineAt + s.core.linesPs k k.hStrip) / 1000
        (r.stamp ≠ [] → stampOk r.stamp = true → (t.core.rglExp x).snap = r ∧ (t.core.rglExp x).nextK = 0 ∧ (t.core.rglExp x).frame = s.core.rdN (rg .HD_FRAME h) ∧
          (t.core.rglExp x).seqLast = stampSeq r.stamp ∧ (t.core.rglExp x).latchAt = at_ ∧
          (t.core.rglExp x).tChange = (if stampSeq r.stamp = e.seqLast ∧ stampSeq r.stamp ≠ 0 then e.tChange else s.core.ptpOf (at_ * 1000)) ∧ Only (fun _ => false) K s t) ∧
        (r.stamp = [] ∨ stampOk r.stamp = false → (t.core.rglExp x).snap = {} ∧ (t.core.rglExp x).nextK = stripCount k))) ∧
    (∀ x k hc ls y, x < 16 → s.core.expRef x = some (hc, ls, y) →
      let ctl := s.core.rd (rg .RGL_EXP_CTRL x)
      let h := fld ctl 27 24
      let e := s.core.rglExp x
      bit ctl 30 = true → e.snap.stamp ≠ [] → e.nextK = k → k < stripCount hc → s.core.portUp e.port = true →
      let span := stripSpan k hc.hStrip (s.core.expDst x).1 (s.core.expDst x).2 (s.core.expRect x).2.2.2
      (span = none → Gives (.stripSend x k) s (fun t => (t.core.rglExp x) = { e with nextK := k + 1 } ∧ t.core.rgl.sent = s.core.rgl.sent ∧ Only (fun _ => false) K s t)) ∧
      ∀ a b z, span = some (a, b) → s.core.slotSrc (fld ctl 9 0) = some z →
        let f (r : Fam) (hi lo : Nat) : Nat := snapF s.core.var (s.core.head h).act (rg2 r h ls) hi lo
        let ranges := expRanges e.snap.addr (s.core.expRect x).1 (s.core.expRect x).2.1 (s.core.expRect x).2.2.1 a b
          (planesOf (y.f 4 7 0) (f .LAYER_PITCH0 19 0) (f .LAYER_PITCH1 19 0) (f .LAYER_PLANE1 31 0) (f .LAYER_PLANE2 31 0))
        (∀ q ∈ ranges, (s.core.check (ownerOf z.sub) false false q.1 q.2).1 = .ok ∧ ∀ i, i < q.2 → s.core.memOn (q.1 + i) = true) →
        (∀ i, kget 0 s.core.flips i = 0) → (∀ i, s.core.poisoned i = false) → (∀ i, s.core.chState i ≠ 5) → s.core.dmc.reqs = [] →
        s.core.linkShut e.port = false → idle e.port →
        Gives (.stripSend x k) s (fun t => (t.core.rglExp x).nextK = k + 1 ∧ OnlyMem (fun _ => false) K s t ∧ (∀ j, memByte t.core.mem j = memByte s.core.mem j) ∧
          e.latchAt * 1000 - s.core.linesPs hc hc.hStrip + s.core.linesPs hc (k * hc.hStrip) ≤ t.core.now ∧
          ∃ g gs v, kget [] t.core.rgl.sent e.port = [g] ∧ (kget [] t.core.rgl.txq e.port).map (fun w => w.f) = gs ∧
            gs.flatMap (fun d => d.data) = ranges.flatMap (fun q => s.core.bytes q.1 q.2) ∧
            g.cls = 3 ∧ g.dst = fld ctl 23 16 ∧ g.src = me ∧ g.hdr = some v ∧ g.data = [] ∧
            v.stamp = e.snap.stamp ∧ v.tChange = e.tChange ∧ v.frame = e.frame ∧ v.k = k ∧ v.first = a ∧ v.last = b ∧
            v.timing = [hc.hTotal, hc.vTotal, hc.vActive, hc.hStrip, hc.hN, hc.hD] ∧
            ∀ d ∈ gs, d.hdr = none ∧ d.cls = 3 ∧ d.stream = x ∧ d.data.length ≤ 240)) ∧
    (∀ i k hc y, i < 16 → s.core.rdB (rg .RGL_IMP_CFG i) 31 = true →
      let slot := s.core.rdF (rg .RGL_IMP_CFG i) 9 0
      s.core.impHead slot = some (hc, y) → s.core.rogarStrip hc slot k = none → Gives (.stripMissing i k) s (fun t =>
        (t.core.rglImp i).count = (s.core.rglImp i).count + 1 ∧ (∃ fr, (t.core.rglImp i).missed = some (fr, k)) ∧
        (∀ hd, (t.core.rglImp i).cur = some hd → hd.k ≠ k) ∧
        t.core.rdF (rg .RGL_IMP_MISS i) 15 0 = sat 65535 (s.core.rdF (rg .RGL_IMP_MISS i) 15 0 + 1) ∧
        (((s.core.rglImp i).count + 1) % 256 = 0 → t.core.rdB (rg0 .RGL_EVT) 5 = true) ∧ Only (fun r => r == rg .RGL_IMP_MISS i || r == rg0 .RGL_EVT) K s t)) ∧
    ∀ n up, s.core.awake = true → n < s.core.counts.net → Gives (.netLinkChange n up) s (fun t => t.core.rdB (rg .NET_PORT_STATUS n) 0 = up ∧
      (up = true → OnlyRegs (fun r => r == rg .NET_PORT_STATUS n) s t) ∧
      (up = false → (∀ x ∈ s.core.adm.live, x.kind = kSOURCE → x.f 7 3 0 = 1 → x.f 9 1 0 = n → s.core.slotState x.unit ≠ 0 → t.core.slotState x.unit = 3) ∧
        OnlyRegs (fun r => r == rg .NET_PORT_STATUS n || r.fam == .SYS_SRC_STATE || r.fam == .SYS_SRC_LOST) s t))

/-! ### Power -/

/-- Power: a domain whose power-good drops is FAILED with its registers at reset and its Shared Store banks zero; a level change takes a request 200
µs old at its boundary, a raise only with its voltage acknowledged for 20 µs; the thermal cap goes down in the hot, up in the cool, and the trip takes
every domain but 0 off; a wake returns the domains and the lowest level and records its cause; a domain request applies to every domain it selects or
to none (R398 to R402, R405 to R408). -/
def Obligations.PowerFollowsItsRequests : Prop :=
  ∀ s : State, s.core.posted = [] →
    let st := rg0 .PWR_STATUS
    let evt := rg0 .PWR_EVT
    let dom (c : Core) (d : Nat) : Nat := c.rdF (rg .PWR_DOM_STATE d) 31 29
    let p := s.core.pwr
    (∀ d, s.core.awake = true → 0 < d → d < 24 → s.core.domPresent d = true → dom s.core d = 0 → Gives (.powerGoodLoss d) s (fun t => dom t.core d = 4 ∧
      t.core.rdB evt 5 = true ∧ (∀ k, k ≠ d → dom t.core k = dom s.core k) ∧
      (∀ r : Reg, r.fam.background = false → regDomain r = d → r.fam ≠ .DMC_CH_STATUS → caveRecord r = false → t.core.rd r = regReset s.core.var r) ∧
      (6 ≤ d → d ≤ 9 → ∀ a, memByte t.core.mem a = if (d - 6) * 0x800000 ≤ a ∧ a < (d - 5) * 0x800000 then 0 else memByte s.core.mem a) ∧
      (d < 2 ∨ 18 < d → ∀ a, memByte t.core.mem a = memByte s.core.mem a))) ∧
    (∀ a, s.core.awake = true → s.core.tkg.inApply = true →
      let b := s.core.psOf s.core.strobeNs / 1000
      (p.asks.filter (fun x => decide (x.1 + 200000 ≤ b))).getLast? = some a → a.2 < 8 → Gives .levelChange s (fun t =>
        (a.2 < s.core.level ∨ (s.core.level < a.2 ∧ a.2 ≤ p.volt ∧ p.voltAt + 20000 ≤ t.core.mono) → t.core.level = a.2 ∧ t.core.rdB evt 0 = true) ∧
        (a.2 = s.core.level ∨ (s.core.level < a.2 ∧ (p.volt < a.2 ∨ t.core.mono < p.voltAt + 20000)) → t.core.level = s.core.level ∧
          Only (fun _ => false) (fun c d => { d with pwr := c.pwr, now := c.now }) s t) ∧
        s.core.psOf (s.core.strobeNs + 2000) ≤ t.core.now)) ∧
    (∀ l, s.core.levelRaises = some l → Gives .regulatorAck s (fun t => t.core.pwr = { p with volt := l, voltAt := s.core.mono } ∧
        Only (fun _ => false) (fun c d => { d with pwr := c.pwr }) s t) ∧
      ∀ a rest, p.asks = a :: rest → Gives .regulatorTimeout s (fun t => t.core.rdB evt 6 = true ∧ t.core.level = s.core.level ∧
        (a.1 + 1000000) * 1000 ≤ t.core.now ∧ Only (fun r => r == evt) (fun c d => { d with now := c.now }) s t)) ∧
    (∀ sensor (t16 : Int), sensor < 8 → p.tripped = false →
      let th := s.core.rd (rg0 .PWR_THERM)
      let cap := s.core.rdF st 6 4
      let hot := ((fld th 15 8 * 16 : Nat) : Int) ≤ t16 ∨ 2 ≤ s.core.worstRefresh
      Gives (.thermalSample sensor t16) s (fun t => p.sampleAt + 100000000 ≤ t.core.now ∧
        t.core.rd (rg0 .PWR_TEMP) = w32 (sensor * 65536 + (t16 % 65536).toNat) ∧
        (((s.core.tripAt * 16 : Nat) : Int) ≤ t16 → t.core.pwr.tripped = true ∧ t.core.rdB st 7 = true ∧ t.core.adm.live = [] ∧
          ∀ d, 0 < d → d < 24 → s.core.domPresent d = true → dom t.core d = 2) ∧
        (t16 < ((s.core.tripAt * 16 : Nat) : Int) → t.core.pwr.tripped = false ∧ t.core.adm = s.core.adm ∧ (∀ d, dom t.core d = dom s.core d) ∧
          (s.core.awake = true → ((fld th 7 0 * 16 : Nat) : Int) ≤ t16 → p.crossed = false → t.core.rdB evt 1 = true) ∧
          (s.core.awake = true → hot → (∀ a, p.capAt = some a → a + 10000000 ≤ t.core.mono) → 0 < cap → t.core.rdF st 6 4 = cap - 1 ∧ t.core.rdB evt 3 = true) ∧
          (∀ a, s.core.awake = true → ¬ hot → t16 < ((fld th 15 8 * 16 : Nat) : Int) - 80 → s.core.worstRefresh ≤ 1 → p.coolAt = some a →
            a + 100000000 ≤ t.core.mono → cap < 7 → t.core.rdF st 6 4 = cap + 1)))) ∧
    (∀ cause w, p.asleep = 1 ∨ p.asleep = 2 → p.tripped = false → (p.wake = some w ∨
        (p.wake = none ∧ cause = 3 ∧ s.core.rdB (rg0 .PWR_WAKE_EN2) 8 = true ∧ s.core.rdN (rg0 .PWR_WAKE_TIMER) ≠ 0 ∧ w = (3, 0)) ∨
        (p.wake = none ∧ cause = 4 ∧ s.core.rdB (rg0 .PWR_WAKE_EN2) 9 = true ∧ w = (4, 0))) → Gives (.wake cause) s (fun t => t.core.awake = true ∧
      t.core.level = 0 ∧ t.core.rdF st 28 24 = w.1 % 32 ∧ t.core.rdF st 23 16 = w.2 % 256 ∧ t.core.boot.warmDue = true ∧
      t.core.now = max s.core.now (p.sleptAt + (if w.1 = 3 then s.core.rdN (rg0 .PWR_WAKE_TIMER) * 1000000000 else 18000000)) +
        (if p.asleep = 2 then 2000000000 else 0) + 370000000 ∧
      (∀ e, e < 4 → (s.core.tch e).watch.isSome = true → t.core.rdB (rg .TCH_STATUS e) 29 = true ∧ (t.core.tch e).watch = none ∧ (t.core.tch e).learn = 4) ∧
      (∀ d, d < 24 → s.core.domPresent d = true → dom s.core d ≠ 4 → dom t.core d = 0) ∧
      OnlyRegs (fun r => r == st || r.fam == .PWR_DOM_STATE || r.fam == .TCH_STATUS) s { t with core := { t.core with
        pwr := p, now := s.core.now, cycAt := s.core.cycAt, tkg := s.core.tkg, boot := s.core.boot, tchs := s.core.tchs } })) ∧
    ((p.asleep = 3 → p.tripped = false → p.wake = none → Gives .pwrOn s (fun t => t.core.pwr = { p with wake := some (5, 0) } ∧
        t.core.now = max (s.core.now + 1000000000) (p.sleptAt + 10020000000) ∧ Only (fun _ => false) (fun c d => { d with pwr := c.pwr, now := c.now }) s t)) ∧
      (p.asleep ≠ 3 → Gives .pwrOn s (fun t => OnlyRegs (fun _ => false) s t))) ∧
    ∀ f, s.core.awake = true → f < 64 →
      let sel := s.core.rd (rg .PWR_DOM_SEL (64 + f))
      let off := s.core.rd (rg .PWR_DOM_OFF (64 + f))
      let ret := s.core.rd (rg .PWR_DOM_RET (64 + f))
      Gives (.domainRequest f) s (fun t =>
        let code := t.core.rdF (rg .PWR_REQ_RESULT (64 + f)) 3 0
        (code ≠ 0 → ∀ d, dom t.core d = dom s.core d) ∧
        (code = 0 → t.core.rdB evt 4 = true ∧ ∀ d, dom t.core d =
          if d < 24 ∧ bit sel d = true ∧ s.core.domPresent d = true ∧ dom s.core d ≠ 4 then (if bit off d then 2 else if bit ret d then 1 else 0) else dom s.core d) ∧
        (s.core.rdB (rg0 .PWR_CFG) 0 = false → code = 6) ∧
        (s.core.rdB (rg0 .PWR_CFG) 0 = true → sel = 0 → s.core.wakePending = none → code = 0))

/-! ### Reset, boot, the journal's spill, debug -/

namespace Sys2Proof.Machine

/-- `t` is the device after a chip reset of `s` that found no valid copy: everything at reset but what domain 0 keeps while its own supply `aon` is up,
what the cave finds again on its members and, with the supplies up, banks 30 and 31, DRAM and the journal (R298, R415, R417, R421). -/
def Recovered (supplies aon : Bool) (s t : State) : Prop :=
  t.core.boot.recovery = true ∧ t.core.boot.released = true ∧ t.core.rdB (rg0 .SYS_BOOT_STATUS) 30 = true ∧ t.core.fuseRb = s.core.fuseRb ∧ t.core.awake = true ∧
  t.core.adm = {} ∧ t.core.seqs = [] ∧ t.core.heads = [] ∧ t.core.slots = [] ∧ t.core.owners = [] ∧ t.core.dmas = [] ∧
  (∀ r : Reg, r.fam.background = false → (if aon then keptInReset r else caveRecord r) = false →
    [Fam.PWR_STATUS, .PWR_PL, .SYS_BOOT_STATUS, .DMC_CH_STATUS, .POT_BASE_LO, .POT_BASE_HI, .WIT_SEG_LO, .WIT_SEG_HI, .JNL_SSEQ, .JNL_BLOCK_LO, .JNL_BLOCK_HI,
      .CAVE_STATUS, .CAVE_WRATE, .CAVE_ERASE_AVG, .CAVE_EVT, .CAVE_REBUILD].contains r.fam = false →
    t.core.rd r = regReset s.core.var r) ∧
  (aon = true → ∀ r : Reg, regDomain r = 0 → [Fam.PWR_STATUS, .PWR_PL, .PWR_DOM_STATE, .PWR_THERM].contains r.fam = false → t.core.rd r = s.core.rd r) ∧
  (∀ a, a < 0x1E00000 ∨ (0x10000000 ≤ a ∧ a < 0x11000000) → memByte t.core.mem a = 0) ∧
  (∀ a, (0x1E00000 ≤ a ∧ a < 0x2000000) ∨ (0x1000000000 ≤ a ∧ a < dramEnd s.core.counts) →
    memByte t.core.mem a = if supplies then memByte s.core.mem a else 0)

end Sys2Proof.Machine

/-- Resets: a chip reset, a supply loss and SYS_BOOT_CTRL.chip leave the device as reset and, without a valid copy, in recovery; in every case the
link is released with the starter running or recovery entered; RECOVER boots the copy in bank 0; CONFIRM and ROLLBACK_COMMIT mark the copy and the
fuses; the warm path ends the wake; a unit reset acts on the unit alone when its answer is 0 (R411 to R419). Debug halts a sequencer where its enables
allow it, reads and writes its registers, samples its PC, lets it go on or run one instruction (R127). -/
def Obligations.ResetsBootOrRecover : Prop :=
  ∀ (s : State) (ag : Agent) (bad : List Nat) (pot : Nat), s.core.posted = [] →
    let b := s.core.boot
    let boots (t : State) : Prop := t.core.boot.released = true ∧ (t.core.boot.recovery = true ∨ t.core.boot.starter = true) ∧ t.core.boot.warmDue = false
    let none_ (x y : List Byte) : Prop := mfValid s.core.fuseRb x = false ∧ mfValid s.core.fuseRb y = false
    (∀ cause flash, cause < 3 →
      let x := match flash with | some f => f | none => (b.copyA, b.copyB)
      Gives (.chipReset cause flash bad pot) s (fun t => boots t ∧ (none_ x.1 x.2 → Recovered (decide (cause ≠ 0)) (decide (cause ≠ 0)) s t))) ∧
    Gives (.supplyLoss bad pot) s (fun t => boots t ∧ (none_ b.copyA b.copyB → Recovered false false s t)) ∧
    (∀ w, s.core.pwr.asleep = 3 → s.core.pwr.wake = some w → Gives (.chipReset 3 none bad pot) s (fun t => boots t ∧ (none_ b.copyA b.copyB →
      Recovered false true s t ∧ t.core.rdF (rg0 .PWR_STATUS) 28 24 = w.1 % 32 ∧ t.core.rdF (rg0 .PWR_STATUS) 23 16 = w.2 % 256))) ∧
    (s.core.awake = true →
      (s.core.isSecure (s.core.tag ag) = true → Gives (.chip ag bad pot) s (fun t => boots t ∧ (none_ b.copyA b.copyB → Recovered true true s t))) ∧
      (s.core.isSecure (s.core.tag ag) = false → Gives (.chip ag bad pot) s (fun t => OnlyRegs (fun _ => false) s t)) ∧
      (s.core.isSecure (s.core.tag ag) = true ∨ (b.recovery = true ∧ ag = .host 0) →
        let bs := s.core.bytes 0 (min (mfLength (s.core.bytes 0 16) + 96) 1048576)
        Gives (.recover ag bad pot) s (fun t => (mfValid s.core.fuseRb bs = false → OnlyRegs (fun _ => false) s t) ∧
          (∀ d, mfValid s.core.fuseRb bs = true → s.core.loadCopy bs = some d → t.core.boot.copy = bs ∧ t.core.boot.source = 2 ∧ boots t ∧
            t.core.rdB (rg0 .SYS_BOOT_STATUS) 30 = true ∧ t.core.boot.copyA = d.boot.copyA ∧ t.core.boot.copyB = d.boot.copyB))) ∧
      (s.core.isSecure (s.core.tag ag) = true → b.source < 2 → b.copy ≠ [] → 8 ≤ (b.flash b.source).length → Gives (.confirm ag) s (fun t =>
        (t.core.boot.flash b.source).getD 7 0 = 0xA5 ∧ (∀ i, i ≠ 7 → (t.core.boot.flash b.source).getD i 0 = (b.flash b.source).getD i 0) ∧
        t.core.rdB (rg0 .SYS_BOOT_STATUS) 28 = true ∧ Only (fun r => r == rg0 .SYS_BOOT_STATUS) (fun c d => { d with boot := c.boot }) s t)) ∧
      (s.core.isSecure (s.core.tag ag) = true → s.core.rdB (rg0 .SYS_BOOT_STATUS) 28 = true → Gives (.rollbackCommit ag) s (fun t =>
        t.core.fuseRb = max s.core.fuseRb (min 128 (mfRollback b.copy)) ∧ OnlyRegs (fun r => r == rg0 .SYS_BOOT_STATUS) s t)) ∧
      (s.core.isSecure (s.core.tag ag) = false ∨ s.core.rdB (rg0 .SYS_BOOT_STATUS) 28 = false → Gives (.rollbackCommit ag) s (fun t => OnlyRegs (fun _ => false) s t)) ∧
      (b.warmDue = true → Gives (.warmPath bad pot) s (fun t => boots t ∧
        (∀ d, let bs := if b.source = 2 then b.copy else b.flash b.source
          Config.sha384 (mfSigned bs) = b.hash → ((s.core.levelAsk).caveStart.witStart).loadCopy bs = some d → t.core.rdB (rg0 .SYS_BOOT_STATUS) 29 = true ∧ t.core.boot.copy = bs))) ∧
      (∀ kind i, kind < 256 → i < 2048 →
        let o := s.core.owner kind i
        let w := s.core.tag ag
        let code := if [1, 2, 3, 4, 5, 9, 10].contains kind = false then 3 else if s.core.kindPresent kind i = false then 2
          else if s.core.isSecure w = true ∨ sameOwner w o = true ∨ (isP0 w = true ∧ o.world = false) then 0 else 1
        let answers (t : State) : Prop := t.core.rd (rg0 .SYS_RST_RESULT) = w32 code ∧ (code ≠ 0 → OnlyRegs (fun r => r == rg0 .SYS_RST_RESULT) s t)
        (kind = 1 → Gives (.headReset ag i) s (fun t => answers t ∧ (code = 0 → t.core.scanning i = false ∧ (t.core.head i).con = none ∧
          t.core.rd (rg .HD_CTRL i) = regReset s.core.var (rg .HD_CTRL i) ∧ t.core.rd (rg .HD_FRAME i) = s.core.rd (rg .HD_FRAME i) ∧
          ∀ r : Reg, composed r.fam = true → r.fam ≠ .HD_COMP_RING → r.fam ≠ .HD_BGCOLOR → t.core.rd r = s.core.rd r))) ∧
        (kind ≠ 1 → Gives (.unitReset ag kind i) s (fun t => answers t ∧ (code = 0 →
          (kind = 3 → (s.core.seq i).live.isSome = true → (t.core.seq i).tw = [] ∧ (t.core.seq i).restart = true ∧ (t.core.st i).excWait = true) ∧
          (kind = 4 → t.core.dmaState i = (if s.core.dmaState i = 1 then 2 else s.core.dmaState i) ∧ t.core.rdF (rg .DMA_CH_STATUS i) 8 4 = 0) ∧
          (kind = 5 → t.core.crc i = {} ∧ ∀ r ∈ crcFams, t.core.rd (rg r i) = regReset s.core.var (rg r i)) ∧
          (kind = 9 → s.core.rdB (rg .TCH_STATUS i) 29 = true → (t.core.tch i).learn = 4 ∧ t.core.rdB (rg .TCH_STATUS i) 29 = true) ∧
          (kind = 10 → (t.core.hpt i).pend = none)))))) ∧
    (∀ n, n < 64 → s.core.awake = true → s.core.dbgMay n = false → (∀ k j v, Gives (.debugHalt ⟨n, [.writeG k j v]⟩) s (OnlyRegs (fun _ => false) s)) ∧
      ∀ k j, Gives (.debugHalt ⟨n, [.readG k j]⟩) s (fun t => t.core.resp.data = 0 ∧ Only (fun _ => false) (fun c d => { d with resp := c.resp }) s t)) ∧
    ∀ n, n < 64 → s.core.awake = true → s.core.dbgMay n = true →
      let q := s.core.seq n
      let sets (k : Nat) : RegSet := kget {} q.sets k
      Gives (.debugHalt ⟨n, []⟩) s (fun t => t.core.seq n = { q with dbg := true } ∧ t.core.st n = s.core.st n ∧ OnlySeq n s t) ∧
      (∀ k j, Gives (.debugHalt ⟨n, [.readG k j]⟩) s (fun t => t.core.resp.data = (if j = 0 then 0 else kget 0 (sets k).g j) ∧
        t.core.seq n = { q with dbg := true } ∧ OnlySeq n s { t with core := { t.core with resp := s.core.resp } })) ∧
      Gives (.debugHalt ⟨n, [.samplePc]⟩) s (fun t => t.core.resp.data = w64 q.pc ∧
        t.core.seq n = { q with dbg := true } ∧ OnlySeq n s { t with core := { t.core with resp := s.core.resp } }) ∧
      (∀ k j v, k < 4 → 0 < j → j < 32 → Gives (.debugHalt ⟨n, [.writeG k j v]⟩) s (fun t =>
        t.core.seq n = { q with dbg := true, sets := kset {} q.sets k { sets k with g := kset 0 (sets k).g j v } } ∧ OnlySeq n s t)) ∧
      (q.dbg = true → Gives (.debugResume ⟨n, true⟩) s (fun t => t.core.seq n = { q with dbg := false, step := true } ∧ t.core.st n = s.core.st n ∧ OnlySeq n s t)) ∧
      (q.dbg = true → Gives (.debugResume ⟨n, false⟩) s (fun t => (t.core.seq n).dbg = false ∧ OnlySeq n s t ∧
        (q.mode = .running → q.level = 0 → (t.core.seq n).mode = .waiting ∧ (t.core.st n).late = true) ∧
        (¬ (q.mode = .running ∧ q.level = 0) → t.core.seq n = { q with dbg := false } ∧ t.core.st n = s.core.st n)))

/-- The journal's spill: up to 128 waiting entries are handed to the cave as a block, or the spill error shows and source 990 rises; a committed
block's entries leave the ring, the next block has the next number and the committed one's hash (R421, R422). -/
def Obligations.JournalSpillsInBlocks : Prop :=
  ∀ s : State, s.core.posted = [] → s.core.awake = true →
    let j := s.core.jnl
    let num := s.core.rdPair (rg0 .JNL_BLOCK_LO) (rg0 .JNL_BLOCK_HI)
    let n := min s.core.jfill 128
    let first := (s.core.rd (rg0 .JNL_SSEQ)).toNat
    (s.core.jfill ≠ 0 → j.inFlight = 0 →
      (s.core.caveTakes = false → Gives .journalSpill s (fun t => t.core.rdB (rg0 .JNL_STATUS) 29 = true ∧ t.core.rdB (rg0 .JNL_EVT) 2 = true ∧
        t.core.jnl.inFlight = 0 ∧ (s.core.jfill < 128 → (j.waitSince + 100000000) * 1000 ≤ t.core.now) ∧
        Only (fun r => r == rg0 .JNL_STATUS) (fun c d => { d with now := c.now }) s t)) ∧
      (∀ d, s.core.caveTakes = true → s.core.storeSeg 64 num (s.core.spillBlock n) [] = some d → Gives .journalSpill s (fun t => t.core.cave = d.cave ∧
        t.core.jnl.inFlight = n ∧ t.core.jnl.inHash = Config.sha256 (s.core.spillBlock n) ∧
        (s.core.jfill < 128 → (j.waitSince + 100000000) * 1000 ≤ t.core.now) ∧
        Only (fun r => r == rg0 .CAVE_ERASE_AVG || r == rg0 .CAVE_EVT) (fun c d => { d with cave := c.cave, now := c.now }) s t))) ∧
    (j.inFlight ≠ 0 → Gives .journalBlockCommit s (fun t => t.core.rd (rg0 .JNL_SSEQ) = w32 (first + j.inFlight) ∧
      t.core.rdPair (rg0 .JNL_BLOCK_LO) (rg0 .JNL_BLOCK_HI) = (num + 1) % 2 ^ 64 ∧ t.core.jnl.prevHash = j.inHash ∧ t.core.jnl.inFlight = 0 ∧
      t.core.rdB (rg0 .JNL_STATUS) 29 = false ∧ (∀ g ∈ t.core.cave.segs, g.ns = 64 → g.number = num → g.done = true) ∧
      (t.core.jfill < 64512 → t.core.jnl.nwBusy = false) ∧
      Only (fun r => r == rg0 .JNL_SSEQ || r == rg0 .JNL_BLOCK_LO || r == rg0 .JNL_BLOCK_HI || r == rg0 .JNL_STATUS) (fun c d => { d with cave := c.cave }) s t))
end

