-- ==== Sys2Proof/Laws/Bits.lean ====
section
/-! SUPPORT. Laws of bit fields: a field set reads back, the others keep their bits. -/

namespace Sys2Proof.Machine

open Sys2Proof

theorem testBit_fld (v : W32) (hi lo j : Nat) :
    (fld v hi lo).testBit j = (decide (j < hi - lo + 1) && v.toNat.testBit (lo + j)) := by
  simp [fld, Nat.testBit_mod_two_pow, Nat.testBit_shiftRight]

theorem bit_eq_testBit (v : W32) (i : Nat) : bit v i = v.toNat.testBit i := by
  simp [bit, Nat.testBit]

theorem split_at (V lo k : Nat) : V = 2 ^ lo * (2 ^ k * (V / 2 ^ lo / 2 ^ k) + V / 2 ^ lo % 2 ^ k) + V % 2 ^ lo := by
  rw [Nat.div_add_mod, Nat.div_add_mod]

theorem setFld_nat (v : W32) (hi lo n : Nat) :
    v.toNat - fld v hi lo * 2 ^ lo + n % 2 ^ (hi - lo + 1) * 2 ^ lo =
      2 ^ lo * (2 ^ (hi - lo + 1) * (v.toNat / 2 ^ lo / 2 ^ (hi - lo + 1)) + n % 2 ^ (hi - lo + 1)) + v.toNat % 2 ^ lo := by
  have h := split_at v.toNat lo (hi - lo + 1)
  have f : fld v hi lo = v.toNat / 2 ^ lo % 2 ^ (hi - lo + 1) := by simp [fld, Nat.shiftRight_eq_div_pow]
  rw [f]
  generalize v.toNat / 2 ^ lo / 2 ^ (hi - lo + 1) = H at *
  generalize v.toNat / 2 ^ lo % 2 ^ (hi - lo + 1) = F at *
  generalize v.toNat % 2 ^ lo = L at *
  generalize 2 ^ (hi - lo + 1) = W at *
  generalize n % W = N at *
  rw [h, Nat.mul_add, Nat.mul_add, Nat.mul_comm (2 ^ lo) F, Nat.mul_comm (2 ^ lo) N]
  omega

/-- The bits of a word after a field is set. -/
theorem testBit_setFld (v : W32) {hi lo : Nat} (n j : Nat) (hh : hi < 32) (hl : lo ≤ hi) :
    (setFld v hi lo n).toNat.testBit j = if lo ≤ j ∧ j ≤ hi then n.testBit (j - lo) else v.toNat.testBit j := by
  have key : ∀ j, (v.toNat - fld v hi lo * 2 ^ lo + n % 2 ^ (hi - lo + 1) * 2 ^ lo).testBit j =
      if lo ≤ j ∧ j ≤ hi then n.testBit (j - lo) else v.toNat.testBit j := by
    intro j
    rw [setFld_nat, Nat.testBit_two_pow_mul_add _ (Nat.mod_lt _ (Nat.two_pow_pos _)),
      Nat.testBit_two_pow_mul_add _ (Nat.mod_lt _ (Nat.two_pow_pos _))]
    by_cases h1 : j < lo
    · simp [h1, Nat.testBit_mod_two_pow] <;> (intro h; omega)
    · by_cases h2 : j - lo < hi - lo + 1
      · have h3 : lo ≤ j ∧ j ≤ hi := by omega
        simp [h1, h2, h3, Nat.testBit_mod_two_pow]
      · have h3 : ¬ (lo ≤ j ∧ j ≤ hi) := by omega
        simp only [h1, h2, h3, if_false]
        rw [Nat.testBit_div_two_pow, Nat.testBit_div_two_pow]
        congr 1; omega
  have small : v.toNat - fld v hi lo * 2 ^ lo + n % 2 ^ (hi - lo + 1) * 2 ^ lo < 2 ^ 32 := by
    apply Nat.lt_pow_two_of_testBit
    intro i hi'
    rw [key]
    have : ¬ (lo ≤ i ∧ i ≤ hi) := by omega
    simp only [this, if_false]
    exact Nat.testBit_lt_two_pow (Nat.lt_of_lt_of_le v.isLt (Nat.pow_le_pow_right (by decide) hi'))
  unfold setFld
  simp only [BitVec.toNat_ofNat, Nat.mod_eq_of_lt small]
  exact key j

/-- A field just set reads the number, cut to its width. -/
theorem fld_setFld_self (v : W32) {hi lo : Nat} (n : Nat) (hh : hi < 32) (hl : lo ≤ hi) :
    fld (setFld v hi lo n) hi lo = n % 2 ^ (hi - lo + 1) := by
  apply Nat.eq_of_testBit_eq
  intro j
  rw [testBit_fld, testBit_setFld v n _ hh hl, Nat.testBit_mod_two_pow]
  by_cases h : j < hi - lo + 1
  · have : lo ≤ lo + j ∧ lo + j ≤ hi := by omega
    simp [h, this]
  · simp [h]

/-- A field beside the one set keeps its value. -/
theorem fld_setFld_ne (v : W32) {hi lo h l : Nat} (n : Nat) (hh : hi < 32) (hl : lo ≤ hi) (hd : h < lo ∨ hi < l) (hle : l ≤ h) :
    fld (setFld v hi lo n) h l = fld v h l := by
  apply Nat.eq_of_testBit_eq
  intro j
  rw [testBit_fld, testBit_fld, testBit_setFld v n _ hh hl]
  by_cases hj : j < h - l + 1
  · have : ¬ (lo ≤ l + j ∧ l + j ≤ hi) := by omega
    simp only [this, if_false]
  · simp [hj]

/-- The bit just set. -/
theorem bit_setBit_self (v : W32) {i : Nat} (b : Bool) (hi : i < 32) : bit (setBit v i b) i = b := by
  rw [bit_eq_testBit, setBit, testBit_setFld v _ _ hi (Nat.le_refl _)]
  cases b <;> simp

/-- Every other bit. -/
theorem bit_setBit_ne (v : W32) {i j : Nat} (b : Bool) (hi : i < 32) (hne : j ≠ i) : bit (setBit v i b) j = bit v j := by
  rw [bit_eq_testBit, bit_eq_testBit, setBit, testBit_setFld v _ _ hi (Nat.le_refl _)]
  have : ¬ (i ≤ j ∧ j ≤ i) := by omega
  simp only [this, if_false]

/-- A field beside a bit that is set. -/
theorem fld_setBit_ne (v : W32) {i h l : Nat} (b : Bool) (hi : i < 32) (hd : h < i ∨ i < l) (hle : l ≤ h) :
    fld (setBit v i b) h l = fld v h l :=
  fld_setFld_ne v _ hi (Nat.le_refl _) hd hle

/-- A bit beside a field that is set. -/
theorem bit_setFld_ne (v : W32) {hi lo j : Nat} (n : Nat) (hh : hi < 32) (hl : lo ≤ hi) (hd : j < lo ∨ hi < j) :
    bit (setFld v hi lo n) j = bit v j := by
  rw [bit_eq_testBit, bit_eq_testBit, testBit_setFld v n _ hh hl]
  have : ¬ (lo ≤ j ∧ j ≤ hi) := by omega
  simp only [this, if_false]

end Sys2Proof.Machine
end

