-- ==== Sys2Proof/Laws/Maps.lean ====
section
/-! SUPPORT. Laws of the sparse maps: what a key reads after another or the same key is set or taken away. -/

namespace Sys2Proof.Machine

open Sys2Proof

variable {κ α : Type} [DecidableEq κ]

@[simp] theorem kget_nil (d : α) (k : κ) : kget d [] k = d := rfl

theorem kget_kdel_self (d : α) (m : List (κ × α)) (k : κ) : kget d (kdel m k) k = d := by
  induction m with
  | nil => rfl
  | cons p m ih =>
    obtain ⟨a, v⟩ := p
    by_cases h : a = k <;> simp [kdel, kget, h, ih]

theorem kget_kdel_ne (d : α) (m : List (κ × α)) {k q : κ} (hne : k ≠ q) : kget d (kdel m q) k = kget d m k := by
  induction m with
  | nil => rfl
  | cons p m ih =>
    obtain ⟨a, v⟩ := p
    by_cases h : a = q
    · subst h; simp [kdel, kget, ih, Ne.symm hne]
    · by_cases h' : a = k
      · subst h'; simp [kdel, kget, h]
      · simp [kdel, kget, h, h', ih]

theorem kget_kins_ne (d : α) (lt : κ → κ → Bool) (m : List (κ × α)) {k q : κ} (w : α) (hne : k ≠ q) :
    kget d (kins lt m q w) k = kget d m k := by
  induction m with
  | nil => simp [kins, kget, Ne.symm hne]
  | cons p m ih =>
    obtain ⟨a, v⟩ := p
    unfold kins
    split
    · simp [kget, Ne.symm hne]
    · by_cases h : a = k <;> simp [kget, h, ih]

theorem kget_kins_kdel (d : α) (lt : κ → κ → Bool) (m : List (κ × α)) (q : κ) (w : α) :
    kget d (kins lt (kdel m q) q w) q = w := by
  induction m with
  | nil => simp [kdel, kins, kget]
  | cons p m ih =>
    obtain ⟨a, v⟩ := p
    by_cases h : a = q
    · simpa [kdel, h] using ih
    · simp only [kdel, h, if_false, kins]
      split
      · simp [kget]
      · simpa [kget, h] using ih

variable [DecidableEq α]

/-- The key just set reads the value. -/
@[simp] theorem kget_ksetBy_self (lt : κ → κ → Bool) (d : α) (m : List (κ × α)) (q : κ) (w : α) :
    kget d (ksetBy lt d m q w) q = w := by
  unfold ksetBy
  split
  · next h => rw [h, kget_kdel_self]
  · exact kget_kins_kdel d lt m q w

/-- Every other key reads as before. -/
theorem kget_ksetBy_ne (lt : κ → κ → Bool) (d e : α) (m : List (κ × α)) {k q : κ} (w : α) (hne : k ≠ q) :
    kget e (ksetBy lt d m q w) k = kget e m k := by
  unfold ksetBy
  split
  · exact kget_kdel_ne e m hne
  · rw [kget_kins_ne e lt _ w hne, kget_kdel_ne e m hne]

@[simp] theorem kget_kset_self (d : α) (m : KMap α) (q : Nat) (w : α) : kget d (kset d m q w) q = w :=
  kget_ksetBy_self _ d m q w

theorem kget_kset_ne (d : α) (m : KMap α) {k q : Nat} (w : α) (hne : k ≠ q) : kget d (kset d m q w) k = kget d m k :=
  kget_ksetBy_ne _ d d m w hne

/-- Both at once. -/
theorem kget_kset (d : α) (m : KMap α) (k q : Nat) (w : α) : kget d (kset d m q w) k = if k = q then w else kget d m k := by
  split
  · next h => rw [h, kget_kset_self]
  · next h => exact kget_kset_ne d m w h

end Sys2Proof.Machine
end

