-- ==== Sys2Proof/Laws/Quiet.lean ====
section
/-! SUPPORT. Registers read after a write, and the operations that change nothing but what the Event Router and the journal record:
one lemma for each says so, and every frame is read off it. -/

namespace Sys2Proof.Machine

open Sys2Proof

/-! ### A register after a write -/

@[simp] theorem rd_wr_self (c : Core) (r : Reg) (v : W32) : (c.wr r v).rd r = v := by
  simp [Core.rd, Core.wr]

theorem rd_wr_ne (c : Core) {r q : Reg} (v : W32) (h : q ≠ r) : (c.wr r v).rd q = c.rd q := by
  simp [Core.rd, Core.wr, kget_ksetBy_ne _ _ _ _ _ h]

/-- A register of another family. -/
theorem rd_wr_fam (c : Core) {r q : Reg} (v : W32) (h : q.fam ≠ r.fam) : (c.wr r v).rd q = c.rd q :=
  rd_wr_ne c v (fun e => h (by rw [e]))

/-- A register reads the same where the variant and the registers are. -/
theorem rd_congr {c d : Core} (hv : d.var = c.var) (hr : d.regs = c.regs) (r : Reg) : d.rd r = c.rd r := by
  simp [Core.rd, hv, hr]

/-! ### Quiet operations -/

theorem Core.Quiet.refl (c : Core) : c.Quiet c := ⟨rfl, fun _ _ => rfl⟩

theorem Core.Quiet.trans {a b c : Core} (h : a.Quiet b) (g : b.Quiet c) : a.Quiet c := by
  obtain ⟨h1, h2⟩ := h
  obtain ⟨g1, g2⟩ := g
  refine ⟨?_, fun r hr => (g2 r hr).trans (h2 r hr)⟩
  rw [g1]
  generalize c.regs = x, c.evr.level = y, c.jnl = z
  rw [h1]

theorem Core.Quiet.rd {c d : Core} (h : c.Quiet d) {r : Reg} (hr : r.fam.background = false) : d.rd r = c.rd r := h.2 r hr

theorem Core.Quiet.ite {c d e : Core} {p : Prop} [Decidable p] (hd : c.Quiet d) (he : c.Quiet e) : c.Quiet (if p then d else e) := by
  split
  · exact hd
  · exact he

theorem Core.Quiet.foldl {α : Type} (f : Core → α → Core) (hf : ∀ (c : Core) (a : α), c.Quiet (f c a)) (l : List α) (c : Core) :
    c.Quiet (l.foldl f c) := by
  induction l generalizing c with
  | nil => exact .refl c
  | cons a l ih => exact (hf c a).trans (ih _)

/-- A background register written. -/
theorem quiet_wr (c : Core) {r : Reg} (v : W32) (h : r.fam.background = true) : c.Quiet (c.wr r v) := by
  refine ⟨rfl, fun q hq => rd_wr_fam c v (fun e => ?_)⟩
  rw [e, h] at hq; exact absurd hq (by decide)

theorem quiet_level (c : Core) (m : KMap Bool) : c.Quiet { c with evr := { c.evr with level := m } } := ⟨rfl, fun _ _ => rfl⟩
theorem quiet_jnl (c : Core) (j : Journal) : c.Quiet { c with jnl := j } := ⟨rfl, fun _ _ => rfl⟩

theorem quiet_setSrcBit (c : Core) {f : Fam} (s : Nat) (b : Bool) (h : f.background = true) : c.Quiet (c.setSrcBit f s b) :=
  quiet_wr c _ h

theorem quiet_setPend (c : Core) (s : Nat) : c.Quiet (c.setPend s) := by
  unfold Core.setPend
  split
  · exact .refl c
  · exact (quiet_setSrcBit c s true rfl).trans (quiet_wr _ _ rfl)

theorem quiet_raise (c : Core) (s : Nat) : c.Quiet (c.raise s) := by
  unfold Core.raise
  split
  · exact quiet_setPend c s
  · exact .refl c

theorem quiet_setSample (c : Core) (s : Nat) (l : Bool) : c.Quiet (c.setSample s l) := quiet_level c _

theorem quiet_relevel (c : Core) (s : Nat) : c.Quiet (c.relevel s) := by
  unfold Core.relevel
  split
  · exact quiet_setSample c s false
  · have h := quiet_setSample c s (levelOf c s)
    dsimp only
    split
    · exact h.trans (quiet_setPend _ s)
    · split
      · exact h.trans (quiet_setSrcBit _ s false rfl)
      · exact h

/-- A register set is the register written, and events. -/
theorem quiet_set (c : Core) (r : Reg) (v : W32) : (c.wr r v).Quiet (c.set r v) :=
  .foldl _ quiet_relevel _ _

/-- A background register set is events alone. -/
theorem quiet_set_bg (c : Core) {r : Reg} (v : W32) (h : r.fam.background = true) : c.Quiet (c.set r v) :=
  (quiet_wr c v h).trans (quiet_set c r v)

theorem quiet_setB_bg (c : Core) {r : Reg} (i : Nat) (b : Bool) (h : r.fam.background = true) : c.Quiet (c.setB r i b) :=
  quiet_set_bg c _ h

theorem quiet_addSat_bg (c : Core) {r : Reg} (hi lo n : Nat) (h : r.fam.background = true) : c.Quiet (c.addSat r hi lo n) :=
  quiet_set_bg c _ h

theorem quiet_jpush (c : Core) (e : JEntry) : c.Quiet (c.jpush e) := by
  unfold Core.jpush
  extract_lets s x e1 j c1 c2
  have h1 : c.Quiet c1 := (quiet_jnl c j).trans (quiet_wr _ _ rfl)
  have h2 : c.Quiet c2 := .ite (h1.trans (quiet_setB_bg _ _ _ rfl)) h1
  exact .ite ((h2.trans (quiet_jnl c2 _)).trans (quiet_setB_bg _ _ _ rfl)) h2

theorem quiet_jput (c : Core) (e : JEntry) : c.Quiet (c.jput e) := by
  unfold Core.jput
  split
  · exact quiet_jpush c e
  · split
    · exact (quiet_jnl c _).trans (quiet_addSat_bg _ _ _ _ rfl)
    · exact .refl c

theorem quiet_log (c : Core) (k st : Nat) (o a v x : W32) : c.Quiet (c.log k st o a v x) := quiet_jput c _
theorem quiet_faultFrom (c : Core) (o a : W32) (x y : Nat) : c.Quiet (c.faultFrom o a x y) := quiet_log c _ _ _ _ _ _
theorem quiet_fault (c : Core) (a x y : Nat) : c.Quiet (c.fault a x y) := quiet_faultFrom c _ _ _ _

theorem quiet_faultOnce (c : Core) (key : Nat) (o a v x : W32) : c.Quiet (c.faultOnce key o a v x) := by
  unfold Core.faultOnce
  dsimp only
  split
  · exact .ite (.refl c) (quiet_jnl c _)
  · split
    · exact quiet_faultFrom c _ _ _ _
    · exact (quiet_faultFrom c o a _ _).trans (quiet_jnl _ _)

theorem quiet_quarantine (c : Core) (s : Nat) : c.Quiet (c.quarantine s) := by
  unfold Core.quarantine
  exact (((quiet_setSrcBit c s true rfl).trans (quiet_addSat_bg _ _ _ _ rfl)).trans (quiet_addSat_bg _ _ _ _ rfl)).trans (quiet_log _ _ _ _ _ _ _)

theorem quiet_settleWord (c : Core) (w : Nat) : c.Quiet (c.settleWord w) := by
  unfold Core.settleWord
  extract_lets p
  split
  · exact .refl c
  · refine .foldl _ (fun d j => ?_) _ _
    split
    · exact quiet_quarantine d _
    · exact .refl d

/-- The quarantines that follow a command are quiet. -/
theorem quiet_settle (c : Core) : c.Quiet c.settle := .foldl _ quiet_settleWord _ _

/-- The journal entry of a control-space write. -/
theorem quiet_logWrite (c : Core) (ag : Agent) (a st : Nat) (v : W32) : c.Quiet (c.logWrite ag a st v) := by
  unfold Core.logWrite
  split
  · exact .refl c
  · exact quiet_log c _ _ _ _ _ _

end Sys2Proof.Machine
end

