-- ==== Sys2Proof/Laws/State.lean ====
section
/-! SUPPORT. For each update of the block's state, the fields it leaves as they are: one lemma for each field, so that no proof
unfolds a record update. -/

namespace Sys2Proof.Machine

open Sys2Proof

/-! ### `wr` -/

@[simp] theorem var_wr (c : Core) (r : Reg) (v : W32) : (c.wr r v).var = c.var := rfl
@[simp] theorem now_wr (c : Core) (r : Reg) (v : W32) : (c.wr r v).now = c.now := rfl
@[simp] theorem ptpOff_wr (c : Core) (r : Reg) (v : W32) : (c.wr r v).ptpOff = c.ptpOff := rfl
@[simp] theorem owners_wr (c : Core) (r : Reg) (v : W32) : (c.wr r v).owners = c.owners := rfl
@[simp] theorem mem_wr (c : Core) (r : Reg) (v : W32) : (c.wr r v).mem = c.mem := rfl
@[simp] theorem posted_wr (c : Core) (r : Reg) (v : W32) : (c.wr r v).posted = c.posted := rfl
@[simp] theorem flips_wr (c : Core) (r : Reg) (v : W32) : (c.wr r v).flips = c.flips := rfl
@[simp] theorem poison_wr (c : Core) (r : Reg) (v : W32) : (c.wr r v).poison = c.poison := rfl
@[simp] theorem resp_wr (c : Core) (r : Reg) (v : W32) : (c.wr r v).resp = c.resp := rfl
@[simp] theorem free_wr (c : Core) (r : Reg) (v : W32) : (c.wr r v).free = c.free := rfl
@[simp] theorem loLatch_wr (c : Core) (r : Reg) (v : W32) : (c.wr r v).loLatch = c.loLatch := rfl
@[simp] theorem evr_wr (c : Core) (r : Reg) (v : W32) : (c.wr r v).evr = c.evr := rfl
@[simp] theorem jnl_wr (c : Core) (r : Reg) (v : W32) : (c.wr r v).jnl = c.jnl := rfl
@[simp] theorem tkg_wr (c : Core) (r : Reg) (v : W32) : (c.wr r v).tkg = c.tkg := rfl
@[simp] theorem adm_wr (c : Core) (r : Reg) (v : W32) : (c.wr r v).adm = c.adm := rfl
@[simp] theorem seqs_wr (c : Core) (r : Reg) (v : W32) : (c.wr r v).seqs = c.seqs := rfl
@[simp] theorem seqTicks_wr (c : Core) (r : Reg) (v : W32) : (c.wr r v).seqTicks = c.seqTicks := rfl
@[simp] theorem parts_wr (c : Core) (r : Reg) (v : W32) : (c.wr r v).parts = c.parts := rfl
@[simp] theorem partRuns_wr (c : Core) (r : Reg) (v : W32) : (c.wr r v).partRuns = c.partRuns := rfl
@[simp] theorem pot_wr (c : Core) (r : Reg) (v : W32) : (c.wr r v).pot = c.pot := rfl
@[simp] theorem cycNum_wr (c : Core) (r : Reg) (v : W32) : (c.wr r v).cycNum = c.cycNum := rfl
@[simp] theorem cycAt_wr (c : Core) (r : Reg) (v : W32) : (c.wr r v).cycAt = c.cycAt := rfl
@[simp] theorem bootKeys_wr (c : Core) (r : Reg) (v : W32) : (c.wr r v).bootKeys = c.bootKeys := rfl
@[simp] theorem dmc_wr (c : Core) (r : Reg) (v : W32) : (c.wr r v).dmc = c.dmc := rfl
@[simp] theorem dmas_wr (c : Core) (r : Reg) (v : W32) : (c.wr r v).dmas = c.dmas := rfl
@[simp] theorem crcs_wr (c : Core) (r : Reg) (v : W32) : (c.wr r v).crcs = c.crcs := rfl
@[simp] theorem slots_wr (c : Core) (r : Reg) (v : W32) : (c.wr r v).slots = c.slots := rfl
@[simp] theorem netCnt_wr (c : Core) (r : Reg) (v : W32) : (c.wr r v).netCnt = c.netCnt := rfl
@[simp] theorem vctxs_wr (c : Core) (r : Reg) (v : W32) : (c.wr r v).vctxs = c.vctxs := rfl
@[simp] theorem heads_wr (c : Core) (r : Reg) (v : W32) : (c.wr r v).heads = c.heads := rfl
@[simp] theorem dpts_wr (c : Core) (r : Reg) (v : W32) : (c.wr r v).dpts = c.dpts := rfl
@[simp] theorem trig_wr (c : Core) (r : Reg) (v : W32) : (c.wr r v).trig = c.trig := rfl
@[simp] theorem pulses_wr (c : Core) (r : Reg) (v : W32) : (c.wr r v).pulses = c.pulses := rfl
@[simp] theorem encs_wr (c : Core) (r : Reg) (v : W32) : (c.wr r v).encs = c.encs := rfl
@[simp] theorem encCaches_wr (c : Core) (r : Reg) (v : W32) : (c.wr r v).encCaches = c.encCaches := rfl
@[simp] theorem wit_wr (c : Core) (r : Reg) (v : W32) : (c.wr r v).wit = c.wit := rfl
@[simp] theorem cave_wr (c : Core) (r : Reg) (v : W32) : (c.wr r v).cave = c.cave := rfl
@[simp] theorem aud_wr (c : Core) (r : Reg) (v : W32) : (c.wr r v).aud = c.aud := rfl
@[simp] theorem tchs_wr (c : Core) (r : Reg) (v : W32) : (c.wr r v).tchs = c.tchs := rfl
@[simp] theorem hpts_wr (c : Core) (r : Reg) (v : W32) : (c.wr r v).hpts = c.hpts := rfl
@[simp] theorem hostIf_wr (c : Core) (r : Reg) (v : W32) : (c.wr r v).hostIf = c.hostIf := rfl
@[simp] theorem rgl_wr (c : Core) (r : Reg) (v : W32) : (c.wr r v).rgl = c.rgl := rfl
@[simp] theorem pwr_wr (c : Core) (r : Reg) (v : W32) : (c.wr r v).pwr = c.pwr := rfl
@[simp] theorem boot_wr (c : Core) (r : Reg) (v : W32) : (c.wr r v).boot = c.boot := rfl
@[simp] theorem leResets_wr (c : Core) (r : Reg) (v : W32) : (c.wr r v).leResets = c.leResets := rfl

/-! ### `setSeq` -/

@[simp] theorem var_setSeq (c : Core) (n : Nat) (q : Seq) : (c.setSeq n q).var = c.var := rfl
@[simp] theorem now_setSeq (c : Core) (n : Nat) (q : Seq) : (c.setSeq n q).now = c.now := rfl
@[simp] theorem ptpOff_setSeq (c : Core) (n : Nat) (q : Seq) : (c.setSeq n q).ptpOff = c.ptpOff := rfl
@[simp] theorem regs_setSeq (c : Core) (n : Nat) (q : Seq) : (c.setSeq n q).regs = c.regs := rfl
@[simp] theorem owners_setSeq (c : Core) (n : Nat) (q : Seq) : (c.setSeq n q).owners = c.owners := rfl
@[simp] theorem mem_setSeq (c : Core) (n : Nat) (q : Seq) : (c.setSeq n q).mem = c.mem := rfl
@[simp] theorem posted_setSeq (c : Core) (n : Nat) (q : Seq) : (c.setSeq n q).posted = c.posted := rfl
@[simp] theorem flips_setSeq (c : Core) (n : Nat) (q : Seq) : (c.setSeq n q).flips = c.flips := rfl
@[simp] theorem poison_setSeq (c : Core) (n : Nat) (q : Seq) : (c.setSeq n q).poison = c.poison := rfl
@[simp] theorem resp_setSeq (c : Core) (n : Nat) (q : Seq) : (c.setSeq n q).resp = c.resp := rfl
@[simp] theorem free_setSeq (c : Core) (n : Nat) (q : Seq) : (c.setSeq n q).free = c.free := rfl
@[simp] theorem loLatch_setSeq (c : Core) (n : Nat) (q : Seq) : (c.setSeq n q).loLatch = c.loLatch := rfl
@[simp] theorem evr_setSeq (c : Core) (n : Nat) (q : Seq) : (c.setSeq n q).evr = c.evr := rfl
@[simp] theorem jnl_setSeq (c : Core) (n : Nat) (q : Seq) : (c.setSeq n q).jnl = c.jnl := rfl
@[simp] theorem tkg_setSeq (c : Core) (n : Nat) (q : Seq) : (c.setSeq n q).tkg = c.tkg := rfl
@[simp] theorem adm_setSeq (c : Core) (n : Nat) (q : Seq) : (c.setSeq n q).adm = c.adm := rfl
@[simp] theorem seqTicks_setSeq (c : Core) (n : Nat) (q : Seq) : (c.setSeq n q).seqTicks = c.seqTicks := rfl
@[simp] theorem parts_setSeq (c : Core) (n : Nat) (q : Seq) : (c.setSeq n q).parts = c.parts := rfl
@[simp] theorem partRuns_setSeq (c : Core) (n : Nat) (q : Seq) : (c.setSeq n q).partRuns = c.partRuns := rfl
@[simp] theorem pot_setSeq (c : Core) (n : Nat) (q : Seq) : (c.setSeq n q).pot = c.pot := rfl
@[simp] theorem cycNum_setSeq (c : Core) (n : Nat) (q : Seq) : (c.setSeq n q).cycNum = c.cycNum := rfl
@[simp] theorem cycAt_setSeq (c : Core) (n : Nat) (q : Seq) : (c.setSeq n q).cycAt = c.cycAt := rfl
@[simp] theorem bootKeys_setSeq (c : Core) (n : Nat) (q : Seq) : (c.setSeq n q).bootKeys = c.bootKeys := rfl
@[simp] theorem dmc_setSeq (c : Core) (n : Nat) (q : Seq) : (c.setSeq n q).dmc = c.dmc := rfl
@[simp] theorem dmas_setSeq (c : Core) (n : Nat) (q : Seq) : (c.setSeq n q).dmas = c.dmas := rfl
@[simp] theorem crcs_setSeq (c : Core) (n : Nat) (q : Seq) : (c.setSeq n q).crcs = c.crcs := rfl
@[simp] theorem slots_setSeq (c : Core) (n : Nat) (q : Seq) : (c.setSeq n q).slots = c.slots := rfl
@[simp] theorem netCnt_setSeq (c : Core) (n : Nat) (q : Seq) : (c.setSeq n q).netCnt = c.netCnt := rfl
@[simp] theorem vctxs_setSeq (c : Core) (n : Nat) (q : Seq) : (c.setSeq n q).vctxs = c.vctxs := rfl
@[simp] theorem heads_setSeq (c : Core) (n : Nat) (q : Seq) : (c.setSeq n q).heads = c.heads := rfl
@[simp] theorem dpts_setSeq (c : Core) (n : Nat) (q : Seq) : (c.setSeq n q).dpts = c.dpts := rfl
@[simp] theorem trig_setSeq (c : Core) (n : Nat) (q : Seq) : (c.setSeq n q).trig = c.trig := rfl
@[simp] theorem pulses_setSeq (c : Core) (n : Nat) (q : Seq) : (c.setSeq n q).pulses = c.pulses := rfl
@[simp] theorem encs_setSeq (c : Core) (n : Nat) (q : Seq) : (c.setSeq n q).encs = c.encs := rfl
@[simp] theorem encCaches_setSeq (c : Core) (n : Nat) (q : Seq) : (c.setSeq n q).encCaches = c.encCaches := rfl
@[simp] theorem wit_setSeq (c : Core) (n : Nat) (q : Seq) : (c.setSeq n q).wit = c.wit := rfl
@[simp] theorem cave_setSeq (c : Core) (n : Nat) (q : Seq) : (c.setSeq n q).cave = c.cave := rfl
@[simp] theorem aud_setSeq (c : Core) (n : Nat) (q : Seq) : (c.setSeq n q).aud = c.aud := rfl
@[simp] theorem tchs_setSeq (c : Core) (n : Nat) (q : Seq) : (c.setSeq n q).tchs = c.tchs := rfl
@[simp] theorem hpts_setSeq (c : Core) (n : Nat) (q : Seq) : (c.setSeq n q).hpts = c.hpts := rfl
@[simp] theorem hostIf_setSeq (c : Core) (n : Nat) (q : Seq) : (c.setSeq n q).hostIf = c.hostIf := rfl
@[simp] theorem rgl_setSeq (c : Core) (n : Nat) (q : Seq) : (c.setSeq n q).rgl = c.rgl := rfl
@[simp] theorem pwr_setSeq (c : Core) (n : Nat) (q : Seq) : (c.setSeq n q).pwr = c.pwr := rfl
@[simp] theorem boot_setSeq (c : Core) (n : Nat) (q : Seq) : (c.setSeq n q).boot = c.boot := rfl
@[simp] theorem leResets_setSeq (c : Core) (n : Nat) (q : Seq) : (c.setSeq n q).leResets = c.leResets := rfl

/-! ### `setSt` -/

@[simp] theorem var_setSt (c : Core) (n : Nat) (q : SeqTick) : (c.setSt n q).var = c.var := rfl
@[simp] theorem now_setSt (c : Core) (n : Nat) (q : SeqTick) : (c.setSt n q).now = c.now := rfl
@[simp] theorem ptpOff_setSt (c : Core) (n : Nat) (q : SeqTick) : (c.setSt n q).ptpOff = c.ptpOff := rfl
@[simp] theorem regs_setSt (c : Core) (n : Nat) (q : SeqTick) : (c.setSt n q).regs = c.regs := rfl
@[simp] theorem owners_setSt (c : Core) (n : Nat) (q : SeqTick) : (c.setSt n q).owners = c.owners := rfl
@[simp] theorem mem_setSt (c : Core) (n : Nat) (q : SeqTick) : (c.setSt n q).mem = c.mem := rfl
@[simp] theorem posted_setSt (c : Core) (n : Nat) (q : SeqTick) : (c.setSt n q).posted = c.posted := rfl
@[simp] theorem flips_setSt (c : Core) (n : Nat) (q : SeqTick) : (c.setSt n q).flips = c.flips := rfl
@[simp] theorem poison_setSt (c : Core) (n : Nat) (q : SeqTick) : (c.setSt n q).poison = c.poison := rfl
@[simp] theorem resp_setSt (c : Core) (n : Nat) (q : SeqTick) : (c.setSt n q).resp = c.resp := rfl
@[simp] theorem free_setSt (c : Core) (n : Nat) (q : SeqTick) : (c.setSt n q).free = c.free := rfl
@[simp] theorem loLatch_setSt (c : Core) (n : Nat) (q : SeqTick) : (c.setSt n q).loLatch = c.loLatch := rfl
@[simp] theorem evr_setSt (c : Core) (n : Nat) (q : SeqTick) : (c.setSt n q).evr = c.evr := rfl
@[simp] theorem jnl_setSt (c : Core) (n : Nat) (q : SeqTick) : (c.setSt n q).jnl = c.jnl := rfl
@[simp] theorem tkg_setSt (c : Core) (n : Nat) (q : SeqTick) : (c.setSt n q).tkg = c.tkg := rfl
@[simp] theorem adm_setSt (c : Core) (n : Nat) (q : SeqTick) : (c.setSt n q).adm = c.adm := rfl
@[simp] theorem seqs_setSt (c : Core) (n : Nat) (q : SeqTick) : (c.setSt n q).seqs = c.seqs := rfl
@[simp] theorem parts_setSt (c : Core) (n : Nat) (q : SeqTick) : (c.setSt n q).parts = c.parts := rfl
@[simp] theorem partRuns_setSt (c : Core) (n : Nat) (q : SeqTick) : (c.setSt n q).partRuns = c.partRuns := rfl
@[simp] theorem pot_setSt (c : Core) (n : Nat) (q : SeqTick) : (c.setSt n q).pot = c.pot := rfl
@[simp] theorem cycNum_setSt (c : Core) (n : Nat) (q : SeqTick) : (c.setSt n q).cycNum = c.cycNum := rfl
@[simp] theorem cycAt_setSt (c : Core) (n : Nat) (q : SeqTick) : (c.setSt n q).cycAt = c.cycAt := rfl
@[simp] theorem bootKeys_setSt (c : Core) (n : Nat) (q : SeqTick) : (c.setSt n q).bootKeys = c.bootKeys := rfl
@[simp] theorem dmc_setSt (c : Core) (n : Nat) (q : SeqTick) : (c.setSt n q).dmc = c.dmc := rfl
@[simp] theorem dmas_setSt (c : Core) (n : Nat) (q : SeqTick) : (c.setSt n q).dmas = c.dmas := rfl
@[simp] theorem crcs_setSt (c : Core) (n : Nat) (q : SeqTick) : (c.setSt n q).crcs = c.crcs := rfl
@[simp] theorem slots_setSt (c : Core) (n : Nat) (q : SeqTick) : (c.setSt n q).slots = c.slots := rfl
@[simp] theorem netCnt_setSt (c : Core) (n : Nat) (q : SeqTick) : (c.setSt n q).netCnt = c.netCnt := rfl
@[simp] theorem vctxs_setSt (c : Core) (n : Nat) (q : SeqTick) : (c.setSt n q).vctxs = c.vctxs := rfl
@[simp] theorem heads_setSt (c : Core) (n : Nat) (q : SeqTick) : (c.setSt n q).heads = c.heads := rfl
@[simp] theorem dpts_setSt (c : Core) (n : Nat) (q : SeqTick) : (c.setSt n q).dpts = c.dpts := rfl
@[simp] theorem trig_setSt (c : Core) (n : Nat) (q : SeqTick) : (c.setSt n q).trig = c.trig := rfl
@[simp] theorem pulses_setSt (c : Core) (n : Nat) (q : SeqTick) : (c.setSt n q).pulses = c.pulses := rfl
@[simp] theorem encs_setSt (c : Core) (n : Nat) (q : SeqTick) : (c.setSt n q).encs = c.encs := rfl
@[simp] theorem encCaches_setSt (c : Core) (n : Nat) (q : SeqTick) : (c.setSt n q).encCaches = c.encCaches := rfl
@[simp] theorem wit_setSt (c : Core) (n : Nat) (q : SeqTick) : (c.setSt n q).wit = c.wit := rfl
@[simp] theorem cave_setSt (c : Core) (n : Nat) (q : SeqTick) : (c.setSt n q).cave = c.cave := rfl
@[simp] theorem aud_setSt (c : Core) (n : Nat) (q : SeqTick) : (c.setSt n q).aud = c.aud := rfl
@[simp] theorem tchs_setSt (c : Core) (n : Nat) (q : SeqTick) : (c.setSt n q).tchs = c.tchs := rfl
@[simp] theorem hpts_setSt (c : Core) (n : Nat) (q : SeqTick) : (c.setSt n q).hpts = c.hpts := rfl
@[simp] theorem hostIf_setSt (c : Core) (n : Nat) (q : SeqTick) : (c.setSt n q).hostIf = c.hostIf := rfl
@[simp] theorem rgl_setSt (c : Core) (n : Nat) (q : SeqTick) : (c.setSt n q).rgl = c.rgl := rfl
@[simp] theorem pwr_setSt (c : Core) (n : Nat) (q : SeqTick) : (c.setSt n q).pwr = c.pwr := rfl
@[simp] theorem boot_setSt (c : Core) (n : Nat) (q : SeqTick) : (c.setSt n q).boot = c.boot := rfl
@[simp] theorem leResets_setSt (c : Core) (n : Nat) (q : SeqTick) : (c.setSt n q).leResets = c.leResets := rfl

/-! ### `setOwner` -/

@[simp] theorem var_setOwner (c : Core) (k i : Nat) (o : Owner) : (c.setOwner k i o).var = c.var := rfl
@[simp] theorem now_setOwner (c : Core) (k i : Nat) (o : Owner) : (c.setOwner k i o).now = c.now := rfl
@[simp] theorem ptpOff_setOwner (c : Core) (k i : Nat) (o : Owner) : (c.setOwner k i o).ptpOff = c.ptpOff := rfl
@[simp] theorem regs_setOwner (c : Core) (k i : Nat) (o : Owner) : (c.setOwner k i o).regs = c.regs := rfl
@[simp] theorem mem_setOwner (c : Core) (k i : Nat) (o : Owner) : (c.setOwner k i o).mem = c.mem := rfl
@[simp] theorem posted_setOwner (c : Core) (k i : Nat) (o : Owner) : (c.setOwner k i o).posted = c.posted := rfl
@[simp] theorem flips_setOwner (c : Core) (k i : Nat) (o : Owner) : (c.setOwner k i o).flips = c.flips := rfl
@[simp] theorem poison_setOwner (c : Core) (k i : Nat) (o : Owner) : (c.setOwner k i o).poison = c.poison := rfl
@[simp] theorem resp_setOwner (c : Core) (k i : Nat) (o : Owner) : (c.setOwner k i o).resp = c.resp := rfl
@[simp] theorem free_setOwner (c : Core) (k i : Nat) (o : Owner) : (c.setOwner k i o).free = c.free := rfl
@[simp] theorem loLatch_setOwner (c : Core) (k i : Nat) (o : Owner) : (c.setOwner k i o).loLatch = c.loLatch := rfl
@[simp] theorem evr_setOwner (c : Core) (k i : Nat) (o : Owner) : (c.setOwner k i o).evr = c.evr := rfl
@[simp] theorem jnl_setOwner (c : Core) (k i : Nat) (o : Owner) : (c.setOwner k i o).jnl = c.jnl := rfl
@[simp] theorem tkg_setOwner (c : Core) (k i : Nat) (o : Owner) : (c.setOwner k i o).tkg = c.tkg := rfl
@[simp] theorem adm_setOwner (c : Core) (k i : Nat) (o : Owner) : (c.setOwner k i o).adm = c.adm := rfl
@[simp] theorem seqs_setOwner (c : Core) (k i : Nat) (o : Owner) : (c.setOwner k i o).seqs = c.seqs := rfl
@[simp] theorem seqTicks_setOwner (c : Core) (k i : Nat) (o : Owner) : (c.setOwner k i o).seqTicks = c.seqTicks := rfl
@[simp] theorem parts_setOwner (c : Core) (k i : Nat) (o : Owner) : (c.setOwner k i o).parts = c.parts := rfl
@[simp] theorem partRuns_setOwner (c : Core) (k i : Nat) (o : Owner) : (c.setOwner k i o).partRuns = c.partRuns := rfl
@[simp] theorem pot_setOwner (c : Core) (k i : Nat) (o : Owner) : (c.setOwner k i o).pot = (c.repair (pairOwner k i)).pot := rfl
@[simp] theorem cycNum_setOwner (c : Core) (k i : Nat) (o : Owner) : (c.setOwner k i o).cycNum = c.cycNum := rfl
@[simp] theorem cycAt_setOwner (c : Core) (k i : Nat) (o : Owner) : (c.setOwner k i o).cycAt = c.cycAt := rfl
@[simp] theorem bootKeys_setOwner (c : Core) (k i : Nat) (o : Owner) : (c.setOwner k i o).bootKeys = c.bootKeys := rfl
@[simp] theorem dmc_setOwner (c : Core) (k i : Nat) (o : Owner) : (c.setOwner k i o).dmc = c.dmc := rfl
@[simp] theorem dmas_setOwner (c : Core) (k i : Nat) (o : Owner) : (c.setOwner k i o).dmas = c.dmas := rfl
@[simp] theorem crcs_setOwner (c : Core) (k i : Nat) (o : Owner) : (c.setOwner k i o).crcs = c.crcs := rfl
@[simp] theorem slots_setOwner (c : Core) (k i : Nat) (o : Owner) : (c.setOwner k i o).slots = c.slots := rfl
@[simp] theorem netCnt_setOwner (c : Core) (k i : Nat) (o : Owner) : (c.setOwner k i o).netCnt = c.netCnt := rfl
@[simp] theorem vctxs_setOwner (c : Core) (k i : Nat) (o : Owner) : (c.setOwner k i o).vctxs = c.vctxs := rfl
@[simp] theorem heads_setOwner (c : Core) (k i : Nat) (o : Owner) : (c.setOwner k i o).heads = c.heads := rfl
@[simp] theorem dpts_setOwner (c : Core) (k i : Nat) (o : Owner) : (c.setOwner k i o).dpts = c.dpts := rfl
@[simp] theorem trig_setOwner (c : Core) (k i : Nat) (o : Owner) : (c.setOwner k i o).trig = c.trig := rfl
@[simp] theorem pulses_setOwner (c : Core) (k i : Nat) (o : Owner) : (c.setOwner k i o).pulses = c.pulses := rfl
@[simp] theorem encs_setOwner (c : Core) (k i : Nat) (o : Owner) : (c.setOwner k i o).encs = c.encs := rfl
@[simp] theorem encCaches_setOwner (c : Core) (k i : Nat) (o : Owner) : (c.setOwner k i o).encCaches = c.encCaches := rfl
@[simp] theorem wit_setOwner (c : Core) (k i : Nat) (o : Owner) : (c.setOwner k i o).wit = c.wit := rfl
@[simp] theorem cave_setOwner (c : Core) (k i : Nat) (o : Owner) : (c.setOwner k i o).cave = c.cave := rfl
@[simp] theorem aud_setOwner (c : Core) (k i : Nat) (o : Owner) : (c.setOwner k i o).aud = c.aud := rfl
@[simp] theorem tchs_setOwner (c : Core) (k i : Nat) (o : Owner) : (c.setOwner k i o).tchs = c.tchs := rfl
@[simp] theorem hpts_setOwner (c : Core) (k i : Nat) (o : Owner) : (c.setOwner k i o).hpts = c.hpts := rfl
@[simp] theorem hostIf_setOwner (c : Core) (k i : Nat) (o : Owner) : (c.setOwner k i o).hostIf = c.hostIf := rfl
@[simp] theorem rgl_setOwner (c : Core) (k i : Nat) (o : Owner) : (c.setOwner k i o).rgl = c.rgl := rfl
@[simp] theorem pwr_setOwner (c : Core) (k i : Nat) (o : Owner) : (c.setOwner k i o).pwr = c.pwr := rfl
@[simp] theorem boot_setOwner (c : Core) (k i : Nat) (o : Owner) : (c.setOwner k i o).boot = c.boot := rfl
@[simp] theorem leResets_setOwner (c : Core) (k i : Nat) (o : Owner) : (c.setOwner k i o).leResets = c.leResets := rfl

/-! ### `tick` -/

@[simp] theorem var_tick (c : Core) : (c.tick).var = c.var := rfl
@[simp] theorem now_tick (c : Core) : (c.tick).now = c.now := rfl
@[simp] theorem ptpOff_tick (c : Core) : (c.tick).ptpOff = c.ptpOff := rfl
@[simp] theorem regs_tick (c : Core) : (c.tick).regs = c.regs := rfl
@[simp] theorem owners_tick (c : Core) : (c.tick).owners = c.owners := rfl
@[simp] theorem mem_tick (c : Core) : (c.tick).mem = c.mem := rfl
@[simp] theorem posted_tick (c : Core) : (c.tick).posted = c.posted := rfl
@[simp] theorem flips_tick (c : Core) : (c.tick).flips = c.flips := rfl
@[simp] theorem poison_tick (c : Core) : (c.tick).poison = c.poison := rfl
@[simp] theorem resp_tick (c : Core) : (c.tick).resp = c.resp := rfl
@[simp] theorem loLatch_tick (c : Core) : (c.tick).loLatch = c.loLatch := rfl
@[simp] theorem evr_tick (c : Core) : (c.tick).evr = c.evr := rfl
@[simp] theorem jnl_tick (c : Core) : (c.tick).jnl = c.jnl := rfl
@[simp] theorem tkg_tick (c : Core) : (c.tick).tkg = c.tkg := rfl
@[simp] theorem adm_tick (c : Core) : (c.tick).adm = c.adm := rfl
@[simp] theorem seqs_tick (c : Core) : (c.tick).seqs = c.seqs := rfl
@[simp] theorem seqTicks_tick (c : Core) : (c.tick).seqTicks = c.seqTicks := rfl
@[simp] theorem parts_tick (c : Core) : (c.tick).parts = c.parts := rfl
@[simp] theorem partRuns_tick (c : Core) : (c.tick).partRuns = c.partRuns := rfl
@[simp] theorem pot_tick (c : Core) : (c.tick).pot = c.pot := rfl
@[simp] theorem cycNum_tick (c : Core) : (c.tick).cycNum = c.cycNum := rfl
@[simp] theorem cycAt_tick (c : Core) : (c.tick).cycAt = c.cycAt := rfl
@[simp] theorem bootKeys_tick (c : Core) : (c.tick).bootKeys = c.bootKeys := rfl
@[simp] theorem dmc_tick (c : Core) : (c.tick).dmc = c.dmc := rfl
@[simp] theorem dmas_tick (c : Core) : (c.tick).dmas = c.dmas := rfl
@[simp] theorem crcs_tick (c : Core) : (c.tick).crcs = c.crcs := rfl
@[simp] theorem slots_tick (c : Core) : (c.tick).slots = c.slots := rfl
@[simp] theorem netCnt_tick (c : Core) : (c.tick).netCnt = c.netCnt := rfl
@[simp] theorem vctxs_tick (c : Core) : (c.tick).vctxs = c.vctxs := rfl
@[simp] theorem heads_tick (c : Core) : (c.tick).heads = c.heads := rfl
@[simp] theorem dpts_tick (c : Core) : (c.tick).dpts = c.dpts := rfl
@[simp] theorem trig_tick (c : Core) : (c.tick).trig = c.trig := rfl
@[simp] theorem pulses_tick (c : Core) : (c.tick).pulses = c.pulses := rfl
@[simp] theorem encs_tick (c : Core) : (c.tick).encs = c.encs := rfl
@[simp] theorem encCaches_tick (c : Core) : (c.tick).encCaches = c.encCaches := rfl
@[simp] theorem wit_tick (c : Core) : (c.tick).wit = c.wit := rfl
@[simp] theorem cave_tick (c : Core) : (c.tick).cave = c.cave := rfl
@[simp] theorem aud_tick (c : Core) : (c.tick).aud = c.aud := rfl
@[simp] theorem tchs_tick (c : Core) : (c.tick).tchs = c.tchs := rfl
@[simp] theorem hpts_tick (c : Core) : (c.tick).hpts = c.hpts := rfl
@[simp] theorem hostIf_tick (c : Core) : (c.tick).hostIf = c.hostIf := rfl
@[simp] theorem rgl_tick (c : Core) : (c.tick).rgl = c.rgl := rfl
@[simp] theorem pwr_tick (c : Core) : (c.tick).pwr = c.pwr := rfl
@[simp] theorem boot_tick (c : Core) : (c.tick).boot = c.boot := rfl
@[simp] theorem leResets_tick (c : Core) : (c.tick).leResets = c.leResets := rfl

/-! ### `setTkg` -/

@[simp] theorem var_setTkg (c : Core) (x : Tkg) : (c.setTkg x).var = c.var := rfl
@[simp] theorem now_setTkg (c : Core) (x : Tkg) : (c.setTkg x).now = c.now := rfl
@[simp] theorem ptpOff_setTkg (c : Core) (x : Tkg) : (c.setTkg x).ptpOff = c.ptpOff := rfl
@[simp] theorem regs_setTkg (c : Core) (x : Tkg) : (c.setTkg x).regs = c.regs := rfl
@[simp] theorem owners_setTkg (c : Core) (x : Tkg) : (c.setTkg x).owners = c.owners := rfl
@[simp] theorem mem_setTkg (c : Core) (x : Tkg) : (c.setTkg x).mem = c.mem := rfl
@[simp] theorem posted_setTkg (c : Core) (x : Tkg) : (c.setTkg x).posted = c.posted := rfl
@[simp] theorem flips_setTkg (c : Core) (x : Tkg) : (c.setTkg x).flips = c.flips := rfl
@[simp] theorem poison_setTkg (c : Core) (x : Tkg) : (c.setTkg x).poison = c.poison := rfl
@[simp] theorem resp_setTkg (c : Core) (x : Tkg) : (c.setTkg x).resp = c.resp := rfl
@[simp] theorem free_setTkg (c : Core) (x : Tkg) : (c.setTkg x).free = c.free := rfl
@[simp] theorem loLatch_setTkg (c : Core) (x : Tkg) : (c.setTkg x).loLatch = c.loLatch := rfl
@[simp] theorem evr_setTkg (c : Core) (x : Tkg) : (c.setTkg x).evr = c.evr := rfl
@[simp] theorem jnl_setTkg (c : Core) (x : Tkg) : (c.setTkg x).jnl = c.jnl := rfl
@[simp] theorem adm_setTkg (c : Core) (x : Tkg) : (c.setTkg x).adm = c.adm := rfl
@[simp] theorem seqs_setTkg (c : Core) (x : Tkg) : (c.setTkg x).seqs = c.seqs := rfl
@[simp] theorem seqTicks_setTkg (c : Core) (x : Tkg) : (c.setTkg x).seqTicks = c.seqTicks := rfl
@[simp] theorem parts_setTkg (c : Core) (x : Tkg) : (c.setTkg x).parts = c.parts := rfl
@[simp] theorem partRuns_setTkg (c : Core) (x : Tkg) : (c.setTkg x).partRuns = c.partRuns := rfl
@[simp] theorem pot_setTkg (c : Core) (x : Tkg) : (c.setTkg x).pot = c.pot := rfl
@[simp] theorem cycNum_setTkg (c : Core) (x : Tkg) : (c.setTkg x).cycNum = c.cycNum := rfl
@[simp] theorem cycAt_setTkg (c : Core) (x : Tkg) : (c.setTkg x).cycAt = c.cycAt := rfl
@[simp] theorem bootKeys_setTkg (c : Core) (x : Tkg) : (c.setTkg x).bootKeys = c.bootKeys := rfl
@[simp] theorem dmc_setTkg (c : Core) (x : Tkg) : (c.setTkg x).dmc = c.dmc := rfl
@[simp] theorem dmas_setTkg (c : Core) (x : Tkg) : (c.setTkg x).dmas = c.dmas := rfl
@[simp] theorem crcs_setTkg (c : Core) (x : Tkg) : (c.setTkg x).crcs = c.crcs := rfl
@[simp] theorem slots_setTkg (c : Core) (x : Tkg) : (c.setTkg x).slots = c.slots := rfl
@[simp] theorem netCnt_setTkg (c : Core) (x : Tkg) : (c.setTkg x).netCnt = c.netCnt := rfl
@[simp] theorem vctxs_setTkg (c : Core) (x : Tkg) : (c.setTkg x).vctxs = c.vctxs := rfl
@[simp] theorem heads_setTkg (c : Core) (x : Tkg) : (c.setTkg x).heads = c.heads := rfl
@[simp] theorem dpts_setTkg (c : Core) (x : Tkg) : (c.setTkg x).dpts = c.dpts := rfl
@[simp] theorem trig_setTkg (c : Core) (x : Tkg) : (c.setTkg x).trig = c.trig := rfl
@[simp] theorem pulses_setTkg (c : Core) (x : Tkg) : (c.setTkg x).pulses = c.pulses := rfl
@[simp] theorem encs_setTkg (c : Core) (x : Tkg) : (c.setTkg x).encs = c.encs := rfl
@[simp] theorem encCaches_setTkg (c : Core) (x : Tkg) : (c.setTkg x).encCaches = c.encCaches := rfl
@[simp] theorem wit_setTkg (c : Core) (x : Tkg) : (c.setTkg x).wit = c.wit := rfl
@[simp] theorem cave_setTkg (c : Core) (x : Tkg) : (c.setTkg x).cave = c.cave := rfl
@[simp] theorem aud_setTkg (c : Core) (x : Tkg) : (c.setTkg x).aud = c.aud := rfl
@[simp] theorem tchs_setTkg (c : Core) (x : Tkg) : (c.setTkg x).tchs = c.tchs := rfl
@[simp] theorem hpts_setTkg (c : Core) (x : Tkg) : (c.setTkg x).hpts = c.hpts := rfl
@[simp] theorem hostIf_setTkg (c : Core) (x : Tkg) : (c.setTkg x).hostIf = c.hostIf := rfl
@[simp] theorem rgl_setTkg (c : Core) (x : Tkg) : (c.setTkg x).rgl = c.rgl := rfl
@[simp] theorem pwr_setTkg (c : Core) (x : Tkg) : (c.setTkg x).pwr = c.pwr := rfl
@[simp] theorem boot_setTkg (c : Core) (x : Tkg) : (c.setTkg x).boot = c.boot := rfl
@[simp] theorem leResets_setTkg (c : Core) (x : Tkg) : (c.setTkg x).leResets = c.leResets := rfl

/-! ### `setJnl` -/

@[simp] theorem var_setJnl (c : Core) (x : Journal) : (c.setJnl x).var = c.var := rfl
@[simp] theorem now_setJnl (c : Core) (x : Journal) : (c.setJnl x).now = c.now := rfl
@[simp] theorem ptpOff_setJnl (c : Core) (x : Journal) : (c.setJnl x).ptpOff = c.ptpOff := rfl
@[simp] theorem regs_setJnl (c : Core) (x : Journal) : (c.setJnl x).regs = c.regs := rfl
@[simp] theorem owners_setJnl (c : Core) (x : Journal) : (c.setJnl x).owners = c.owners := rfl
@[simp] theorem mem_setJnl (c : Core) (x : Journal) : (c.setJnl x).mem = c.mem := rfl
@[simp] theorem posted_setJnl (c : Core) (x : Journal) : (c.setJnl x).posted = c.posted := rfl
@[simp] theorem flips_setJnl (c : Core) (x : Journal) : (c.setJnl x).flips = c.flips := rfl
@[simp] theorem poison_setJnl (c : Core) (x : Journal) : (c.setJnl x).poison = c.poison := rfl
@[simp] theorem resp_setJnl (c : Core) (x : Journal) : (c.setJnl x).resp = c.resp := rfl
@[simp] theorem free_setJnl (c : Core) (x : Journal) : (c.setJnl x).free = c.free := rfl
@[simp] theorem loLatch_setJnl (c : Core) (x : Journal) : (c.setJnl x).loLatch = c.loLatch := rfl
@[simp] theorem evr_setJnl (c : Core) (x : Journal) : (c.setJnl x).evr = c.evr := rfl
@[simp] theorem tkg_setJnl (c : Core) (x : Journal) : (c.setJnl x).tkg = c.tkg := rfl
@[simp] theorem adm_setJnl (c : Core) (x : Journal) : (c.setJnl x).adm = c.adm := rfl
@[simp] theorem seqs_setJnl (c : Core) (x : Journal) : (c.setJnl x).seqs = c.seqs := rfl
@[simp] theorem seqTicks_setJnl (c : Core) (x : Journal) : (c.setJnl x).seqTicks = c.seqTicks := rfl
@[simp] theorem parts_setJnl (c : Core) (x : Journal) : (c.setJnl x).parts = c.parts := rfl
@[simp] theorem partRuns_setJnl (c : Core) (x : Journal) : (c.setJnl x).partRuns = c.partRuns := rfl
@[simp] theorem pot_setJnl (c : Core) (x : Journal) : (c.setJnl x).pot = c.pot := rfl
@[simp] theorem cycNum_setJnl (c : Core) (x : Journal) : (c.setJnl x).cycNum = c.cycNum := rfl
@[simp] theorem cycAt_setJnl (c : Core) (x : Journal) : (c.setJnl x).cycAt = c.cycAt := rfl
@[simp] theorem bootKeys_setJnl (c : Core) (x : Journal) : (c.setJnl x).bootKeys = c.bootKeys := rfl
@[simp] theorem dmc_setJnl (c : Core) (x : Journal) : (c.setJnl x).dmc = c.dmc := rfl
@[simp] theorem dmas_setJnl (c : Core) (x : Journal) : (c.setJnl x).dmas = c.dmas := rfl
@[simp] theorem crcs_setJnl (c : Core) (x : Journal) : (c.setJnl x).crcs = c.crcs := rfl
@[simp] theorem slots_setJnl (c : Core) (x : Journal) : (c.setJnl x).slots = c.slots := rfl
@[simp] theorem netCnt_setJnl (c : Core) (x : Journal) : (c.setJnl x).netCnt = c.netCnt := rfl
@[simp] theorem vctxs_setJnl (c : Core) (x : Journal) : (c.setJnl x).vctxs = c.vctxs := rfl
@[simp] theorem heads_setJnl (c : Core) (x : Journal) : (c.setJnl x).heads = c.heads := rfl
@[simp] theorem dpts_setJnl (c : Core) (x : Journal) : (c.setJnl x).dpts = c.dpts := rfl
@[simp] theorem trig_setJnl (c : Core) (x : Journal) : (c.setJnl x).trig = c.trig := rfl
@[simp] theorem pulses_setJnl (c : Core) (x : Journal) : (c.setJnl x).pulses = c.pulses := rfl
@[simp] theorem encs_setJnl (c : Core) (x : Journal) : (c.setJnl x).encs = c.encs := rfl
@[simp] theorem encCaches_setJnl (c : Core) (x : Journal) : (c.setJnl x).encCaches = c.encCaches := rfl
@[simp] theorem wit_setJnl (c : Core) (x : Journal) : (c.setJnl x).wit = c.wit := rfl
@[simp] theorem cave_setJnl (c : Core) (x : Journal) : (c.setJnl x).cave = c.cave := rfl
@[simp] theorem aud_setJnl (c : Core) (x : Journal) : (c.setJnl x).aud = c.aud := rfl
@[simp] theorem tchs_setJnl (c : Core) (x : Journal) : (c.setJnl x).tchs = c.tchs := rfl
@[simp] theorem hpts_setJnl (c : Core) (x : Journal) : (c.setJnl x).hpts = c.hpts := rfl
@[simp] theorem hostIf_setJnl (c : Core) (x : Journal) : (c.setJnl x).hostIf = c.hostIf := rfl
@[simp] theorem rgl_setJnl (c : Core) (x : Journal) : (c.setJnl x).rgl = c.rgl := rfl
@[simp] theorem pwr_setJnl (c : Core) (x : Journal) : (c.setJnl x).pwr = c.pwr := rfl
@[simp] theorem boot_setJnl (c : Core) (x : Journal) : (c.setJnl x).boot = c.boot := rfl
@[simp] theorem leResets_setJnl (c : Core) (x : Journal) : (c.setJnl x).leResets = c.leResets := rfl

/-! ### `setHead` -/

@[simp] theorem var_setHead (c : Core) (n : Nat) (x : Head) : (c.setHead n x).var = c.var := rfl
@[simp] theorem now_setHead (c : Core) (n : Nat) (x : Head) : (c.setHead n x).now = c.now := rfl
@[simp] theorem ptpOff_setHead (c : Core) (n : Nat) (x : Head) : (c.setHead n x).ptpOff = c.ptpOff := rfl
@[simp] theorem regs_setHead (c : Core) (n : Nat) (x : Head) : (c.setHead n x).regs = c.regs := rfl
@[simp] theorem owners_setHead (c : Core) (n : Nat) (x : Head) : (c.setHead n x).owners = c.owners := rfl
@[simp] theorem mem_setHead (c : Core) (n : Nat) (x : Head) : (c.setHead n x).mem = c.mem := rfl
@[simp] theorem posted_setHead (c : Core) (n : Nat) (x : Head) : (c.setHead n x).posted = c.posted := rfl
@[simp] theorem flips_setHead (c : Core) (n : Nat) (x : Head) : (c.setHead n x).flips = c.flips := rfl
@[simp] theorem poison_setHead (c : Core) (n : Nat) (x : Head) : (c.setHead n x).poison = c.poison := rfl
@[simp] theorem resp_setHead (c : Core) (n : Nat) (x : Head) : (c.setHead n x).resp = c.resp := rfl
@[simp] theorem free_setHead (c : Core) (n : Nat) (x : Head) : (c.setHead n x).free = c.free := rfl
@[simp] theorem loLatch_setHead (c : Core) (n : Nat) (x : Head) : (c.setHead n x).loLatch = c.loLatch := rfl
@[simp] theorem evr_setHead (c : Core) (n : Nat) (x : Head) : (c.setHead n x).evr = c.evr := rfl
@[simp] theorem jnl_setHead (c : Core) (n : Nat) (x : Head) : (c.setHead n x).jnl = c.jnl := rfl
@[simp] theorem tkg_setHead (c : Core) (n : Nat) (x : Head) : (c.setHead n x).tkg = c.tkg := rfl
@[simp] theorem adm_setHead (c : Core) (n : Nat) (x : Head) : (c.setHead n x).adm = c.adm := rfl
@[simp] theorem seqs_setHead (c : Core) (n : Nat) (x : Head) : (c.setHead n x).seqs = c.seqs := rfl
@[simp] theorem seqTicks_setHead (c : Core) (n : Nat) (x : Head) : (c.setHead n x).seqTicks = c.seqTicks := rfl
@[simp] theorem parts_setHead (c : Core) (n : Nat) (x : Head) : (c.setHead n x).parts = c.parts := rfl
@[simp] theorem partRuns_setHead (c : Core) (n : Nat) (x : Head) : (c.setHead n x).partRuns = c.partRuns := rfl
@[simp] theorem pot_setHead (c : Core) (n : Nat) (x : Head) : (c.setHead n x).pot = c.pot := rfl
@[simp] theorem cycNum_setHead (c : Core) (n : Nat) (x : Head) : (c.setHead n x).cycNum = c.cycNum := rfl
@[simp] theorem cycAt_setHead (c : Core) (n : Nat) (x : Head) : (c.setHead n x).cycAt = c.cycAt := rfl
@[simp] theorem bootKeys_setHead (c : Core) (n : Nat) (x : Head) : (c.setHead n x).bootKeys = c.bootKeys := rfl
@[simp] theorem dmc_setHead (c : Core) (n : Nat) (x : Head) : (c.setHead n x).dmc = c.dmc := rfl
@[simp] theorem dmas_setHead (c : Core) (n : Nat) (x : Head) : (c.setHead n x).dmas = c.dmas := rfl
@[simp] theorem crcs_setHead (c : Core) (n : Nat) (x : Head) : (c.setHead n x).crcs = c.crcs := rfl
@[simp] theorem slots_setHead (c : Core) (n : Nat) (x : Head) : (c.setHead n x).slots = c.slots := rfl
@[simp] theorem netCnt_setHead (c : Core) (n : Nat) (x : Head) : (c.setHead n x).netCnt = c.netCnt := rfl
@[simp] theorem vctxs_setHead (c : Core) (n : Nat) (x : Head) : (c.setHead n x).vctxs = c.vctxs := rfl
@[simp] theorem dpts_setHead (c : Core) (n : Nat) (x : Head) : (c.setHead n x).dpts = c.dpts := rfl
@[simp] theorem trig_setHead (c : Core) (n : Nat) (x : Head) : (c.setHead n x).trig = c.trig := rfl
@[simp] theorem pulses_setHead (c : Core) (n : Nat) (x : Head) : (c.setHead n x).pulses = c.pulses := rfl
@[simp] theorem encs_setHead (c : Core) (n : Nat) (x : Head) : (c.setHead n x).encs = c.encs := rfl
@[simp] theorem encCaches_setHead (c : Core) (n : Nat) (x : Head) : (c.setHead n x).encCaches = c.encCaches := rfl
@[simp] theorem wit_setHead (c : Core) (n : Nat) (x : Head) : (c.setHead n x).wit = c.wit := rfl
@[simp] theorem cave_setHead (c : Core) (n : Nat) (x : Head) : (c.setHead n x).cave = c.cave := rfl
@[simp] theorem aud_setHead (c : Core) (n : Nat) (x : Head) : (c.setHead n x).aud = c.aud := rfl
@[simp] theorem tchs_setHead (c : Core) (n : Nat) (x : Head) : (c.setHead n x).tchs = c.tchs := rfl
@[simp] theorem hpts_setHead (c : Core) (n : Nat) (x : Head) : (c.setHead n x).hpts = c.hpts := rfl
@[simp] theorem hostIf_setHead (c : Core) (n : Nat) (x : Head) : (c.setHead n x).hostIf = c.hostIf := rfl
@[simp] theorem rgl_setHead (c : Core) (n : Nat) (x : Head) : (c.setHead n x).rgl = c.rgl := rfl
@[simp] theorem pwr_setHead (c : Core) (n : Nat) (x : Head) : (c.setHead n x).pwr = c.pwr := rfl
@[simp] theorem boot_setHead (c : Core) (n : Nat) (x : Head) : (c.setHead n x).boot = c.boot := rfl
@[simp] theorem leResets_setHead (c : Core) (n : Nat) (x : Head) : (c.setHead n x).leResets = c.leResets := rfl

/-! ### `setDma` -/

@[simp] theorem var_setDma (c : Core) (n : Nat) (x : Dma) : (c.setDma n x).var = c.var := rfl
@[simp] theorem now_setDma (c : Core) (n : Nat) (x : Dma) : (c.setDma n x).now = c.now := rfl
@[simp] theorem ptpOff_setDma (c : Core) (n : Nat) (x : Dma) : (c.setDma n x).ptpOff = c.ptpOff := rfl
@[simp] theorem regs_setDma (c : Core) (n : Nat) (x : Dma) : (c.setDma n x).regs = c.regs := rfl
@[simp] theorem owners_setDma (c : Core) (n : Nat) (x : Dma) : (c.setDma n x).owners = c.owners := rfl
@[simp] theorem mem_setDma (c : Core) (n : Nat) (x : Dma) : (c.setDma n x).mem = c.mem := rfl
@[simp] theorem posted_setDma (c : Core) (n : Nat) (x : Dma) : (c.setDma n x).posted = c.posted := rfl
@[simp] theorem flips_setDma (c : Core) (n : Nat) (x : Dma) : (c.setDma n x).flips = c.flips := rfl
@[simp] theorem poison_setDma (c : Core) (n : Nat) (x : Dma) : (c.setDma n x).poison = c.poison := rfl
@[simp] theorem resp_setDma (c : Core) (n : Nat) (x : Dma) : (c.setDma n x).resp = c.resp := rfl
@[simp] theorem free_setDma (c : Core) (n : Nat) (x : Dma) : (c.setDma n x).free = c.free := rfl
@[simp] theorem loLatch_setDma (c : Core) (n : Nat) (x : Dma) : (c.setDma n x).loLatch = c.loLatch := rfl
@[simp] theorem evr_setDma (c : Core) (n : Nat) (x : Dma) : (c.setDma n x).evr = c.evr := rfl
@[simp] theorem jnl_setDma (c : Core) (n : Nat) (x : Dma) : (c.setDma n x).jnl = c.jnl := rfl
@[simp] theorem tkg_setDma (c : Core) (n : Nat) (x : Dma) : (c.setDma n x).tkg = c.tkg := rfl
@[simp] theorem adm_setDma (c : Core) (n : Nat) (x : Dma) : (c.setDma n x).adm = c.adm := rfl
@[simp] theorem seqs_setDma (c : Core) (n : Nat) (x : Dma) : (c.setDma n x).seqs = c.seqs := rfl
@[simp] theorem seqTicks_setDma (c : Core) (n : Nat) (x : Dma) : (c.setDma n x).seqTicks = c.seqTicks := rfl
@[simp] theorem parts_setDma (c : Core) (n : Nat) (x : Dma) : (c.setDma n x).parts = c.parts := rfl
@[simp] theorem partRuns_setDma (c : Core) (n : Nat) (x : Dma) : (c.setDma n x).partRuns = c.partRuns := rfl
@[simp] theorem pot_setDma (c : Core) (n : Nat) (x : Dma) : (c.setDma n x).pot = c.pot := rfl
@[simp] theorem cycNum_setDma (c : Core) (n : Nat) (x : Dma) : (c.setDma n x).cycNum = c.cycNum := rfl
@[simp] theorem cycAt_setDma (c : Core) (n : Nat) (x : Dma) : (c.setDma n x).cycAt = c.cycAt := rfl
@[simp] theorem bootKeys_setDma (c : Core) (n : Nat) (x : Dma) : (c.setDma n x).bootKeys = c.bootKeys := rfl
@[simp] theorem dmc_setDma (c : Core) (n : Nat) (x : Dma) : (c.setDma n x).dmc = c.dmc := rfl
@[simp] theorem crcs_setDma (c : Core) (n : Nat) (x : Dma) : (c.setDma n x).crcs = c.crcs := rfl
@[simp] theorem slots_setDma (c : Core) (n : Nat) (x : Dma) : (c.setDma n x).slots = c.slots := rfl
@[simp] theorem netCnt_setDma (c : Core) (n : Nat) (x : Dma) : (c.setDma n x).netCnt = c.netCnt := rfl
@[simp] theorem vctxs_setDma (c : Core) (n : Nat) (x : Dma) : (c.setDma n x).vctxs = c.vctxs := rfl
@[simp] theorem heads_setDma (c : Core) (n : Nat) (x : Dma) : (c.setDma n x).heads = c.heads := rfl
@[simp] theorem dpts_setDma (c : Core) (n : Nat) (x : Dma) : (c.setDma n x).dpts = c.dpts := rfl
@[simp] theorem trig_setDma (c : Core) (n : Nat) (x : Dma) : (c.setDma n x).trig = c.trig := rfl
@[simp] theorem pulses_setDma (c : Core) (n : Nat) (x : Dma) : (c.setDma n x).pulses = c.pulses := rfl
@[simp] theorem encs_setDma (c : Core) (n : Nat) (x : Dma) : (c.setDma n x).encs = c.encs := rfl
@[simp] theorem encCaches_setDma (c : Core) (n : Nat) (x : Dma) : (c.setDma n x).encCaches = c.encCaches := rfl
@[simp] theorem wit_setDma (c : Core) (n : Nat) (x : Dma) : (c.setDma n x).wit = c.wit := rfl
@[simp] theorem cave_setDma (c : Core) (n : Nat) (x : Dma) : (c.setDma n x).cave = c.cave := rfl
@[simp] theorem aud_setDma (c : Core) (n : Nat) (x : Dma) : (c.setDma n x).aud = c.aud := rfl
@[simp] theorem tchs_setDma (c : Core) (n : Nat) (x : Dma) : (c.setDma n x).tchs = c.tchs := rfl
@[simp] theorem hpts_setDma (c : Core) (n : Nat) (x : Dma) : (c.setDma n x).hpts = c.hpts := rfl
@[simp] theorem hostIf_setDma (c : Core) (n : Nat) (x : Dma) : (c.setDma n x).hostIf = c.hostIf := rfl
@[simp] theorem rgl_setDma (c : Core) (n : Nat) (x : Dma) : (c.setDma n x).rgl = c.rgl := rfl
@[simp] theorem pwr_setDma (c : Core) (n : Nat) (x : Dma) : (c.setDma n x).pwr = c.pwr := rfl
@[simp] theorem boot_setDma (c : Core) (n : Nat) (x : Dma) : (c.setDma n x).boot = c.boot := rfl
@[simp] theorem leResets_setDma (c : Core) (n : Nat) (x : Dma) : (c.setDma n x).leResets = c.leResets := rfl

/-! ### `setCrc` -/

@[simp] theorem var_setCrc (c : Core) (n : Nat) (x : Crc) : (c.setCrc n x).var = c.var := rfl
@[simp] theorem now_setCrc (c : Core) (n : Nat) (x : Crc) : (c.setCrc n x).now = c.now := rfl
@[simp] theorem ptpOff_setCrc (c : Core) (n : Nat) (x : Crc) : (c.setCrc n x).ptpOff = c.ptpOff := rfl
@[simp] theorem regs_setCrc (c : Core) (n : Nat) (x : Crc) : (c.setCrc n x).regs = c.regs := rfl
@[simp] theorem owners_setCrc (c : Core) (n : Nat) (x : Crc) : (c.setCrc n x).owners = c.owners := rfl
@[simp] theorem mem_setCrc (c : Core) (n : Nat) (x : Crc) : (c.setCrc n x).mem = c.mem := rfl
@[simp] theorem posted_setCrc (c : Core) (n : Nat) (x : Crc) : (c.setCrc n x).posted = c.posted := rfl
@[simp] theorem flips_setCrc (c : Core) (n : Nat) (x : Crc) : (c.setCrc n x).flips = c.flips := rfl
@[simp] theorem poison_setCrc (c : Core) (n : Nat) (x : Crc) : (c.setCrc n x).poison = c.poison := rfl
@[simp] theorem resp_setCrc (c : Core) (n : Nat) (x : Crc) : (c.setCrc n x).resp = c.resp := rfl
@[simp] theorem free_setCrc (c : Core) (n : Nat) (x : Crc) : (c.setCrc n x).free = c.free := rfl
@[simp] theorem loLatch_setCrc (c : Core) (n : Nat) (x : Crc) : (c.setCrc n x).loLatch = c.loLatch := rfl
@[simp] theorem evr_setCrc (c : Core) (n : Nat) (x : Crc) : (c.setCrc n x).evr = c.evr := rfl
@[simp] theorem jnl_setCrc (c : Core) (n : Nat) (x : Crc) : (c.setCrc n x).jnl = c.jnl := rfl
@[simp] theorem tkg_setCrc (c : Core) (n : Nat) (x : Crc) : (c.setCrc n x).tkg = c.tkg := rfl
@[simp] theorem adm_setCrc (c : Core) (n : Nat) (x : Crc) : (c.setCrc n x).adm = c.adm := rfl
@[simp] theorem seqs_setCrc (c : Core) (n : Nat) (x : Crc) : (c.setCrc n x).seqs = c.seqs := rfl
@[simp] theorem seqTicks_setCrc (c : Core) (n : Nat) (x : Crc) : (c.setCrc n x).seqTicks = c.seqTicks := rfl
@[simp] theorem parts_setCrc (c : Core) (n : Nat) (x : Crc) : (c.setCrc n x).parts = c.parts := rfl
@[simp] theorem partRuns_setCrc (c : Core) (n : Nat) (x : Crc) : (c.setCrc n x).partRuns = c.partRuns := rfl
@[simp] theorem pot_setCrc (c : Core) (n : Nat) (x : Crc) : (c.setCrc n x).pot = c.pot := rfl
@[simp] theorem cycNum_setCrc (c : Core) (n : Nat) (x : Crc) : (c.setCrc n x).cycNum = c.cycNum := rfl
@[simp] theorem cycAt_setCrc (c : Core) (n : Nat) (x : Crc) : (c.setCrc n x).cycAt = c.cycAt := rfl
@[simp] theorem bootKeys_setCrc (c : Core) (n : Nat) (x : Crc) : (c.setCrc n x).bootKeys = c.bootKeys := rfl
@[simp] theorem dmc_setCrc (c : Core) (n : Nat) (x : Crc) : (c.setCrc n x).dmc = c.dmc := rfl
@[simp] theorem dmas_setCrc (c : Core) (n : Nat) (x : Crc) : (c.setCrc n x).dmas = c.dmas := rfl
@[simp] theorem slots_setCrc (c : Core) (n : Nat) (x : Crc) : (c.setCrc n x).slots = c.slots := rfl
@[simp] theorem netCnt_setCrc (c : Core) (n : Nat) (x : Crc) : (c.setCrc n x).netCnt = c.netCnt := rfl
@[simp] theorem vctxs_setCrc (c : Core) (n : Nat) (x : Crc) : (c.setCrc n x).vctxs = c.vctxs := rfl
@[simp] theorem heads_setCrc (c : Core) (n : Nat) (x : Crc) : (c.setCrc n x).heads = c.heads := rfl
@[simp] theorem dpts_setCrc (c : Core) (n : Nat) (x : Crc) : (c.setCrc n x).dpts = c.dpts := rfl
@[simp] theorem trig_setCrc (c : Core) (n : Nat) (x : Crc) : (c.setCrc n x).trig = c.trig := rfl
@[simp] theorem pulses_setCrc (c : Core) (n : Nat) (x : Crc) : (c.setCrc n x).pulses = c.pulses := rfl
@[simp] theorem encs_setCrc (c : Core) (n : Nat) (x : Crc) : (c.setCrc n x).encs = c.encs := rfl
@[simp] theorem encCaches_setCrc (c : Core) (n : Nat) (x : Crc) : (c.setCrc n x).encCaches = c.encCaches := rfl
@[simp] theorem wit_setCrc (c : Core) (n : Nat) (x : Crc) : (c.setCrc n x).wit = c.wit := rfl
@[simp] theorem cave_setCrc (c : Core) (n : Nat) (x : Crc) : (c.setCrc n x).cave = c.cave := rfl
@[simp] theorem aud_setCrc (c : Core) (n : Nat) (x : Crc) : (c.setCrc n x).aud = c.aud := rfl
@[simp] theorem tchs_setCrc (c : Core) (n : Nat) (x : Crc) : (c.setCrc n x).tchs = c.tchs := rfl
@[simp] theorem hpts_setCrc (c : Core) (n : Nat) (x : Crc) : (c.setCrc n x).hpts = c.hpts := rfl
@[simp] theorem hostIf_setCrc (c : Core) (n : Nat) (x : Crc) : (c.setCrc n x).hostIf = c.hostIf := rfl
@[simp] theorem rgl_setCrc (c : Core) (n : Nat) (x : Crc) : (c.setCrc n x).rgl = c.rgl := rfl
@[simp] theorem pwr_setCrc (c : Core) (n : Nat) (x : Crc) : (c.setCrc n x).pwr = c.pwr := rfl
@[simp] theorem boot_setCrc (c : Core) (n : Nat) (x : Crc) : (c.setCrc n x).boot = c.boot := rfl
@[simp] theorem leResets_setCrc (c : Core) (n : Nat) (x : Crc) : (c.setCrc n x).leResets = c.leResets := rfl

/-! ### `setSlot` -/

@[simp] theorem var_setSlot (c : Core) (n : Nat) (x : Slot) : (c.setSlot n x).var = c.var := rfl
@[simp] theorem now_setSlot (c : Core) (n : Nat) (x : Slot) : (c.setSlot n x).now = c.now := rfl
@[simp] theorem ptpOff_setSlot (c : Core) (n : Nat) (x : Slot) : (c.setSlot n x).ptpOff = c.ptpOff := rfl
@[simp] theorem regs_setSlot (c : Core) (n : Nat) (x : Slot) : (c.setSlot n x).regs = c.regs := rfl
@[simp] theorem owners_setSlot (c : Core) (n : Nat) (x : Slot) : (c.setSlot n x).owners = c.owners := rfl
@[simp] theorem mem_setSlot (c : Core) (n : Nat) (x : Slot) : (c.setSlot n x).mem = c.mem := rfl
@[simp] theorem posted_setSlot (c : Core) (n : Nat) (x : Slot) : (c.setSlot n x).posted = c.posted := rfl
@[simp] theorem flips_setSlot (c : Core) (n : Nat) (x : Slot) : (c.setSlot n x).flips = c.flips := rfl
@[simp] theorem poison_setSlot (c : Core) (n : Nat) (x : Slot) : (c.setSlot n x).poison = c.poison := rfl
@[simp] theorem resp_setSlot (c : Core) (n : Nat) (x : Slot) : (c.setSlot n x).resp = c.resp := rfl
@[simp] theorem free_setSlot (c : Core) (n : Nat) (x : Slot) : (c.setSlot n x).free = c.free := rfl
@[simp] theorem loLatch_setSlot (c : Core) (n : Nat) (x : Slot) : (c.setSlot n x).loLatch = c.loLatch := rfl
@[simp] theorem evr_setSlot (c : Core) (n : Nat) (x : Slot) : (c.setSlot n x).evr = c.evr := rfl
@[simp] theorem jnl_setSlot (c : Core) (n : Nat) (x : Slot) : (c.setSlot n x).jnl = c.jnl := rfl
@[simp] theorem tkg_setSlot (c : Core) (n : Nat) (x : Slot) : (c.setSlot n x).tkg = c.tkg := rfl
@[simp] theorem adm_setSlot (c : Core) (n : Nat) (x : Slot) : (c.setSlot n x).adm = c.adm := rfl
@[simp] theorem seqs_setSlot (c : Core) (n : Nat) (x : Slot) : (c.setSlot n x).seqs = c.seqs := rfl
@[simp] theorem seqTicks_setSlot (c : Core) (n : Nat) (x : Slot) : (c.setSlot n x).seqTicks = c.seqTicks := rfl
@[simp] theorem parts_setSlot (c : Core) (n : Nat) (x : Slot) : (c.setSlot n x).parts = c.parts := rfl
@[simp] theorem partRuns_setSlot (c : Core) (n : Nat) (x : Slot) : (c.setSlot n x).partRuns = c.partRuns := rfl
@[simp] theorem pot_setSlot (c : Core) (n : Nat) (x : Slot) : (c.setSlot n x).pot = c.pot := rfl
@[simp] theorem cycNum_setSlot (c : Core) (n : Nat) (x : Slot) : (c.setSlot n x).cycNum = c.cycNum := rfl
@[simp] theorem cycAt_setSlot (c : Core) (n : Nat) (x : Slot) : (c.setSlot n x).cycAt = c.cycAt := rfl
@[simp] theorem bootKeys_setSlot (c : Core) (n : Nat) (x : Slot) : (c.setSlot n x).bootKeys = c.bootKeys := rfl
@[simp] theorem dmc_setSlot (c : Core) (n : Nat) (x : Slot) : (c.setSlot n x).dmc = c.dmc := rfl
@[simp] theorem dmas_setSlot (c : Core) (n : Nat) (x : Slot) : (c.setSlot n x).dmas = c.dmas := rfl
@[simp] theorem crcs_setSlot (c : Core) (n : Nat) (x : Slot) : (c.setSlot n x).crcs = c.crcs := rfl
@[simp] theorem netCnt_setSlot (c : Core) (n : Nat) (x : Slot) : (c.setSlot n x).netCnt = c.netCnt := rfl
@[simp] theorem vctxs_setSlot (c : Core) (n : Nat) (x : Slot) : (c.setSlot n x).vctxs = c.vctxs := rfl
@[simp] theorem heads_setSlot (c : Core) (n : Nat) (x : Slot) : (c.setSlot n x).heads = c.heads := rfl
@[simp] theorem dpts_setSlot (c : Core) (n : Nat) (x : Slot) : (c.setSlot n x).dpts = c.dpts := rfl
@[simp] theorem trig_setSlot (c : Core) (n : Nat) (x : Slot) : (c.setSlot n x).trig = c.trig := rfl
@[simp] theorem pulses_setSlot (c : Core) (n : Nat) (x : Slot) : (c.setSlot n x).pulses = c.pulses := rfl
@[simp] theorem encs_setSlot (c : Core) (n : Nat) (x : Slot) : (c.setSlot n x).encs = c.encs := rfl
@[simp] theorem encCaches_setSlot (c : Core) (n : Nat) (x : Slot) : (c.setSlot n x).encCaches = c.encCaches := rfl
@[simp] theorem wit_setSlot (c : Core) (n : Nat) (x : Slot) : (c.setSlot n x).wit = c.wit := rfl
@[simp] theorem cave_setSlot (c : Core) (n : Nat) (x : Slot) : (c.setSlot n x).cave = c.cave := rfl
@[simp] theorem aud_setSlot (c : Core) (n : Nat) (x : Slot) : (c.setSlot n x).aud = c.aud := rfl
@[simp] theorem tchs_setSlot (c : Core) (n : Nat) (x : Slot) : (c.setSlot n x).tchs = c.tchs := rfl
@[simp] theorem hpts_setSlot (c : Core) (n : Nat) (x : Slot) : (c.setSlot n x).hpts = c.hpts := rfl
@[simp] theorem hostIf_setSlot (c : Core) (n : Nat) (x : Slot) : (c.setSlot n x).hostIf = c.hostIf := rfl
@[simp] theorem rgl_setSlot (c : Core) (n : Nat) (x : Slot) : (c.setSlot n x).rgl = c.rgl := rfl
@[simp] theorem pwr_setSlot (c : Core) (n : Nat) (x : Slot) : (c.setSlot n x).pwr = c.pwr := rfl
@[simp] theorem boot_setSlot (c : Core) (n : Nat) (x : Slot) : (c.setSlot n x).boot = c.boot := rfl
@[simp] theorem leResets_setSlot (c : Core) (n : Nat) (x : Slot) : (c.setSlot n x).leResets = c.leResets := rfl

/-! ### `setVctx` -/

@[simp] theorem var_setVctx (c : Core) (v n : Nat) (x : VCtx) : (c.setVctx v n x).var = c.var := rfl
@[simp] theorem now_setVctx (c : Core) (v n : Nat) (x : VCtx) : (c.setVctx v n x).now = c.now := rfl
@[simp] theorem ptpOff_setVctx (c : Core) (v n : Nat) (x : VCtx) : (c.setVctx v n x).ptpOff = c.ptpOff := rfl
@[simp] theorem regs_setVctx (c : Core) (v n : Nat) (x : VCtx) : (c.setVctx v n x).regs = c.regs := rfl
@[simp] theorem owners_setVctx (c : Core) (v n : Nat) (x : VCtx) : (c.setVctx v n x).owners = c.owners := rfl
@[simp] theorem mem_setVctx (c : Core) (v n : Nat) (x : VCtx) : (c.setVctx v n x).mem = c.mem := rfl
@[simp] theorem posted_setVctx (c : Core) (v n : Nat) (x : VCtx) : (c.setVctx v n x).posted = c.posted := rfl
@[simp] theorem flips_setVctx (c : Core) (v n : Nat) (x : VCtx) : (c.setVctx v n x).flips = c.flips := rfl
@[simp] theorem poison_setVctx (c : Core) (v n : Nat) (x : VCtx) : (c.setVctx v n x).poison = c.poison := rfl
@[simp] theorem resp_setVctx (c : Core) (v n : Nat) (x : VCtx) : (c.setVctx v n x).resp = c.resp := rfl
@[simp] theorem free_setVctx (c : Core) (v n : Nat) (x : VCtx) : (c.setVctx v n x).free = c.free := rfl
@[simp] theorem loLatch_setVctx (c : Core) (v n : Nat) (x : VCtx) : (c.setVctx v n x).loLatch = c.loLatch := rfl
@[simp] theorem evr_setVctx (c : Core) (v n : Nat) (x : VCtx) : (c.setVctx v n x).evr = c.evr := rfl
@[simp] theorem jnl_setVctx (c : Core) (v n : Nat) (x : VCtx) : (c.setVctx v n x).jnl = c.jnl := rfl
@[simp] theorem tkg_setVctx (c : Core) (v n : Nat) (x : VCtx) : (c.setVctx v n x).tkg = c.tkg := rfl
@[simp] theorem adm_setVctx (c : Core) (v n : Nat) (x : VCtx) : (c.setVctx v n x).adm = c.adm := rfl
@[simp] theorem seqs_setVctx (c : Core) (v n : Nat) (x : VCtx) : (c.setVctx v n x).seqs = c.seqs := rfl
@[simp] theorem seqTicks_setVctx (c : Core) (v n : Nat) (x : VCtx) : (c.setVctx v n x).seqTicks = c.seqTicks := rfl
@[simp] theorem parts_setVctx (c : Core) (v n : Nat) (x : VCtx) : (c.setVctx v n x).parts = c.parts := rfl
@[simp] theorem partRuns_setVctx (c : Core) (v n : Nat) (x : VCtx) : (c.setVctx v n x).partRuns = c.partRuns := rfl
@[simp] theorem pot_setVctx (c : Core) (v n : Nat) (x : VCtx) : (c.setVctx v n x).pot = c.pot := rfl
@[simp] theorem cycNum_setVctx (c : Core) (v n : Nat) (x : VCtx) : (c.setVctx v n x).cycNum = c.cycNum := rfl
@[simp] theorem cycAt_setVctx (c : Core) (v n : Nat) (x : VCtx) : (c.setVctx v n x).cycAt = c.cycAt := rfl
@[simp] theorem bootKeys_setVctx (c : Core) (v n : Nat) (x : VCtx) : (c.setVctx v n x).bootKeys = c.bootKeys := rfl
@[simp] theorem dmc_setVctx (c : Core) (v n : Nat) (x : VCtx) : (c.setVctx v n x).dmc = c.dmc := rfl
@[simp] theorem dmas_setVctx (c : Core) (v n : Nat) (x : VCtx) : (c.setVctx v n x).dmas = c.dmas := rfl
@[simp] theorem crcs_setVctx (c : Core) (v n : Nat) (x : VCtx) : (c.setVctx v n x).crcs = c.crcs := rfl
@[simp] theorem slots_setVctx (c : Core) (v n : Nat) (x : VCtx) : (c.setVctx v n x).slots = c.slots := rfl
@[simp] theorem netCnt_setVctx (c : Core) (v n : Nat) (x : VCtx) : (c.setVctx v n x).netCnt = c.netCnt := rfl
@[simp] theorem heads_setVctx (c : Core) (v n : Nat) (x : VCtx) : (c.setVctx v n x).heads = c.heads := rfl
@[simp] theorem dpts_setVctx (c : Core) (v n : Nat) (x : VCtx) : (c.setVctx v n x).dpts = c.dpts := rfl
@[simp] theorem trig_setVctx (c : Core) (v n : Nat) (x : VCtx) : (c.setVctx v n x).trig = c.trig := rfl
@[simp] theorem pulses_setVctx (c : Core) (v n : Nat) (x : VCtx) : (c.setVctx v n x).pulses = c.pulses := rfl
@[simp] theorem encs_setVctx (c : Core) (v n : Nat) (x : VCtx) : (c.setVctx v n x).encs = c.encs := rfl
@[simp] theorem encCaches_setVctx (c : Core) (v n : Nat) (x : VCtx) : (c.setVctx v n x).encCaches = c.encCaches := rfl
@[simp] theorem wit_setVctx (c : Core) (v n : Nat) (x : VCtx) : (c.setVctx v n x).wit = c.wit := rfl
@[simp] theorem cave_setVctx (c : Core) (v n : Nat) (x : VCtx) : (c.setVctx v n x).cave = c.cave := rfl
@[simp] theorem aud_setVctx (c : Core) (v n : Nat) (x : VCtx) : (c.setVctx v n x).aud = c.aud := rfl
@[simp] theorem tchs_setVctx (c : Core) (v n : Nat) (x : VCtx) : (c.setVctx v n x).tchs = c.tchs := rfl
@[simp] theorem hpts_setVctx (c : Core) (v n : Nat) (x : VCtx) : (c.setVctx v n x).hpts = c.hpts := rfl
@[simp] theorem hostIf_setVctx (c : Core) (v n : Nat) (x : VCtx) : (c.setVctx v n x).hostIf = c.hostIf := rfl
@[simp] theorem rgl_setVctx (c : Core) (v n : Nat) (x : VCtx) : (c.setVctx v n x).rgl = c.rgl := rfl
@[simp] theorem pwr_setVctx (c : Core) (v n : Nat) (x : VCtx) : (c.setVctx v n x).pwr = c.pwr := rfl
@[simp] theorem boot_setVctx (c : Core) (v n : Nat) (x : VCtx) : (c.setVctx v n x).boot = c.boot := rfl
@[simp] theorem leResets_setVctx (c : Core) (v n : Nat) (x : VCtx) : (c.setVctx v n x).leResets = c.leResets := rfl

/-! ### `setDpt` -/

@[simp] theorem var_setDpt (c : Core) (n : Nat) (x : Dpt) : (c.setDpt n x).var = c.var := rfl
@[simp] theorem now_setDpt (c : Core) (n : Nat) (x : Dpt) : (c.setDpt n x).now = c.now := rfl
@[simp] theorem ptpOff_setDpt (c : Core) (n : Nat) (x : Dpt) : (c.setDpt n x).ptpOff = c.ptpOff := rfl
@[simp] theorem regs_setDpt (c : Core) (n : Nat) (x : Dpt) : (c.setDpt n x).regs = c.regs := rfl
@[simp] theorem owners_setDpt (c : Core) (n : Nat) (x : Dpt) : (c.setDpt n x).owners = c.owners := rfl
@[simp] theorem mem_setDpt (c : Core) (n : Nat) (x : Dpt) : (c.setDpt n x).mem = c.mem := rfl
@[simp] theorem posted_setDpt (c : Core) (n : Nat) (x : Dpt) : (c.setDpt n x).posted = c.posted := rfl
@[simp] theorem flips_setDpt (c : Core) (n : Nat) (x : Dpt) : (c.setDpt n x).flips = c.flips := rfl
@[simp] theorem poison_setDpt (c : Core) (n : Nat) (x : Dpt) : (c.setDpt n x).poison = c.poison := rfl
@[simp] theorem resp_setDpt (c : Core) (n : Nat) (x : Dpt) : (c.setDpt n x).resp = c.resp := rfl
@[simp] theorem free_setDpt (c : Core) (n : Nat) (x : Dpt) : (c.setDpt n x).free = c.free := rfl
@[simp] theorem loLatch_setDpt (c : Core) (n : Nat) (x : Dpt) : (c.setDpt n x).loLatch = c.loLatch := rfl
@[simp] theorem evr_setDpt (c : Core) (n : Nat) (x : Dpt) : (c.setDpt n x).evr = c.evr := rfl
@[simp] theorem jnl_setDpt (c : Core) (n : Nat) (x : Dpt) : (c.setDpt n x).jnl = c.jnl := rfl
@[simp] theorem tkg_setDpt (c : Core) (n : Nat) (x : Dpt) : (c.setDpt n x).tkg = c.tkg := rfl
@[simp] theorem adm_setDpt (c : Core) (n : Nat) (x : Dpt) : (c.setDpt n x).adm = c.adm := rfl
@[simp] theorem seqs_setDpt (c : Core) (n : Nat) (x : Dpt) : (c.setDpt n x).seqs = c.seqs := rfl
@[simp] theorem seqTicks_setDpt (c : Core) (n : Nat) (x : Dpt) : (c.setDpt n x).seqTicks = c.seqTicks := rfl
@[simp] theorem parts_setDpt (c : Core) (n : Nat) (x : Dpt) : (c.setDpt n x).parts = c.parts := rfl
@[simp] theorem partRuns_setDpt (c : Core) (n : Nat) (x : Dpt) : (c.setDpt n x).partRuns = c.partRuns := rfl
@[simp] theorem pot_setDpt (c : Core) (n : Nat) (x : Dpt) : (c.setDpt n x).pot = c.pot := rfl
@[simp] theorem cycNum_setDpt (c : Core) (n : Nat) (x : Dpt) : (c.setDpt n x).cycNum = c.cycNum := rfl
@[simp] theorem cycAt_setDpt (c : Core) (n : Nat) (x : Dpt) : (c.setDpt n x).cycAt = c.cycAt := rfl
@[simp] theorem bootKeys_setDpt (c : Core) (n : Nat) (x : Dpt) : (c.setDpt n x).bootKeys = c.bootKeys := rfl
@[simp] theorem dmc_setDpt (c : Core) (n : Nat) (x : Dpt) : (c.setDpt n x).dmc = c.dmc := rfl
@[simp] theorem dmas_setDpt (c : Core) (n : Nat) (x : Dpt) : (c.setDpt n x).dmas = c.dmas := rfl
@[simp] theorem crcs_setDpt (c : Core) (n : Nat) (x : Dpt) : (c.setDpt n x).crcs = c.crcs := rfl
@[simp] theorem slots_setDpt (c : Core) (n : Nat) (x : Dpt) : (c.setDpt n x).slots = c.slots := rfl
@[simp] theorem netCnt_setDpt (c : Core) (n : Nat) (x : Dpt) : (c.setDpt n x).netCnt = c.netCnt := rfl
@[simp] theorem vctxs_setDpt (c : Core) (n : Nat) (x : Dpt) : (c.setDpt n x).vctxs = c.vctxs := rfl
@[simp] theorem heads_setDpt (c : Core) (n : Nat) (x : Dpt) : (c.setDpt n x).heads = c.heads := rfl
@[simp] theorem trig_setDpt (c : Core) (n : Nat) (x : Dpt) : (c.setDpt n x).trig = c.trig := rfl
@[simp] theorem pulses_setDpt (c : Core) (n : Nat) (x : Dpt) : (c.setDpt n x).pulses = c.pulses := rfl
@[simp] theorem encs_setDpt (c : Core) (n : Nat) (x : Dpt) : (c.setDpt n x).encs = c.encs := rfl
@[simp] theorem encCaches_setDpt (c : Core) (n : Nat) (x : Dpt) : (c.setDpt n x).encCaches = c.encCaches := rfl
@[simp] theorem wit_setDpt (c : Core) (n : Nat) (x : Dpt) : (c.setDpt n x).wit = c.wit := rfl
@[simp] theorem cave_setDpt (c : Core) (n : Nat) (x : Dpt) : (c.setDpt n x).cave = c.cave := rfl
@[simp] theorem aud_setDpt (c : Core) (n : Nat) (x : Dpt) : (c.setDpt n x).aud = c.aud := rfl
@[simp] theorem tchs_setDpt (c : Core) (n : Nat) (x : Dpt) : (c.setDpt n x).tchs = c.tchs := rfl
@[simp] theorem hpts_setDpt (c : Core) (n : Nat) (x : Dpt) : (c.setDpt n x).hpts = c.hpts := rfl
@[simp] theorem hostIf_setDpt (c : Core) (n : Nat) (x : Dpt) : (c.setDpt n x).hostIf = c.hostIf := rfl
@[simp] theorem rgl_setDpt (c : Core) (n : Nat) (x : Dpt) : (c.setDpt n x).rgl = c.rgl := rfl
@[simp] theorem pwr_setDpt (c : Core) (n : Nat) (x : Dpt) : (c.setDpt n x).pwr = c.pwr := rfl
@[simp] theorem boot_setDpt (c : Core) (n : Nat) (x : Dpt) : (c.setDpt n x).boot = c.boot := rfl
@[simp] theorem leResets_setDpt (c : Core) (n : Nat) (x : Dpt) : (c.setDpt n x).leResets = c.leResets := rfl

/-! ### `setEnc` -/

@[simp] theorem var_setEnc (c : Core) (e n : Nat) (x : EncStream) : (c.setEnc e n x).var = c.var := rfl
@[simp] theorem now_setEnc (c : Core) (e n : Nat) (x : EncStream) : (c.setEnc e n x).now = c.now := rfl
@[simp] theorem ptpOff_setEnc (c : Core) (e n : Nat) (x : EncStream) : (c.setEnc e n x).ptpOff = c.ptpOff := rfl
@[simp] theorem regs_setEnc (c : Core) (e n : Nat) (x : EncStream) : (c.setEnc e n x).regs = c.regs := rfl
@[simp] theorem owners_setEnc (c : Core) (e n : Nat) (x : EncStream) : (c.setEnc e n x).owners = c.owners := rfl
@[simp] theorem mem_setEnc (c : Core) (e n : Nat) (x : EncStream) : (c.setEnc e n x).mem = c.mem := rfl
@[simp] theorem posted_setEnc (c : Core) (e n : Nat) (x : EncStream) : (c.setEnc e n x).posted = c.posted := rfl
@[simp] theorem flips_setEnc (c : Core) (e n : Nat) (x : EncStream) : (c.setEnc e n x).flips = c.flips := rfl
@[simp] theorem poison_setEnc (c : Core) (e n : Nat) (x : EncStream) : (c.setEnc e n x).poison = c.poison := rfl
@[simp] theorem resp_setEnc (c : Core) (e n : Nat) (x : EncStream) : (c.setEnc e n x).resp = c.resp := rfl
@[simp] theorem free_setEnc (c : Core) (e n : Nat) (x : EncStream) : (c.setEnc e n x).free = c.free := rfl
@[simp] theorem loLatch_setEnc (c : Core) (e n : Nat) (x : EncStream) : (c.setEnc e n x).loLatch = c.loLatch := rfl
@[simp] theorem evr_setEnc (c : Core) (e n : Nat) (x : EncStream) : (c.setEnc e n x).evr = c.evr := rfl
@[simp] theorem jnl_setEnc (c : Core) (e n : Nat) (x : EncStream) : (c.setEnc e n x).jnl = c.jnl := rfl
@[simp] theorem tkg_setEnc (c : Core) (e n : Nat) (x : EncStream) : (c.setEnc e n x).tkg = c.tkg := rfl
@[simp] theorem adm_setEnc (c : Core) (e n : Nat) (x : EncStream) : (c.setEnc e n x).adm = c.adm := rfl
@[simp] theorem seqs_setEnc (c : Core) (e n : Nat) (x : EncStream) : (c.setEnc e n x).seqs = c.seqs := rfl
@[simp] theorem seqTicks_setEnc (c : Core) (e n : Nat) (x : EncStream) : (c.setEnc e n x).seqTicks = c.seqTicks := rfl
@[simp] theorem parts_setEnc (c : Core) (e n : Nat) (x : EncStream) : (c.setEnc e n x).parts = c.parts := rfl
@[simp] theorem partRuns_setEnc (c : Core) (e n : Nat) (x : EncStream) : (c.setEnc e n x).partRuns = c.partRuns := rfl
@[simp] theorem pot_setEnc (c : Core) (e n : Nat) (x : EncStream) : (c.setEnc e n x).pot = c.pot := rfl
@[simp] theorem cycNum_setEnc (c : Core) (e n : Nat) (x : EncStream) : (c.setEnc e n x).cycNum = c.cycNum := rfl
@[simp] theorem cycAt_setEnc (c : Core) (e n : Nat) (x : EncStream) : (c.setEnc e n x).cycAt = c.cycAt := rfl
@[simp] theorem bootKeys_setEnc (c : Core) (e n : Nat) (x : EncStream) : (c.setEnc e n x).bootKeys = c.bootKeys := rfl
@[simp] theorem dmc_setEnc (c : Core) (e n : Nat) (x : EncStream) : (c.setEnc e n x).dmc = c.dmc := rfl
@[simp] theorem dmas_setEnc (c : Core) (e n : Nat) (x : EncStream) : (c.setEnc e n x).dmas = c.dmas := rfl
@[simp] theorem crcs_setEnc (c : Core) (e n : Nat) (x : EncStream) : (c.setEnc e n x).crcs = c.crcs := rfl
@[simp] theorem slots_setEnc (c : Core) (e n : Nat) (x : EncStream) : (c.setEnc e n x).slots = c.slots := rfl
@[simp] theorem netCnt_setEnc (c : Core) (e n : Nat) (x : EncStream) : (c.setEnc e n x).netCnt = c.netCnt := rfl
@[simp] theorem vctxs_setEnc (c : Core) (e n : Nat) (x : EncStream) : (c.setEnc e n x).vctxs = c.vctxs := rfl
@[simp] theorem heads_setEnc (c : Core) (e n : Nat) (x : EncStream) : (c.setEnc e n x).heads = c.heads := rfl
@[simp] theorem dpts_setEnc (c : Core) (e n : Nat) (x : EncStream) : (c.setEnc e n x).dpts = c.dpts := rfl
@[simp] theorem trig_setEnc (c : Core) (e n : Nat) (x : EncStream) : (c.setEnc e n x).trig = c.trig := rfl
@[simp] theorem pulses_setEnc (c : Core) (e n : Nat) (x : EncStream) : (c.setEnc e n x).pulses = c.pulses := rfl
@[simp] theorem encCaches_setEnc (c : Core) (e n : Nat) (x : EncStream) : (c.setEnc e n x).encCaches = c.encCaches := rfl
@[simp] theorem wit_setEnc (c : Core) (e n : Nat) (x : EncStream) : (c.setEnc e n x).wit = c.wit := rfl
@[simp] theorem cave_setEnc (c : Core) (e n : Nat) (x : EncStream) : (c.setEnc e n x).cave = c.cave := rfl
@[simp] theorem aud_setEnc (c : Core) (e n : Nat) (x : EncStream) : (c.setEnc e n x).aud = c.aud := rfl
@[simp] theorem tchs_setEnc (c : Core) (e n : Nat) (x : EncStream) : (c.setEnc e n x).tchs = c.tchs := rfl
@[simp] theorem hpts_setEnc (c : Core) (e n : Nat) (x : EncStream) : (c.setEnc e n x).hpts = c.hpts := rfl
@[simp] theorem hostIf_setEnc (c : Core) (e n : Nat) (x : EncStream) : (c.setEnc e n x).hostIf = c.hostIf := rfl
@[simp] theorem rgl_setEnc (c : Core) (e n : Nat) (x : EncStream) : (c.setEnc e n x).rgl = c.rgl := rfl
@[simp] theorem pwr_setEnc (c : Core) (e n : Nat) (x : EncStream) : (c.setEnc e n x).pwr = c.pwr := rfl
@[simp] theorem boot_setEnc (c : Core) (e n : Nat) (x : EncStream) : (c.setEnc e n x).boot = c.boot := rfl
@[simp] theorem leResets_setEnc (c : Core) (e n : Nat) (x : EncStream) : (c.setEnc e n x).leResets = c.leResets := rfl

/-! ### `setCave` -/

@[simp] theorem var_setCave (c : Core) (x : Cave) : (c.setCave x).var = c.var := rfl
@[simp] theorem now_setCave (c : Core) (x : Cave) : (c.setCave x).now = c.now := rfl
@[simp] theorem ptpOff_setCave (c : Core) (x : Cave) : (c.setCave x).ptpOff = c.ptpOff := rfl
@[simp] theorem regs_setCave (c : Core) (x : Cave) : (c.setCave x).regs = c.regs := rfl
@[simp] theorem owners_setCave (c : Core) (x : Cave) : (c.setCave x).owners = c.owners := rfl
@[simp] theorem mem_setCave (c : Core) (x : Cave) : (c.setCave x).mem = c.mem := rfl
@[simp] theorem posted_setCave (c : Core) (x : Cave) : (c.setCave x).posted = c.posted := rfl
@[simp] theorem flips_setCave (c : Core) (x : Cave) : (c.setCave x).flips = c.flips := rfl
@[simp] theorem poison_setCave (c : Core) (x : Cave) : (c.setCave x).poison = c.poison := rfl
@[simp] theorem resp_setCave (c : Core) (x : Cave) : (c.setCave x).resp = c.resp := rfl
@[simp] theorem free_setCave (c : Core) (x : Cave) : (c.setCave x).free = c.free := rfl
@[simp] theorem loLatch_setCave (c : Core) (x : Cave) : (c.setCave x).loLatch = c.loLatch := rfl
@[simp] theorem evr_setCave (c : Core) (x : Cave) : (c.setCave x).evr = c.evr := rfl
@[simp] theorem jnl_setCave (c : Core) (x : Cave) : (c.setCave x).jnl = c.jnl := rfl
@[simp] theorem tkg_setCave (c : Core) (x : Cave) : (c.setCave x).tkg = c.tkg := rfl
@[simp] theorem adm_setCave (c : Core) (x : Cave) : (c.setCave x).adm = c.adm := rfl
@[simp] theorem seqs_setCave (c : Core) (x : Cave) : (c.setCave x).seqs = c.seqs := rfl
@[simp] theorem seqTicks_setCave (c : Core) (x : Cave) : (c.setCave x).seqTicks = c.seqTicks := rfl
@[simp] theorem parts_setCave (c : Core) (x : Cave) : (c.setCave x).parts = c.parts := rfl
@[simp] theorem partRuns_setCave (c : Core) (x : Cave) : (c.setCave x).partRuns = c.partRuns := rfl
@[simp] theorem pot_setCave (c : Core) (x : Cave) : (c.setCave x).pot = c.pot := rfl
@[simp] theorem cycNum_setCave (c : Core) (x : Cave) : (c.setCave x).cycNum = c.cycNum := rfl
@[simp] theorem cycAt_setCave (c : Core) (x : Cave) : (c.setCave x).cycAt = c.cycAt := rfl
@[simp] theorem bootKeys_setCave (c : Core) (x : Cave) : (c.setCave x).bootKeys = c.bootKeys := rfl
@[simp] theorem dmc_setCave (c : Core) (x : Cave) : (c.setCave x).dmc = c.dmc := rfl
@[simp] theorem dmas_setCave (c : Core) (x : Cave) : (c.setCave x).dmas = c.dmas := rfl
@[simp] theorem crcs_setCave (c : Core) (x : Cave) : (c.setCave x).crcs = c.crcs := rfl
@[simp] theorem slots_setCave (c : Core) (x : Cave) : (c.setCave x).slots = c.slots := rfl
@[simp] theorem netCnt_setCave (c : Core) (x : Cave) : (c.setCave x).netCnt = c.netCnt := rfl
@[simp] theorem vctxs_setCave (c : Core) (x : Cave) : (c.setCave x).vctxs = c.vctxs := rfl
@[simp] theorem heads_setCave (c : Core) (x : Cave) : (c.setCave x).heads = c.heads := rfl
@[simp] theorem dpts_setCave (c : Core) (x : Cave) : (c.setCave x).dpts = c.dpts := rfl
@[simp] theorem trig_setCave (c : Core) (x : Cave) : (c.setCave x).trig = c.trig := rfl
@[simp] theorem pulses_setCave (c : Core) (x : Cave) : (c.setCave x).pulses = c.pulses := rfl
@[simp] theorem encs_setCave (c : Core) (x : Cave) : (c.setCave x).encs = c.encs := rfl
@[simp] theorem encCaches_setCave (c : Core) (x : Cave) : (c.setCave x).encCaches = c.encCaches := rfl
@[simp] theorem wit_setCave (c : Core) (x : Cave) : (c.setCave x).wit = c.wit := rfl
@[simp] theorem aud_setCave (c : Core) (x : Cave) : (c.setCave x).aud = c.aud := rfl
@[simp] theorem tchs_setCave (c : Core) (x : Cave) : (c.setCave x).tchs = c.tchs := rfl
@[simp] theorem hpts_setCave (c : Core) (x : Cave) : (c.setCave x).hpts = c.hpts := rfl
@[simp] theorem hostIf_setCave (c : Core) (x : Cave) : (c.setCave x).hostIf = c.hostIf := rfl
@[simp] theorem rgl_setCave (c : Core) (x : Cave) : (c.setCave x).rgl = c.rgl := rfl
@[simp] theorem pwr_setCave (c : Core) (x : Cave) : (c.setCave x).pwr = c.pwr := rfl
@[simp] theorem boot_setCave (c : Core) (x : Cave) : (c.setCave x).boot = c.boot := rfl
@[simp] theorem leResets_setCave (c : Core) (x : Cave) : (c.setCave x).leResets = c.leResets := rfl

/-! ### `setAud` -/

@[simp] theorem var_setAud (c : Core) (x : Aud) : (c.setAud x).var = c.var := rfl
@[simp] theorem now_setAud (c : Core) (x : Aud) : (c.setAud x).now = c.now := rfl
@[simp] theorem ptpOff_setAud (c : Core) (x : Aud) : (c.setAud x).ptpOff = c.ptpOff := rfl
@[simp] theorem regs_setAud (c : Core) (x : Aud) : (c.setAud x).regs = c.regs := rfl
@[simp] theorem owners_setAud (c : Core) (x : Aud) : (c.setAud x).owners = c.owners := rfl
@[simp] theorem mem_setAud (c : Core) (x : Aud) : (c.setAud x).mem = c.mem := rfl
@[simp] theorem posted_setAud (c : Core) (x : Aud) : (c.setAud x).posted = c.posted := rfl
@[simp] theorem flips_setAud (c : Core) (x : Aud) : (c.setAud x).flips = c.flips := rfl
@[simp] theorem poison_setAud (c : Core) (x : Aud) : (c.setAud x).poison = c.poison := rfl
@[simp] theorem resp_setAud (c : Core) (x : Aud) : (c.setAud x).resp = c.resp := rfl
@[simp] theorem free_setAud (c : Core) (x : Aud) : (c.setAud x).free = c.free := rfl
@[simp] theorem loLatch_setAud (c : Core) (x : Aud) : (c.setAud x).loLatch = c.loLatch := rfl
@[simp] theorem evr_setAud (c : Core) (x : Aud) : (c.setAud x).evr = c.evr := rfl
@[simp] theorem jnl_setAud (c : Core) (x : Aud) : (c.setAud x).jnl = c.jnl := rfl
@[simp] theorem tkg_setAud (c : Core) (x : Aud) : (c.setAud x).tkg = c.tkg := rfl
@[simp] theorem adm_setAud (c : Core) (x : Aud) : (c.setAud x).adm = c.adm := rfl
@[simp] theorem seqs_setAud (c : Core) (x : Aud) : (c.setAud x).seqs = c.seqs := rfl
@[simp] theorem seqTicks_setAud (c : Core) (x : Aud) : (c.setAud x).seqTicks = c.seqTicks := rfl
@[simp] theorem parts_setAud (c : Core) (x : Aud) : (c.setAud x).parts = c.parts := rfl
@[simp] theorem partRuns_setAud (c : Core) (x : Aud) : (c.setAud x).partRuns = c.partRuns := rfl
@[simp] theorem pot_setAud (c : Core) (x : Aud) : (c.setAud x).pot = c.pot := rfl
@[simp] theorem cycNum_setAud (c : Core) (x : Aud) : (c.setAud x).cycNum = c.cycNum := rfl
@[simp] theorem cycAt_setAud (c : Core) (x : Aud) : (c.setAud x).cycAt = c.cycAt := rfl
@[simp] theorem bootKeys_setAud (c : Core) (x : Aud) : (c.setAud x).bootKeys = c.bootKeys := rfl
@[simp] theorem dmc_setAud (c : Core) (x : Aud) : (c.setAud x).dmc = c.dmc := rfl
@[simp] theorem dmas_setAud (c : Core) (x : Aud) : (c.setAud x).dmas = c.dmas := rfl
@[simp] theorem crcs_setAud (c : Core) (x : Aud) : (c.setAud x).crcs = c.crcs := rfl
@[simp] theorem slots_setAud (c : Core) (x : Aud) : (c.setAud x).slots = c.slots := rfl
@[simp] theorem netCnt_setAud (c : Core) (x : Aud) : (c.setAud x).netCnt = c.netCnt := rfl
@[simp] theorem vctxs_setAud (c : Core) (x : Aud) : (c.setAud x).vctxs = c.vctxs := rfl
@[simp] theorem heads_setAud (c : Core) (x : Aud) : (c.setAud x).heads = c.heads := rfl
@[simp] theorem dpts_setAud (c : Core) (x : Aud) : (c.setAud x).dpts = c.dpts := rfl
@[simp] theorem trig_setAud (c : Core) (x : Aud) : (c.setAud x).trig = c.trig := rfl
@[simp] theorem pulses_setAud (c : Core) (x : Aud) : (c.setAud x).pulses = c.pulses := rfl
@[simp] theorem encs_setAud (c : Core) (x : Aud) : (c.setAud x).encs = c.encs := rfl
@[simp] theorem encCaches_setAud (c : Core) (x : Aud) : (c.setAud x).encCaches = c.encCaches := rfl
@[simp] theorem wit_setAud (c : Core) (x : Aud) : (c.setAud x).wit = c.wit := rfl
@[simp] theorem cave_setAud (c : Core) (x : Aud) : (c.setAud x).cave = c.cave := rfl
@[simp] theorem tchs_setAud (c : Core) (x : Aud) : (c.setAud x).tchs = c.tchs := rfl
@[simp] theorem hpts_setAud (c : Core) (x : Aud) : (c.setAud x).hpts = c.hpts := rfl
@[simp] theorem hostIf_setAud (c : Core) (x : Aud) : (c.setAud x).hostIf = c.hostIf := rfl
@[simp] theorem rgl_setAud (c : Core) (x : Aud) : (c.setAud x).rgl = c.rgl := rfl
@[simp] theorem pwr_setAud (c : Core) (x : Aud) : (c.setAud x).pwr = c.pwr := rfl
@[simp] theorem boot_setAud (c : Core) (x : Aud) : (c.setAud x).boot = c.boot := rfl
@[simp] theorem leResets_setAud (c : Core) (x : Aud) : (c.setAud x).leResets = c.leResets := rfl

/-! ### `setTch` -/

@[simp] theorem var_setTch (c : Core) (n : Nat) (x : Touch) : (c.setTch n x).var = c.var := rfl
@[simp] theorem now_setTch (c : Core) (n : Nat) (x : Touch) : (c.setTch n x).now = c.now := rfl
@[simp] theorem ptpOff_setTch (c : Core) (n : Nat) (x : Touch) : (c.setTch n x).ptpOff = c.ptpOff := rfl
@[simp] theorem regs_setTch (c : Core) (n : Nat) (x : Touch) : (c.setTch n x).regs = c.regs := rfl
@[simp] theorem owners_setTch (c : Core) (n : Nat) (x : Touch) : (c.setTch n x).owners = c.owners := rfl
@[simp] theorem mem_setTch (c : Core) (n : Nat) (x : Touch) : (c.setTch n x).mem = c.mem := rfl
@[simp] theorem posted_setTch (c : Core) (n : Nat) (x : Touch) : (c.setTch n x).posted = c.posted := rfl
@[simp] theorem flips_setTch (c : Core) (n : Nat) (x : Touch) : (c.setTch n x).flips = c.flips := rfl
@[simp] theorem poison_setTch (c : Core) (n : Nat) (x : Touch) : (c.setTch n x).poison = c.poison := rfl
@[simp] theorem resp_setTch (c : Core) (n : Nat) (x : Touch) : (c.setTch n x).resp = c.resp := rfl
@[simp] theorem free_setTch (c : Core) (n : Nat) (x : Touch) : (c.setTch n x).free = c.free := rfl
@[simp] theorem loLatch_setTch (c : Core) (n : Nat) (x : Touch) : (c.setTch n x).loLatch = c.loLatch := rfl
@[simp] theorem evr_setTch (c : Core) (n : Nat) (x : Touch) : (c.setTch n x).evr = c.evr := rfl
@[simp] theorem jnl_setTch (c : Core) (n : Nat) (x : Touch) : (c.setTch n x).jnl = c.jnl := rfl
@[simp] theorem tkg_setTch (c : Core) (n : Nat) (x : Touch) : (c.setTch n x).tkg = c.tkg := rfl
@[simp] theorem adm_setTch (c : Core) (n : Nat) (x : Touch) : (c.setTch n x).adm = c.adm := rfl
@[simp] theorem seqs_setTch (c : Core) (n : Nat) (x : Touch) : (c.setTch n x).seqs = c.seqs := rfl
@[simp] theorem seqTicks_setTch (c : Core) (n : Nat) (x : Touch) : (c.setTch n x).seqTicks = c.seqTicks := rfl
@[simp] theorem parts_setTch (c : Core) (n : Nat) (x : Touch) : (c.setTch n x).parts = c.parts := rfl
@[simp] theorem partRuns_setTch (c : Core) (n : Nat) (x : Touch) : (c.setTch n x).partRuns = c.partRuns := rfl
@[simp] theorem pot_setTch (c : Core) (n : Nat) (x : Touch) : (c.setTch n x).pot = c.pot := rfl
@[simp] theorem cycNum_setTch (c : Core) (n : Nat) (x : Touch) : (c.setTch n x).cycNum = c.cycNum := rfl
@[simp] theorem cycAt_setTch (c : Core) (n : Nat) (x : Touch) : (c.setTch n x).cycAt = c.cycAt := rfl
@[simp] theorem bootKeys_setTch (c : Core) (n : Nat) (x : Touch) : (c.setTch n x).bootKeys = c.bootKeys := rfl
@[simp] theorem dmc_setTch (c : Core) (n : Nat) (x : Touch) : (c.setTch n x).dmc = c.dmc := rfl
@[simp] theorem dmas_setTch (c : Core) (n : Nat) (x : Touch) : (c.setTch n x).dmas = c.dmas := rfl
@[simp] theorem crcs_setTch (c : Core) (n : Nat) (x : Touch) : (c.setTch n x).crcs = c.crcs := rfl
@[simp] theorem slots_setTch (c : Core) (n : Nat) (x : Touch) : (c.setTch n x).slots = c.slots := rfl
@[simp] theorem netCnt_setTch (c : Core) (n : Nat) (x : Touch) : (c.setTch n x).netCnt = c.netCnt := rfl
@[simp] theorem vctxs_setTch (c : Core) (n : Nat) (x : Touch) : (c.setTch n x).vctxs = c.vctxs := rfl
@[simp] theorem heads_setTch (c : Core) (n : Nat) (x : Touch) : (c.setTch n x).heads = c.heads := rfl
@[simp] theorem dpts_setTch (c : Core) (n : Nat) (x : Touch) : (c.setTch n x).dpts = c.dpts := rfl
@[simp] theorem trig_setTch (c : Core) (n : Nat) (x : Touch) : (c.setTch n x).trig = c.trig := rfl
@[simp] theorem pulses_setTch (c : Core) (n : Nat) (x : Touch) : (c.setTch n x).pulses = c.pulses := rfl
@[simp] theorem encs_setTch (c : Core) (n : Nat) (x : Touch) : (c.setTch n x).encs = c.encs := rfl
@[simp] theorem encCaches_setTch (c : Core) (n : Nat) (x : Touch) : (c.setTch n x).encCaches = c.encCaches := rfl
@[simp] theorem wit_setTch (c : Core) (n : Nat) (x : Touch) : (c.setTch n x).wit = c.wit := rfl
@[simp] theorem cave_setTch (c : Core) (n : Nat) (x : Touch) : (c.setTch n x).cave = c.cave := rfl
@[simp] theorem aud_setTch (c : Core) (n : Nat) (x : Touch) : (c.setTch n x).aud = c.aud := rfl
@[simp] theorem hpts_setTch (c : Core) (n : Nat) (x : Touch) : (c.setTch n x).hpts = c.hpts := rfl
@[simp] theorem hostIf_setTch (c : Core) (n : Nat) (x : Touch) : (c.setTch n x).hostIf = c.hostIf := rfl
@[simp] theorem rgl_setTch (c : Core) (n : Nat) (x : Touch) : (c.setTch n x).rgl = c.rgl := rfl
@[simp] theorem pwr_setTch (c : Core) (n : Nat) (x : Touch) : (c.setTch n x).pwr = c.pwr := rfl
@[simp] theorem boot_setTch (c : Core) (n : Nat) (x : Touch) : (c.setTch n x).boot = c.boot := rfl
@[simp] theorem leResets_setTch (c : Core) (n : Nat) (x : Touch) : (c.setTch n x).leResets = c.leResets := rfl

/-! ### `setHpt` -/

@[simp] theorem var_setHpt (c : Core) (n : Nat) (x : Hpt) : (c.setHpt n x).var = c.var := rfl
@[simp] theorem now_setHpt (c : Core) (n : Nat) (x : Hpt) : (c.setHpt n x).now = c.now := rfl
@[simp] theorem ptpOff_setHpt (c : Core) (n : Nat) (x : Hpt) : (c.setHpt n x).ptpOff = c.ptpOff := rfl
@[simp] theorem regs_setHpt (c : Core) (n : Nat) (x : Hpt) : (c.setHpt n x).regs = c.regs := rfl
@[simp] theorem owners_setHpt (c : Core) (n : Nat) (x : Hpt) : (c.setHpt n x).owners = c.owners := rfl
@[simp] theorem mem_setHpt (c : Core) (n : Nat) (x : Hpt) : (c.setHpt n x).mem = c.mem := rfl
@[simp] theorem posted_setHpt (c : Core) (n : Nat) (x : Hpt) : (c.setHpt n x).posted = c.posted := rfl
@[simp] theorem flips_setHpt (c : Core) (n : Nat) (x : Hpt) : (c.setHpt n x).flips = c.flips := rfl
@[simp] theorem poison_setHpt (c : Core) (n : Nat) (x : Hpt) : (c.setHpt n x).poison = c.poison := rfl
@[simp] theorem resp_setHpt (c : Core) (n : Nat) (x : Hpt) : (c.setHpt n x).resp = c.resp := rfl
@[simp] theorem free_setHpt (c : Core) (n : Nat) (x : Hpt) : (c.setHpt n x).free = c.free := rfl
@[simp] theorem loLatch_setHpt (c : Core) (n : Nat) (x : Hpt) : (c.setHpt n x).loLatch = c.loLatch := rfl
@[simp] theorem evr_setHpt (c : Core) (n : Nat) (x : Hpt) : (c.setHpt n x).evr = c.evr := rfl
@[simp] theorem jnl_setHpt (c : Core) (n : Nat) (x : Hpt) : (c.setHpt n x).jnl = c.jnl := rfl
@[simp] theorem tkg_setHpt (c : Core) (n : Nat) (x : Hpt) : (c.setHpt n x).tkg = c.tkg := rfl
@[simp] theorem adm_setHpt (c : Core) (n : Nat) (x : Hpt) : (c.setHpt n x).adm = c.adm := rfl
@[simp] theorem seqs_setHpt (c : Core) (n : Nat) (x : Hpt) : (c.setHpt n x).seqs = c.seqs := rfl
@[simp] theorem seqTicks_setHpt (c : Core) (n : Nat) (x : Hpt) : (c.setHpt n x).seqTicks = c.seqTicks := rfl
@[simp] theorem parts_setHpt (c : Core) (n : Nat) (x : Hpt) : (c.setHpt n x).parts = c.parts := rfl
@[simp] theorem partRuns_setHpt (c : Core) (n : Nat) (x : Hpt) : (c.setHpt n x).partRuns = c.partRuns := rfl
@[simp] theorem pot_setHpt (c : Core) (n : Nat) (x : Hpt) : (c.setHpt n x).pot = c.pot := rfl
@[simp] theorem cycNum_setHpt (c : Core) (n : Nat) (x : Hpt) : (c.setHpt n x).cycNum = c.cycNum := rfl
@[simp] theorem cycAt_setHpt (c : Core) (n : Nat) (x : Hpt) : (c.setHpt n x).cycAt = c.cycAt := rfl
@[simp] theorem bootKeys_setHpt (c : Core) (n : Nat) (x : Hpt) : (c.setHpt n x).bootKeys = c.bootKeys := rfl
@[simp] theorem dmc_setHpt (c : Core) (n : Nat) (x : Hpt) : (c.setHpt n x).dmc = c.dmc := rfl
@[simp] theorem dmas_setHpt (c : Core) (n : Nat) (x : Hpt) : (c.setHpt n x).dmas = c.dmas := rfl
@[simp] theorem crcs_setHpt (c : Core) (n : Nat) (x : Hpt) : (c.setHpt n x).crcs = c.crcs := rfl
@[simp] theorem slots_setHpt (c : Core) (n : Nat) (x : Hpt) : (c.setHpt n x).slots = c.slots := rfl
@[simp] theorem netCnt_setHpt (c : Core) (n : Nat) (x : Hpt) : (c.setHpt n x).netCnt = c.netCnt := rfl
@[simp] theorem vctxs_setHpt (c : Core) (n : Nat) (x : Hpt) : (c.setHpt n x).vctxs = c.vctxs := rfl
@[simp] theorem heads_setHpt (c : Core) (n : Nat) (x : Hpt) : (c.setHpt n x).heads = c.heads := rfl
@[simp] theorem dpts_setHpt (c : Core) (n : Nat) (x : Hpt) : (c.setHpt n x).dpts = c.dpts := rfl
@[simp] theorem trig_setHpt (c : Core) (n : Nat) (x : Hpt) : (c.setHpt n x).trig = c.trig := rfl
@[simp] theorem pulses_setHpt (c : Core) (n : Nat) (x : Hpt) : (c.setHpt n x).pulses = c.pulses := rfl
@[simp] theorem encs_setHpt (c : Core) (n : Nat) (x : Hpt) : (c.setHpt n x).encs = c.encs := rfl
@[simp] theorem encCaches_setHpt (c : Core) (n : Nat) (x : Hpt) : (c.setHpt n x).encCaches = c.encCaches := rfl
@[simp] theorem wit_setHpt (c : Core) (n : Nat) (x : Hpt) : (c.setHpt n x).wit = c.wit := rfl
@[simp] theorem cave_setHpt (c : Core) (n : Nat) (x : Hpt) : (c.setHpt n x).cave = c.cave := rfl
@[simp] theorem aud_setHpt (c : Core) (n : Nat) (x : Hpt) : (c.setHpt n x).aud = c.aud := rfl
@[simp] theorem tchs_setHpt (c : Core) (n : Nat) (x : Hpt) : (c.setHpt n x).tchs = c.tchs := rfl
@[simp] theorem hostIf_setHpt (c : Core) (n : Nat) (x : Hpt) : (c.setHpt n x).hostIf = c.hostIf := rfl
@[simp] theorem rgl_setHpt (c : Core) (n : Nat) (x : Hpt) : (c.setHpt n x).rgl = c.rgl := rfl
@[simp] theorem pwr_setHpt (c : Core) (n : Nat) (x : Hpt) : (c.setHpt n x).pwr = c.pwr := rfl
@[simp] theorem boot_setHpt (c : Core) (n : Nat) (x : Hpt) : (c.setHpt n x).boot = c.boot := rfl
@[simp] theorem leResets_setHpt (c : Core) (n : Nat) (x : Hpt) : (c.setHpt n x).leResets = c.leResets := rfl

/-! ### `setRgl` -/

@[simp] theorem var_setRgl (c : Core) (x : Rgl) : (c.setRgl x).var = c.var := rfl
@[simp] theorem now_setRgl (c : Core) (x : Rgl) : (c.setRgl x).now = c.now := rfl
@[simp] theorem ptpOff_setRgl (c : Core) (x : Rgl) : (c.setRgl x).ptpOff = c.ptpOff := rfl
@[simp] theorem regs_setRgl (c : Core) (x : Rgl) : (c.setRgl x).regs = c.regs := rfl
@[simp] theorem owners_setRgl (c : Core) (x : Rgl) : (c.setRgl x).owners = c.owners := rfl
@[simp] theorem mem_setRgl (c : Core) (x : Rgl) : (c.setRgl x).mem = c.mem := rfl
@[simp] theorem posted_setRgl (c : Core) (x : Rgl) : (c.setRgl x).posted = c.posted := rfl
@[simp] theorem flips_setRgl (c : Core) (x : Rgl) : (c.setRgl x).flips = c.flips := rfl
@[simp] theorem poison_setRgl (c : Core) (x : Rgl) : (c.setRgl x).poison = c.poison := rfl
@[simp] theorem resp_setRgl (c : Core) (x : Rgl) : (c.setRgl x).resp = c.resp := rfl
@[simp] theorem free_setRgl (c : Core) (x : Rgl) : (c.setRgl x).free = c.free := rfl
@[simp] theorem loLatch_setRgl (c : Core) (x : Rgl) : (c.setRgl x).loLatch = c.loLatch := rfl
@[simp] theorem evr_setRgl (c : Core) (x : Rgl) : (c.setRgl x).evr = c.evr := rfl
@[simp] theorem jnl_setRgl (c : Core) (x : Rgl) : (c.setRgl x).jnl = c.jnl := rfl
@[simp] theorem tkg_setRgl (c : Core) (x : Rgl) : (c.setRgl x).tkg = c.tkg := rfl
@[simp] theorem adm_setRgl (c : Core) (x : Rgl) : (c.setRgl x).adm = c.adm := rfl
@[simp] theorem seqs_setRgl (c : Core) (x : Rgl) : (c.setRgl x).seqs = c.seqs := rfl
@[simp] theorem seqTicks_setRgl (c : Core) (x : Rgl) : (c.setRgl x).seqTicks = c.seqTicks := rfl
@[simp] theorem parts_setRgl (c : Core) (x : Rgl) : (c.setRgl x).parts = c.parts := rfl
@[simp] theorem partRuns_setRgl (c : Core) (x : Rgl) : (c.setRgl x).partRuns = c.partRuns := rfl
@[simp] theorem pot_setRgl (c : Core) (x : Rgl) : (c.setRgl x).pot = c.pot := rfl
@[simp] theorem cycNum_setRgl (c : Core) (x : Rgl) : (c.setRgl x).cycNum = c.cycNum := rfl
@[simp] theorem cycAt_setRgl (c : Core) (x : Rgl) : (c.setRgl x).cycAt = c.cycAt := rfl
@[simp] theorem bootKeys_setRgl (c : Core) (x : Rgl) : (c.setRgl x).bootKeys = c.bootKeys := rfl
@[simp] theorem dmc_setRgl (c : Core) (x : Rgl) : (c.setRgl x).dmc = c.dmc := rfl
@[simp] theorem dmas_setRgl (c : Core) (x : Rgl) : (c.setRgl x).dmas = c.dmas := rfl
@[simp] theorem crcs_setRgl (c : Core) (x : Rgl) : (c.setRgl x).crcs = c.crcs := rfl
@[simp] theorem slots_setRgl (c : Core) (x : Rgl) : (c.setRgl x).slots = c.slots := rfl
@[simp] theorem netCnt_setRgl (c : Core) (x : Rgl) : (c.setRgl x).netCnt = c.netCnt := rfl
@[simp] theorem vctxs_setRgl (c : Core) (x : Rgl) : (c.setRgl x).vctxs = c.vctxs := rfl
@[simp] theorem heads_setRgl (c : Core) (x : Rgl) : (c.setRgl x).heads = c.heads := rfl
@[simp] theorem dpts_setRgl (c : Core) (x : Rgl) : (c.setRgl x).dpts = c.dpts := rfl
@[simp] theorem trig_setRgl (c : Core) (x : Rgl) : (c.setRgl x).trig = c.trig := rfl
@[simp] theorem pulses_setRgl (c : Core) (x : Rgl) : (c.setRgl x).pulses = c.pulses := rfl
@[simp] theorem encs_setRgl (c : Core) (x : Rgl) : (c.setRgl x).encs = c.encs := rfl
@[simp] theorem encCaches_setRgl (c : Core) (x : Rgl) : (c.setRgl x).encCaches = c.encCaches := rfl
@[simp] theorem wit_setRgl (c : Core) (x : Rgl) : (c.setRgl x).wit = c.wit := rfl
@[simp] theorem cave_setRgl (c : Core) (x : Rgl) : (c.setRgl x).cave = c.cave := rfl
@[simp] theorem aud_setRgl (c : Core) (x : Rgl) : (c.setRgl x).aud = c.aud := rfl
@[simp] theorem tchs_setRgl (c : Core) (x : Rgl) : (c.setRgl x).tchs = c.tchs := rfl
@[simp] theorem hpts_setRgl (c : Core) (x : Rgl) : (c.setRgl x).hpts = c.hpts := rfl
@[simp] theorem hostIf_setRgl (c : Core) (x : Rgl) : (c.setRgl x).hostIf = c.hostIf := rfl
@[simp] theorem pwr_setRgl (c : Core) (x : Rgl) : (c.setRgl x).pwr = c.pwr := rfl
@[simp] theorem boot_setRgl (c : Core) (x : Rgl) : (c.setRgl x).boot = c.boot := rfl
@[simp] theorem leResets_setRgl (c : Core) (x : Rgl) : (c.setRgl x).leResets = c.leResets := rfl

/-! ### `setPwr` -/

@[simp] theorem var_setPwr (c : Core) (x : Pwr) : (c.setPwr x).var = c.var := rfl
@[simp] theorem now_setPwr (c : Core) (x : Pwr) : (c.setPwr x).now = c.now := rfl
@[simp] theorem ptpOff_setPwr (c : Core) (x : Pwr) : (c.setPwr x).ptpOff = c.ptpOff := rfl
@[simp] theorem regs_setPwr (c : Core) (x : Pwr) : (c.setPwr x).regs = c.regs := rfl
@[simp] theorem owners_setPwr (c : Core) (x : Pwr) : (c.setPwr x).owners = c.owners := rfl
@[simp] theorem mem_setPwr (c : Core) (x : Pwr) : (c.setPwr x).mem = c.mem := rfl
@[simp] theorem posted_setPwr (c : Core) (x : Pwr) : (c.setPwr x).posted = c.posted := rfl
@[simp] theorem flips_setPwr (c : Core) (x : Pwr) : (c.setPwr x).flips = c.flips := rfl
@[simp] theorem poison_setPwr (c : Core) (x : Pwr) : (c.setPwr x).poison = c.poison := rfl
@[simp] theorem resp_setPwr (c : Core) (x : Pwr) : (c.setPwr x).resp = c.resp := rfl
@[simp] theorem free_setPwr (c : Core) (x : Pwr) : (c.setPwr x).free = c.free := rfl
@[simp] theorem loLatch_setPwr (c : Core) (x : Pwr) : (c.setPwr x).loLatch = c.loLatch := rfl
@[simp] theorem evr_setPwr (c : Core) (x : Pwr) : (c.setPwr x).evr = c.evr := rfl
@[simp] theorem jnl_setPwr (c : Core) (x : Pwr) : (c.setPwr x).jnl = c.jnl := rfl
@[simp] theorem tkg_setPwr (c : Core) (x : Pwr) : (c.setPwr x).tkg = c.tkg := rfl
@[simp] theorem adm_setPwr (c : Core) (x : Pwr) : (c.setPwr x).adm = c.adm := rfl
@[simp] theorem seqs_setPwr (c : Core) (x : Pwr) : (c.setPwr x).seqs = c.seqs := rfl
@[simp] theorem seqTicks_setPwr (c : Core) (x : Pwr) : (c.setPwr x).seqTicks = c.seqTicks := rfl
@[simp] theorem parts_setPwr (c : Core) (x : Pwr) : (c.setPwr x).parts = c.parts := rfl
@[simp] theorem partRuns_setPwr (c : Core) (x : Pwr) : (c.setPwr x).partRuns = c.partRuns := rfl
@[simp] theorem pot_setPwr (c : Core) (x : Pwr) : (c.setPwr x).pot = c.pot := rfl
@[simp] theorem cycNum_setPwr (c : Core) (x : Pwr) : (c.setPwr x).cycNum = c.cycNum := rfl
@[simp] theorem cycAt_setPwr (c : Core) (x : Pwr) : (c.setPwr x).cycAt = c.cycAt := rfl
@[simp] theorem bootKeys_setPwr (c : Core) (x : Pwr) : (c.setPwr x).bootKeys = c.bootKeys := rfl
@[simp] theorem dmc_setPwr (c : Core) (x : Pwr) : (c.setPwr x).dmc = c.dmc := rfl
@[simp] theorem dmas_setPwr (c : Core) (x : Pwr) : (c.setPwr x).dmas = c.dmas := rfl
@[simp] theorem crcs_setPwr (c : Core) (x : Pwr) : (c.setPwr x).crcs = c.crcs := rfl
@[simp] theorem slots_setPwr (c : Core) (x : Pwr) : (c.setPwr x).slots = c.slots := rfl
@[simp] theorem netCnt_setPwr (c : Core) (x : Pwr) : (c.setPwr x).netCnt = c.netCnt := rfl
@[simp] theorem vctxs_setPwr (c : Core) (x : Pwr) : (c.setPwr x).vctxs = c.vctxs := rfl
@[simp] theorem heads_setPwr (c : Core) (x : Pwr) : (c.setPwr x).heads = c.heads := rfl
@[simp] theorem dpts_setPwr (c : Core) (x : Pwr) : (c.setPwr x).dpts = c.dpts := rfl
@[simp] theorem trig_setPwr (c : Core) (x : Pwr) : (c.setPwr x).trig = c.trig := rfl
@[simp] theorem pulses_setPwr (c : Core) (x : Pwr) : (c.setPwr x).pulses = c.pulses := rfl
@[simp] theorem encs_setPwr (c : Core) (x : Pwr) : (c.setPwr x).encs = c.encs := rfl
@[simp] theorem encCaches_setPwr (c : Core) (x : Pwr) : (c.setPwr x).encCaches = c.encCaches := rfl
@[simp] theorem wit_setPwr (c : Core) (x : Pwr) : (c.setPwr x).wit = c.wit := rfl
@[simp] theorem cave_setPwr (c : Core) (x : Pwr) : (c.setPwr x).cave = c.cave := rfl
@[simp] theorem aud_setPwr (c : Core) (x : Pwr) : (c.setPwr x).aud = c.aud := rfl
@[simp] theorem tchs_setPwr (c : Core) (x : Pwr) : (c.setPwr x).tchs = c.tchs := rfl
@[simp] theorem hpts_setPwr (c : Core) (x : Pwr) : (c.setPwr x).hpts = c.hpts := rfl
@[simp] theorem hostIf_setPwr (c : Core) (x : Pwr) : (c.setPwr x).hostIf = c.hostIf := rfl
@[simp] theorem rgl_setPwr (c : Core) (x : Pwr) : (c.setPwr x).rgl = c.rgl := rfl
@[simp] theorem boot_setPwr (c : Core) (x : Pwr) : (c.setPwr x).boot = c.boot := rfl
@[simp] theorem leResets_setPwr (c : Core) (x : Pwr) : (c.setPwr x).leResets = c.leResets := rfl

/-! ### `setPartRun` -/

@[simp] theorem var_setPartRun (c : Core) (n : Nat) (x : PartRun) : (c.setPartRun n x).var = c.var := rfl
@[simp] theorem now_setPartRun (c : Core) (n : Nat) (x : PartRun) : (c.setPartRun n x).now = c.now := rfl
@[simp] theorem ptpOff_setPartRun (c : Core) (n : Nat) (x : PartRun) : (c.setPartRun n x).ptpOff = c.ptpOff := rfl
@[simp] theorem regs_setPartRun (c : Core) (n : Nat) (x : PartRun) : (c.setPartRun n x).regs = c.regs := rfl
@[simp] theorem owners_setPartRun (c : Core) (n : Nat) (x : PartRun) : (c.setPartRun n x).owners = c.owners := rfl
@[simp] theorem mem_setPartRun (c : Core) (n : Nat) (x : PartRun) : (c.setPartRun n x).mem = c.mem := rfl
@[simp] theorem posted_setPartRun (c : Core) (n : Nat) (x : PartRun) : (c.setPartRun n x).posted = c.posted := rfl
@[simp] theorem flips_setPartRun (c : Core) (n : Nat) (x : PartRun) : (c.setPartRun n x).flips = c.flips := rfl
@[simp] theorem poison_setPartRun (c : Core) (n : Nat) (x : PartRun) : (c.setPartRun n x).poison = c.poison := rfl
@[simp] theorem resp_setPartRun (c : Core) (n : Nat) (x : PartRun) : (c.setPartRun n x).resp = c.resp := rfl
@[simp] theorem free_setPartRun (c : Core) (n : Nat) (x : PartRun) : (c.setPartRun n x).free = c.free := rfl
@[simp] theorem loLatch_setPartRun (c : Core) (n : Nat) (x : PartRun) : (c.setPartRun n x).loLatch = c.loLatch := rfl
@[simp] theorem evr_setPartRun (c : Core) (n : Nat) (x : PartRun) : (c.setPartRun n x).evr = c.evr := rfl
@[simp] theorem jnl_setPartRun (c : Core) (n : Nat) (x : PartRun) : (c.setPartRun n x).jnl = c.jnl := rfl
@[simp] theorem tkg_setPartRun (c : Core) (n : Nat) (x : PartRun) : (c.setPartRun n x).tkg = c.tkg := rfl
@[simp] theorem adm_setPartRun (c : Core) (n : Nat) (x : PartRun) : (c.setPartRun n x).adm = c.adm := rfl
@[simp] theorem seqs_setPartRun (c : Core) (n : Nat) (x : PartRun) : (c.setPartRun n x).seqs = c.seqs := rfl
@[simp] theorem seqTicks_setPartRun (c : Core) (n : Nat) (x : PartRun) : (c.setPartRun n x).seqTicks = c.seqTicks := rfl
@[simp] theorem parts_setPartRun (c : Core) (n : Nat) (x : PartRun) : (c.setPartRun n x).parts = c.parts := rfl
@[simp] theorem pot_setPartRun (c : Core) (n : Nat) (x : PartRun) : (c.setPartRun n x).pot = c.pot := rfl
@[simp] theorem cycNum_setPartRun (c : Core) (n : Nat) (x : PartRun) : (c.setPartRun n x).cycNum = c.cycNum := rfl
@[simp] theorem cycAt_setPartRun (c : Core) (n : Nat) (x : PartRun) : (c.setPartRun n x).cycAt = c.cycAt := rfl
@[simp] theorem bootKeys_setPartRun (c : Core) (n : Nat) (x : PartRun) : (c.setPartRun n x).bootKeys = c.bootKeys := rfl
@[simp] theorem dmc_setPartRun (c : Core) (n : Nat) (x : PartRun) : (c.setPartRun n x).dmc = c.dmc := rfl
@[simp] theorem dmas_setPartRun (c : Core) (n : Nat) (x : PartRun) : (c.setPartRun n x).dmas = c.dmas := rfl
@[simp] theorem crcs_setPartRun (c : Core) (n : Nat) (x : PartRun) : (c.setPartRun n x).crcs = c.crcs := rfl
@[simp] theorem slots_setPartRun (c : Core) (n : Nat) (x : PartRun) : (c.setPartRun n x).slots = c.slots := rfl
@[simp] theorem netCnt_setPartRun (c : Core) (n : Nat) (x : PartRun) : (c.setPartRun n x).netCnt = c.netCnt := rfl
@[simp] theorem vctxs_setPartRun (c : Core) (n : Nat) (x : PartRun) : (c.setPartRun n x).vctxs = c.vctxs := rfl
@[simp] theorem heads_setPartRun (c : Core) (n : Nat) (x : PartRun) : (c.setPartRun n x).heads = c.heads := rfl
@[simp] theorem dpts_setPartRun (c : Core) (n : Nat) (x : PartRun) : (c.setPartRun n x).dpts = c.dpts := rfl
@[simp] theorem trig_setPartRun (c : Core) (n : Nat) (x : PartRun) : (c.setPartRun n x).trig = c.trig := rfl
@[simp] theorem pulses_setPartRun (c : Core) (n : Nat) (x : PartRun) : (c.setPartRun n x).pulses = c.pulses := rfl
@[simp] theorem encs_setPartRun (c : Core) (n : Nat) (x : PartRun) : (c.setPartRun n x).encs = c.encs := rfl
@[simp] theorem encCaches_setPartRun (c : Core) (n : Nat) (x : PartRun) : (c.setPartRun n x).encCaches = c.encCaches := rfl
@[simp] theorem wit_setPartRun (c : Core) (n : Nat) (x : PartRun) : (c.setPartRun n x).wit = c.wit := rfl
@[simp] theorem cave_setPartRun (c : Core) (n : Nat) (x : PartRun) : (c.setPartRun n x).cave = c.cave := rfl
@[simp] theorem aud_setPartRun (c : Core) (n : Nat) (x : PartRun) : (c.setPartRun n x).aud = c.aud := rfl
@[simp] theorem tchs_setPartRun (c : Core) (n : Nat) (x : PartRun) : (c.setPartRun n x).tchs = c.tchs := rfl
@[simp] theorem hpts_setPartRun (c : Core) (n : Nat) (x : PartRun) : (c.setPartRun n x).hpts = c.hpts := rfl
@[simp] theorem hostIf_setPartRun (c : Core) (n : Nat) (x : PartRun) : (c.setPartRun n x).hostIf = c.hostIf := rfl
@[simp] theorem rgl_setPartRun (c : Core) (n : Nat) (x : PartRun) : (c.setPartRun n x).rgl = c.rgl := rfl
@[simp] theorem pwr_setPartRun (c : Core) (n : Nat) (x : PartRun) : (c.setPartRun n x).pwr = c.pwr := rfl
@[simp] theorem boot_setPartRun (c : Core) (n : Nat) (x : PartRun) : (c.setPartRun n x).boot = c.boot := rfl
@[simp] theorem leResets_setPartRun (c : Core) (n : Nat) (x : PartRun) : (c.setPartRun n x).leResets = c.leResets := rfl

/-! ### `setHq` -/

@[simp] theorem var_setHq (c : Core) (f q : Nat) (x : HQueue) : (c.setHq f q x).var = c.var := rfl
@[simp] theorem now_setHq (c : Core) (f q : Nat) (x : HQueue) : (c.setHq f q x).now = c.now := rfl
@[simp] theorem ptpOff_setHq (c : Core) (f q : Nat) (x : HQueue) : (c.setHq f q x).ptpOff = c.ptpOff := rfl
@[simp] theorem regs_setHq (c : Core) (f q : Nat) (x : HQueue) : (c.setHq f q x).regs = c.regs := rfl
@[simp] theorem owners_setHq (c : Core) (f q : Nat) (x : HQueue) : (c.setHq f q x).owners = c.owners := rfl
@[simp] theorem mem_setHq (c : Core) (f q : Nat) (x : HQueue) : (c.setHq f q x).mem = c.mem := rfl
@[simp] theorem posted_setHq (c : Core) (f q : Nat) (x : HQueue) : (c.setHq f q x).posted = c.posted := rfl
@[simp] theorem flips_setHq (c : Core) (f q : Nat) (x : HQueue) : (c.setHq f q x).flips = c.flips := rfl
@[simp] theorem poison_setHq (c : Core) (f q : Nat) (x : HQueue) : (c.setHq f q x).poison = c.poison := rfl
@[simp] theorem resp_setHq (c : Core) (f q : Nat) (x : HQueue) : (c.setHq f q x).resp = c.resp := rfl
@[simp] theorem free_setHq (c : Core) (f q : Nat) (x : HQueue) : (c.setHq f q x).free = c.free := rfl
@[simp] theorem loLatch_setHq (c : Core) (f q : Nat) (x : HQueue) : (c.setHq f q x).loLatch = c.loLatch := rfl
@[simp] theorem evr_setHq (c : Core) (f q : Nat) (x : HQueue) : (c.setHq f q x).evr = c.evr := rfl
@[simp] theorem jnl_setHq (c : Core) (f q : Nat) (x : HQueue) : (c.setHq f q x).jnl = c.jnl := rfl
@[simp] theorem tkg_setHq (c : Core) (f q : Nat) (x : HQueue) : (c.setHq f q x).tkg = c.tkg := rfl
@[simp] theorem adm_setHq (c : Core) (f q : Nat) (x : HQueue) : (c.setHq f q x).adm = c.adm := rfl
@[simp] theorem seqs_setHq (c : Core) (f q : Nat) (x : HQueue) : (c.setHq f q x).seqs = c.seqs := rfl
@[simp] theorem seqTicks_setHq (c : Core) (f q : Nat) (x : HQueue) : (c.setHq f q x).seqTicks = c.seqTicks := rfl
@[simp] theorem parts_setHq (c : Core) (f q : Nat) (x : HQueue) : (c.setHq f q x).parts = c.parts := rfl
@[simp] theorem partRuns_setHq (c : Core) (f q : Nat) (x : HQueue) : (c.setHq f q x).partRuns = c.partRuns := rfl
@[simp] theorem pot_setHq (c : Core) (f q : Nat) (x : HQueue) : (c.setHq f q x).pot = c.pot := rfl
@[simp] theorem cycNum_setHq (c : Core) (f q : Nat) (x : HQueue) : (c.setHq f q x).cycNum = c.cycNum := rfl
@[simp] theorem cycAt_setHq (c : Core) (f q : Nat) (x : HQueue) : (c.setHq f q x).cycAt = c.cycAt := rfl
@[simp] theorem bootKeys_setHq (c : Core) (f q : Nat) (x : HQueue) : (c.setHq f q x).bootKeys = c.bootKeys := rfl
@[simp] theorem dmc_setHq (c : Core) (f q : Nat) (x : HQueue) : (c.setHq f q x).dmc = c.dmc := rfl
@[simp] theorem dmas_setHq (c : Core) (f q : Nat) (x : HQueue) : (c.setHq f q x).dmas = c.dmas := rfl
@[simp] theorem crcs_setHq (c : Core) (f q : Nat) (x : HQueue) : (c.setHq f q x).crcs = c.crcs := rfl
@[simp] theorem slots_setHq (c : Core) (f q : Nat) (x : HQueue) : (c.setHq f q x).slots = c.slots := rfl
@[simp] theorem netCnt_setHq (c : Core) (f q : Nat) (x : HQueue) : (c.setHq f q x).netCnt = c.netCnt := rfl
@[simp] theorem vctxs_setHq (c : Core) (f q : Nat) (x : HQueue) : (c.setHq f q x).vctxs = c.vctxs := rfl
@[simp] theorem heads_setHq (c : Core) (f q : Nat) (x : HQueue) : (c.setHq f q x).heads = c.heads := rfl
@[simp] theorem dpts_setHq (c : Core) (f q : Nat) (x : HQueue) : (c.setHq f q x).dpts = c.dpts := rfl
@[simp] theorem trig_setHq (c : Core) (f q : Nat) (x : HQueue) : (c.setHq f q x).trig = c.trig := rfl
@[simp] theorem pulses_setHq (c : Core) (f q : Nat) (x : HQueue) : (c.setHq f q x).pulses = c.pulses := rfl
@[simp] theorem encs_setHq (c : Core) (f q : Nat) (x : HQueue) : (c.setHq f q x).encs = c.encs := rfl
@[simp] theorem encCaches_setHq (c : Core) (f q : Nat) (x : HQueue) : (c.setHq f q x).encCaches = c.encCaches := rfl
@[simp] theorem wit_setHq (c : Core) (f q : Nat) (x : HQueue) : (c.setHq f q x).wit = c.wit := rfl
@[simp] theorem cave_setHq (c : Core) (f q : Nat) (x : HQueue) : (c.setHq f q x).cave = c.cave := rfl
@[simp] theorem aud_setHq (c : Core) (f q : Nat) (x : HQueue) : (c.setHq f q x).aud = c.aud := rfl
@[simp] theorem tchs_setHq (c : Core) (f q : Nat) (x : HQueue) : (c.setHq f q x).tchs = c.tchs := rfl
@[simp] theorem hpts_setHq (c : Core) (f q : Nat) (x : HQueue) : (c.setHq f q x).hpts = c.hpts := rfl
@[simp] theorem rgl_setHq (c : Core) (f q : Nat) (x : HQueue) : (c.setHq f q x).rgl = c.rgl := rfl
@[simp] theorem pwr_setHq (c : Core) (f q : Nat) (x : HQueue) : (c.setHq f q x).pwr = c.pwr := rfl
@[simp] theorem boot_setHq (c : Core) (f q : Nat) (x : HQueue) : (c.setHq f q x).boot = c.boot := rfl
@[simp] theorem leResets_setHq (c : Core) (f q : Nat) (x : HQueue) : (c.setHq f q x).leResets = c.leResets := rfl

/-! ### `setHeld` -/

@[simp] theorem var_setHeld (c : Core) (x : KMap (Option HeldWord)) : (c.setHeld x).var = c.var := rfl
@[simp] theorem now_setHeld (c : Core) (x : KMap (Option HeldWord)) : (c.setHeld x).now = c.now := rfl
@[simp] theorem ptpOff_setHeld (c : Core) (x : KMap (Option HeldWord)) : (c.setHeld x).ptpOff = c.ptpOff := rfl
@[simp] theorem regs_setHeld (c : Core) (x : KMap (Option HeldWord)) : (c.setHeld x).regs = c.regs := rfl
@[simp] theorem owners_setHeld (c : Core) (x : KMap (Option HeldWord)) : (c.setHeld x).owners = c.owners := rfl
@[simp] theorem mem_setHeld (c : Core) (x : KMap (Option HeldWord)) : (c.setHeld x).mem = c.mem := rfl
@[simp] theorem posted_setHeld (c : Core) (x : KMap (Option HeldWord)) : (c.setHeld x).posted = c.posted := rfl
@[simp] theorem flips_setHeld (c : Core) (x : KMap (Option HeldWord)) : (c.setHeld x).flips = c.flips := rfl
@[simp] theorem poison_setHeld (c : Core) (x : KMap (Option HeldWord)) : (c.setHeld x).poison = c.poison := rfl
@[simp] theorem resp_setHeld (c : Core) (x : KMap (Option HeldWord)) : (c.setHeld x).resp = c.resp := rfl
@[simp] theorem free_setHeld (c : Core) (x : KMap (Option HeldWord)) : (c.setHeld x).free = c.free := rfl
@[simp] theorem loLatch_setHeld (c : Core) (x : KMap (Option HeldWord)) : (c.setHeld x).loLatch = c.loLatch := rfl
@[simp] theorem evr_setHeld (c : Core) (x : KMap (Option HeldWord)) : (c.setHeld x).evr = c.evr := rfl
@[simp] theorem jnl_setHeld (c : Core) (x : KMap (Option HeldWord)) : (c.setHeld x).jnl = c.jnl := rfl
@[simp] theorem tkg_setHeld (c : Core) (x : KMap (Option HeldWord)) : (c.setHeld x).tkg = c.tkg := rfl
@[simp] theorem adm_setHeld (c : Core) (x : KMap (Option HeldWord)) : (c.setHeld x).adm = c.adm := rfl
@[simp] theorem seqs_setHeld (c : Core) (x : KMap (Option HeldWord)) : (c.setHeld x).seqs = c.seqs := rfl
@[simp] theorem seqTicks_setHeld (c : Core) (x : KMap (Option HeldWord)) : (c.setHeld x).seqTicks = c.seqTicks := rfl
@[simp] theorem parts_setHeld (c : Core) (x : KMap (Option HeldWord)) : (c.setHeld x).parts = c.parts := rfl
@[simp] theorem partRuns_setHeld (c : Core) (x : KMap (Option HeldWord)) : (c.setHeld x).partRuns = c.partRuns := rfl
@[simp] theorem cycNum_setHeld (c : Core) (x : KMap (Option HeldWord)) : (c.setHeld x).cycNum = c.cycNum := rfl
@[simp] theorem cycAt_setHeld (c : Core) (x : KMap (Option HeldWord)) : (c.setHeld x).cycAt = c.cycAt := rfl
@[simp] theorem bootKeys_setHeld (c : Core) (x : KMap (Option HeldWord)) : (c.setHeld x).bootKeys = c.bootKeys := rfl
@[simp] theorem dmc_setHeld (c : Core) (x : KMap (Option HeldWord)) : (c.setHeld x).dmc = c.dmc := rfl
@[simp] theorem dmas_setHeld (c : Core) (x : KMap (Option HeldWord)) : (c.setHeld x).dmas = c.dmas := rfl
@[simp] theorem crcs_setHeld (c : Core) (x : KMap (Option HeldWord)) : (c.setHeld x).crcs = c.crcs := rfl
@[simp] theorem slots_setHeld (c : Core) (x : KMap (Option HeldWord)) : (c.setHeld x).slots = c.slots := rfl
@[simp] theorem netCnt_setHeld (c : Core) (x : KMap (Option HeldWord)) : (c.setHeld x).netCnt = c.netCnt := rfl
@[simp] theorem vctxs_setHeld (c : Core) (x : KMap (Option HeldWord)) : (c.setHeld x).vctxs = c.vctxs := rfl
@[simp] theorem heads_setHeld (c : Core) (x : KMap (Option HeldWord)) : (c.setHeld x).heads = c.heads := rfl
@[simp] theorem dpts_setHeld (c : Core) (x : KMap (Option HeldWord)) : (c.setHeld x).dpts = c.dpts := rfl
@[simp] theorem trig_setHeld (c : Core) (x : KMap (Option HeldWord)) : (c.setHeld x).trig = c.trig := rfl
@[simp] theorem pulses_setHeld (c : Core) (x : KMap (Option HeldWord)) : (c.setHeld x).pulses = c.pulses := rfl
@[simp] theorem encs_setHeld (c : Core) (x : KMap (Option HeldWord)) : (c.setHeld x).encs = c.encs := rfl
@[simp] theorem encCaches_setHeld (c : Core) (x : KMap (Option HeldWord)) : (c.setHeld x).encCaches = c.encCaches := rfl
@[simp] theorem wit_setHeld (c : Core) (x : KMap (Option HeldWord)) : (c.setHeld x).wit = c.wit := rfl
@[simp] theorem cave_setHeld (c : Core) (x : KMap (Option HeldWord)) : (c.setHeld x).cave = c.cave := rfl
@[simp] theorem aud_setHeld (c : Core) (x : KMap (Option HeldWord)) : (c.setHeld x).aud = c.aud := rfl
@[simp] theorem tchs_setHeld (c : Core) (x : KMap (Option HeldWord)) : (c.setHeld x).tchs = c.tchs := rfl
@[simp] theorem hpts_setHeld (c : Core) (x : KMap (Option HeldWord)) : (c.setHeld x).hpts = c.hpts := rfl
@[simp] theorem hostIf_setHeld (c : Core) (x : KMap (Option HeldWord)) : (c.setHeld x).hostIf = c.hostIf := rfl
@[simp] theorem rgl_setHeld (c : Core) (x : KMap (Option HeldWord)) : (c.setHeld x).rgl = c.rgl := rfl
@[simp] theorem pwr_setHeld (c : Core) (x : KMap (Option HeldWord)) : (c.setHeld x).pwr = c.pwr := rfl
@[simp] theorem boot_setHeld (c : Core) (x : KMap (Option HeldWord)) : (c.setHeld x).boot = c.boot := rfl
@[simp] theorem leResets_setHeld (c : Core) (x : KMap (Option HeldWord)) : (c.setHeld x).leResets = c.leResets := rfl

/-! ### `setPoison` -/

@[simp] theorem var_setPoison (c : Core) (a : Nat) (b : Bool) : (c.setPoison a b).var = c.var := rfl
@[simp] theorem now_setPoison (c : Core) (a : Nat) (b : Bool) : (c.setPoison a b).now = c.now := rfl
@[simp] theorem ptpOff_setPoison (c : Core) (a : Nat) (b : Bool) : (c.setPoison a b).ptpOff = c.ptpOff := rfl
@[simp] theorem regs_setPoison (c : Core) (a : Nat) (b : Bool) : (c.setPoison a b).regs = c.regs := rfl
@[simp] theorem owners_setPoison (c : Core) (a : Nat) (b : Bool) : (c.setPoison a b).owners = c.owners := rfl
@[simp] theorem mem_setPoison (c : Core) (a : Nat) (b : Bool) : (c.setPoison a b).mem = c.mem := rfl
@[simp] theorem posted_setPoison (c : Core) (a : Nat) (b : Bool) : (c.setPoison a b).posted = c.posted := rfl
@[simp] theorem flips_setPoison (c : Core) (a : Nat) (b : Bool) : (c.setPoison a b).flips = c.flips := rfl
@[simp] theorem resp_setPoison (c : Core) (a : Nat) (b : Bool) : (c.setPoison a b).resp = c.resp := rfl
@[simp] theorem free_setPoison (c : Core) (a : Nat) (b : Bool) : (c.setPoison a b).free = c.free := rfl
@[simp] theorem loLatch_setPoison (c : Core) (a : Nat) (b : Bool) : (c.setPoison a b).loLatch = c.loLatch := rfl
@[simp] theorem evr_setPoison (c : Core) (a : Nat) (b : Bool) : (c.setPoison a b).evr = c.evr := rfl
@[simp] theorem jnl_setPoison (c : Core) (a : Nat) (b : Bool) : (c.setPoison a b).jnl = c.jnl := rfl
@[simp] theorem tkg_setPoison (c : Core) (a : Nat) (b : Bool) : (c.setPoison a b).tkg = c.tkg := rfl
@[simp] theorem adm_setPoison (c : Core) (a : Nat) (b : Bool) : (c.setPoison a b).adm = c.adm := rfl
@[simp] theorem seqs_setPoison (c : Core) (a : Nat) (b : Bool) : (c.setPoison a b).seqs = c.seqs := rfl
@[simp] theorem seqTicks_setPoison (c : Core) (a : Nat) (b : Bool) : (c.setPoison a b).seqTicks = c.seqTicks := rfl
@[simp] theorem parts_setPoison (c : Core) (a : Nat) (b : Bool) : (c.setPoison a b).parts = c.parts := rfl
@[simp] theorem partRuns_setPoison (c : Core) (a : Nat) (b : Bool) : (c.setPoison a b).partRuns = c.partRuns := rfl
@[simp] theorem pot_setPoison (c : Core) (a : Nat) (b : Bool) : (c.setPoison a b).pot = c.pot := rfl
@[simp] theorem cycNum_setPoison (c : Core) (a : Nat) (b : Bool) : (c.setPoison a b).cycNum = c.cycNum := rfl
@[simp] theorem cycAt_setPoison (c : Core) (a : Nat) (b : Bool) : (c.setPoison a b).cycAt = c.cycAt := rfl
@[simp] theorem bootKeys_setPoison (c : Core) (a : Nat) (b : Bool) : (c.setPoison a b).bootKeys = c.bootKeys := rfl
@[simp] theorem dmc_setPoison (c : Core) (a : Nat) (b : Bool) : (c.setPoison a b).dmc = c.dmc := rfl
@[simp] theorem dmas_setPoison (c : Core) (a : Nat) (b : Bool) : (c.setPoison a b).dmas = c.dmas := rfl
@[simp] theorem crcs_setPoison (c : Core) (a : Nat) (b : Bool) : (c.setPoison a b).crcs = c.crcs := rfl
@[simp] theorem slots_setPoison (c : Core) (a : Nat) (b : Bool) : (c.setPoison a b).slots = c.slots := rfl
@[simp] theorem netCnt_setPoison (c : Core) (a : Nat) (b : Bool) : (c.setPoison a b).netCnt = c.netCnt := rfl
@[simp] theorem vctxs_setPoison (c : Core) (a : Nat) (b : Bool) : (c.setPoison a b).vctxs = c.vctxs := rfl
@[simp] theorem heads_setPoison (c : Core) (a : Nat) (b : Bool) : (c.setPoison a b).heads = c.heads := rfl
@[simp] theorem dpts_setPoison (c : Core) (a : Nat) (b : Bool) : (c.setPoison a b).dpts = c.dpts := rfl
@[simp] theorem trig_setPoison (c : Core) (a : Nat) (b : Bool) : (c.setPoison a b).trig = c.trig := rfl
@[simp] theorem pulses_setPoison (c : Core) (a : Nat) (b : Bool) : (c.setPoison a b).pulses = c.pulses := rfl
@[simp] theorem encs_setPoison (c : Core) (a : Nat) (b : Bool) : (c.setPoison a b).encs = c.encs := rfl
@[simp] theorem encCaches_setPoison (c : Core) (a : Nat) (b : Bool) : (c.setPoison a b).encCaches = c.encCaches := rfl
@[simp] theorem wit_setPoison (c : Core) (a : Nat) (b : Bool) : (c.setPoison a b).wit = c.wit := rfl
@[simp] theorem cave_setPoison (c : Core) (a : Nat) (b : Bool) : (c.setPoison a b).cave = c.cave := rfl
@[simp] theorem aud_setPoison (c : Core) (a : Nat) (b : Bool) : (c.setPoison a b).aud = c.aud := rfl
@[simp] theorem tchs_setPoison (c : Core) (a : Nat) (b : Bool) : (c.setPoison a b).tchs = c.tchs := rfl
@[simp] theorem hpts_setPoison (c : Core) (a : Nat) (b : Bool) : (c.setPoison a b).hpts = c.hpts := rfl
@[simp] theorem hostIf_setPoison (c : Core) (a : Nat) (b : Bool) : (c.setPoison a b).hostIf = c.hostIf := rfl
@[simp] theorem rgl_setPoison (c : Core) (a : Nat) (b : Bool) : (c.setPoison a b).rgl = c.rgl := rfl
@[simp] theorem pwr_setPoison (c : Core) (a : Nat) (b : Bool) : (c.setPoison a b).pwr = c.pwr := rfl
@[simp] theorem boot_setPoison (c : Core) (a : Nat) (b : Bool) : (c.setPoison a b).boot = c.boot := rfl
@[simp] theorem leResets_setPoison (c : Core) (a : Nat) (b : Bool) : (c.setPoison a b).leResets = c.leResets := rfl

/-! ### `setDmc` -/

@[simp] theorem var_setDmc (c : Core) (d : Dmc) : (c.setDmc d).var = c.var := rfl
@[simp] theorem now_setDmc (c : Core) (d : Dmc) : (c.setDmc d).now = c.now := rfl
@[simp] theorem ptpOff_setDmc (c : Core) (d : Dmc) : (c.setDmc d).ptpOff = c.ptpOff := rfl
@[simp] theorem regs_setDmc (c : Core) (d : Dmc) : (c.setDmc d).regs = c.regs := rfl
@[simp] theorem owners_setDmc (c : Core) (d : Dmc) : (c.setDmc d).owners = c.owners := rfl
@[simp] theorem mem_setDmc (c : Core) (d : Dmc) : (c.setDmc d).mem = c.mem := rfl
@[simp] theorem posted_setDmc (c : Core) (d : Dmc) : (c.setDmc d).posted = c.posted := rfl
@[simp] theorem flips_setDmc (c : Core) (d : Dmc) : (c.setDmc d).flips = c.flips := rfl
@[simp] theorem poison_setDmc (c : Core) (d : Dmc) : (c.setDmc d).poison = c.poison := rfl
@[simp] theorem resp_setDmc (c : Core) (d : Dmc) : (c.setDmc d).resp = c.resp := rfl
@[simp] theorem free_setDmc (c : Core) (d : Dmc) : (c.setDmc d).free = c.free := rfl
@[simp] theorem loLatch_setDmc (c : Core) (d : Dmc) : (c.setDmc d).loLatch = c.loLatch := rfl
@[simp] theorem evr_setDmc (c : Core) (d : Dmc) : (c.setDmc d).evr = c.evr := rfl
@[simp] theorem jnl_setDmc (c : Core) (d : Dmc) : (c.setDmc d).jnl = c.jnl := rfl
@[simp] theorem tkg_setDmc (c : Core) (d : Dmc) : (c.setDmc d).tkg = c.tkg := rfl
@[simp] theorem adm_setDmc (c : Core) (d : Dmc) : (c.setDmc d).adm = c.adm := rfl
@[simp] theorem seqs_setDmc (c : Core) (d : Dmc) : (c.setDmc d).seqs = c.seqs := rfl
@[simp] theorem seqTicks_setDmc (c : Core) (d : Dmc) : (c.setDmc d).seqTicks = c.seqTicks := rfl
@[simp] theorem parts_setDmc (c : Core) (d : Dmc) : (c.setDmc d).parts = c.parts := rfl
@[simp] theorem partRuns_setDmc (c : Core) (d : Dmc) : (c.setDmc d).partRuns = c.partRuns := rfl
@[simp] theorem pot_setDmc (c : Core) (d : Dmc) : (c.setDmc d).pot = c.pot := rfl
@[simp] theorem cycNum_setDmc (c : Core) (d : Dmc) : (c.setDmc d).cycNum = c.cycNum := rfl
@[simp] theorem cycAt_setDmc (c : Core) (d : Dmc) : (c.setDmc d).cycAt = c.cycAt := rfl
@[simp] theorem bootKeys_setDmc (c : Core) (d : Dmc) : (c.setDmc d).bootKeys = c.bootKeys := rfl
@[simp] theorem dmas_setDmc (c : Core) (d : Dmc) : (c.setDmc d).dmas = c.dmas := rfl
@[simp] theorem crcs_setDmc (c : Core) (d : Dmc) : (c.setDmc d).crcs = c.crcs := rfl
@[simp] theorem slots_setDmc (c : Core) (d : Dmc) : (c.setDmc d).slots = c.slots := rfl
@[simp] theorem netCnt_setDmc (c : Core) (d : Dmc) : (c.setDmc d).netCnt = c.netCnt := rfl
@[simp] theorem vctxs_setDmc (c : Core) (d : Dmc) : (c.setDmc d).vctxs = c.vctxs := rfl
@[simp] theorem heads_setDmc (c : Core) (d : Dmc) : (c.setDmc d).heads = c.heads := rfl
@[simp] theorem dpts_setDmc (c : Core) (d : Dmc) : (c.setDmc d).dpts = c.dpts := rfl
@[simp] theorem trig_setDmc (c : Core) (d : Dmc) : (c.setDmc d).trig = c.trig := rfl
@[simp] theorem pulses_setDmc (c : Core) (d : Dmc) : (c.setDmc d).pulses = c.pulses := rfl
@[simp] theorem encs_setDmc (c : Core) (d : Dmc) : (c.setDmc d).encs = c.encs := rfl
@[simp] theorem encCaches_setDmc (c : Core) (d : Dmc) : (c.setDmc d).encCaches = c.encCaches := rfl
@[simp] theorem wit_setDmc (c : Core) (d : Dmc) : (c.setDmc d).wit = c.wit := rfl
@[simp] theorem cave_setDmc (c : Core) (d : Dmc) : (c.setDmc d).cave = c.cave := rfl
@[simp] theorem aud_setDmc (c : Core) (d : Dmc) : (c.setDmc d).aud = c.aud := rfl
@[simp] theorem tchs_setDmc (c : Core) (d : Dmc) : (c.setDmc d).tchs = c.tchs := rfl
@[simp] theorem hpts_setDmc (c : Core) (d : Dmc) : (c.setDmc d).hpts = c.hpts := rfl
@[simp] theorem hostIf_setDmc (c : Core) (d : Dmc) : (c.setDmc d).hostIf = c.hostIf := rfl
@[simp] theorem rgl_setDmc (c : Core) (d : Dmc) : (c.setDmc d).rgl = c.rgl := rfl
@[simp] theorem pwr_setDmc (c : Core) (d : Dmc) : (c.setDmc d).pwr = c.pwr := rfl
@[simp] theorem boot_setDmc (c : Core) (d : Dmc) : (c.setDmc d).boot = c.boot := rfl
@[simp] theorem leResets_setDmc (c : Core) (d : Dmc) : (c.setDmc d).leResets = c.leResets := rfl

/-! ### `setFlips` -/

@[simp] theorem var_setFlips (c : Core) (w n : Nat) : (c.setFlips w n).var = c.var := rfl
@[simp] theorem now_setFlips (c : Core) (w n : Nat) : (c.setFlips w n).now = c.now := rfl
@[simp] theorem ptpOff_setFlips (c : Core) (w n : Nat) : (c.setFlips w n).ptpOff = c.ptpOff := rfl
@[simp] theorem regs_setFlips (c : Core) (w n : Nat) : (c.setFlips w n).regs = c.regs := rfl
@[simp] theorem owners_setFlips (c : Core) (w n : Nat) : (c.setFlips w n).owners = c.owners := rfl
@[simp] theorem mem_setFlips (c : Core) (w n : Nat) : (c.setFlips w n).mem = c.mem := rfl
@[simp] theorem posted_setFlips (c : Core) (w n : Nat) : (c.setFlips w n).posted = c.posted := rfl
@[simp] theorem poison_setFlips (c : Core) (w n : Nat) : (c.setFlips w n).poison = c.poison := rfl
@[simp] theorem resp_setFlips (c : Core) (w n : Nat) : (c.setFlips w n).resp = c.resp := rfl
@[simp] theorem free_setFlips (c : Core) (w n : Nat) : (c.setFlips w n).free = c.free := rfl
@[simp] theorem loLatch_setFlips (c : Core) (w n : Nat) : (c.setFlips w n).loLatch = c.loLatch := rfl
@[simp] theorem evr_setFlips (c : Core) (w n : Nat) : (c.setFlips w n).evr = c.evr := rfl
@[simp] theorem jnl_setFlips (c : Core) (w n : Nat) : (c.setFlips w n).jnl = c.jnl := rfl
@[simp] theorem tkg_setFlips (c : Core) (w n : Nat) : (c.setFlips w n).tkg = c.tkg := rfl
@[simp] theorem adm_setFlips (c : Core) (w n : Nat) : (c.setFlips w n).adm = c.adm := rfl
@[simp] theorem seqs_setFlips (c : Core) (w n : Nat) : (c.setFlips w n).seqs = c.seqs := rfl
@[simp] theorem seqTicks_setFlips (c : Core) (w n : Nat) : (c.setFlips w n).seqTicks = c.seqTicks := rfl
@[simp] theorem parts_setFlips (c : Core) (w n : Nat) : (c.setFlips w n).parts = c.parts := rfl
@[simp] theorem partRuns_setFlips (c : Core) (w n : Nat) : (c.setFlips w n).partRuns = c.partRuns := rfl
@[simp] theorem pot_setFlips (c : Core) (w n : Nat) : (c.setFlips w n).pot = c.pot := rfl
@[simp] theorem cycNum_setFlips (c : Core) (w n : Nat) : (c.setFlips w n).cycNum = c.cycNum := rfl
@[simp] theorem cycAt_setFlips (c : Core) (w n : Nat) : (c.setFlips w n).cycAt = c.cycAt := rfl
@[simp] theorem bootKeys_setFlips (c : Core) (w n : Nat) : (c.setFlips w n).bootKeys = c.bootKeys := rfl
@[simp] theorem dmc_setFlips (c : Core) (w n : Nat) : (c.setFlips w n).dmc = c.dmc := rfl
@[simp] theorem dmas_setFlips (c : Core) (w n : Nat) : (c.setFlips w n).dmas = c.dmas := rfl
@[simp] theorem crcs_setFlips (c : Core) (w n : Nat) : (c.setFlips w n).crcs = c.crcs := rfl
@[simp] theorem slots_setFlips (c : Core) (w n : Nat) : (c.setFlips w n).slots = c.slots := rfl
@[simp] theorem netCnt_setFlips (c : Core) (w n : Nat) : (c.setFlips w n).netCnt = c.netCnt := rfl
@[simp] theorem vctxs_setFlips (c : Core) (w n : Nat) : (c.setFlips w n).vctxs = c.vctxs := rfl
@[simp] theorem heads_setFlips (c : Core) (w n : Nat) : (c.setFlips w n).heads = c.heads := rfl
@[simp] theorem dpts_setFlips (c : Core) (w n : Nat) : (c.setFlips w n).dpts = c.dpts := rfl
@[simp] theorem trig_setFlips (c : Core) (w n : Nat) : (c.setFlips w n).trig = c.trig := rfl
@[simp] theorem pulses_setFlips (c : Core) (w n : Nat) : (c.setFlips w n).pulses = c.pulses := rfl
@[simp] theorem encs_setFlips (c : Core) (w n : Nat) : (c.setFlips w n).encs = c.encs := rfl
@[simp] theorem encCaches_setFlips (c : Core) (w n : Nat) : (c.setFlips w n).encCaches = c.encCaches := rfl
@[simp] theorem wit_setFlips (c : Core) (w n : Nat) : (c.setFlips w n).wit = c.wit := rfl
@[simp] theorem cave_setFlips (c : Core) (w n : Nat) : (c.setFlips w n).cave = c.cave := rfl
@[simp] theorem aud_setFlips (c : Core) (w n : Nat) : (c.setFlips w n).aud = c.aud := rfl
@[simp] theorem tchs_setFlips (c : Core) (w n : Nat) : (c.setFlips w n).tchs = c.tchs := rfl
@[simp] theorem hpts_setFlips (c : Core) (w n : Nat) : (c.setFlips w n).hpts = c.hpts := rfl
@[simp] theorem hostIf_setFlips (c : Core) (w n : Nat) : (c.setFlips w n).hostIf = c.hostIf := rfl
@[simp] theorem rgl_setFlips (c : Core) (w n : Nat) : (c.setFlips w n).rgl = c.rgl := rfl
@[simp] theorem pwr_setFlips (c : Core) (w n : Nat) : (c.setFlips w n).pwr = c.pwr := rfl
@[simp] theorem boot_setFlips (c : Core) (w n : Nat) : (c.setFlips w n).boot = c.boot := rfl
@[simp] theorem leResets_setFlips (c : Core) (w n : Nat) : (c.setFlips w n).leResets = c.leResets := rfl

/-! ### `setEncCache` -/

@[simp] theorem var_setEncCache (c : Core) (e : Nat) (q : EncCache) : (c.setEncCache e q).var = c.var := rfl
@[simp] theorem now_setEncCache (c : Core) (e : Nat) (q : EncCache) : (c.setEncCache e q).now = c.now := rfl
@[simp] theorem ptpOff_setEncCache (c : Core) (e : Nat) (q : EncCache) : (c.setEncCache e q).ptpOff = c.ptpOff := rfl
@[simp] theorem regs_setEncCache (c : Core) (e : Nat) (q : EncCache) : (c.setEncCache e q).regs = c.regs := rfl
@[simp] theorem owners_setEncCache (c : Core) (e : Nat) (q : EncCache) : (c.setEncCache e q).owners = c.owners := rfl
@[simp] theorem mem_setEncCache (c : Core) (e : Nat) (q : EncCache) : (c.setEncCache e q).mem = c.mem := rfl
@[simp] theorem posted_setEncCache (c : Core) (e : Nat) (q : EncCache) : (c.setEncCache e q).posted = c.posted := rfl
@[simp] theorem flips_setEncCache (c : Core) (e : Nat) (q : EncCache) : (c.setEncCache e q).flips = c.flips := rfl
@[simp] theorem poison_setEncCache (c : Core) (e : Nat) (q : EncCache) : (c.setEncCache e q).poison = c.poison := rfl
@[simp] theorem resp_setEncCache (c : Core) (e : Nat) (q : EncCache) : (c.setEncCache e q).resp = c.resp := rfl
@[simp] theorem free_setEncCache (c : Core) (e : Nat) (q : EncCache) : (c.setEncCache e q).free = c.free := rfl
@[simp] theorem loLatch_setEncCache (c : Core) (e : Nat) (q : EncCache) : (c.setEncCache e q).loLatch = c.loLatch := rfl
@[simp] theorem evr_setEncCache (c : Core) (e : Nat) (q : EncCache) : (c.setEncCache e q).evr = c.evr := rfl
@[simp] theorem jnl_setEncCache (c : Core) (e : Nat) (q : EncCache) : (c.setEncCache e q).jnl = c.jnl := rfl
@[simp] theorem tkg_setEncCache (c : Core) (e : Nat) (q : EncCache) : (c.setEncCache e q).tkg = c.tkg := rfl
@[simp] theorem adm_setEncCache (c : Core) (e : Nat) (q : EncCache) : (c.setEncCache e q).adm = c.adm := rfl
@[simp] theorem seqs_setEncCache (c : Core) (e : Nat) (q : EncCache) : (c.setEncCache e q).seqs = c.seqs := rfl
@[simp] theorem seqTicks_setEncCache (c : Core) (e : Nat) (q : EncCache) : (c.setEncCache e q).seqTicks = c.seqTicks := rfl
@[simp] theorem parts_setEncCache (c : Core) (e : Nat) (q : EncCache) : (c.setEncCache e q).parts = c.parts := rfl
@[simp] theorem partRuns_setEncCache (c : Core) (e : Nat) (q : EncCache) : (c.setEncCache e q).partRuns = c.partRuns := rfl
@[simp] theorem pot_setEncCache (c : Core) (e : Nat) (q : EncCache) : (c.setEncCache e q).pot = c.pot := rfl
@[simp] theorem cycNum_setEncCache (c : Core) (e : Nat) (q : EncCache) : (c.setEncCache e q).cycNum = c.cycNum := rfl
@[simp] theorem cycAt_setEncCache (c : Core) (e : Nat) (q : EncCache) : (c.setEncCache e q).cycAt = c.cycAt := rfl
@[simp] theorem bootKeys_setEncCache (c : Core) (e : Nat) (q : EncCache) : (c.setEncCache e q).bootKeys = c.bootKeys := rfl
@[simp] theorem dmc_setEncCache (c : Core) (e : Nat) (q : EncCache) : (c.setEncCache e q).dmc = c.dmc := rfl
@[simp] theorem dmas_setEncCache (c : Core) (e : Nat) (q : EncCache) : (c.setEncCache e q).dmas = c.dmas := rfl
@[simp] theorem crcs_setEncCache (c : Core) (e : Nat) (q : EncCache) : (c.setEncCache e q).crcs = c.crcs := rfl
@[simp] theorem slots_setEncCache (c : Core) (e : Nat) (q : EncCache) : (c.setEncCache e q).slots = c.slots := rfl
@[simp] theorem netCnt_setEncCache (c : Core) (e : Nat) (q : EncCache) : (c.setEncCache e q).netCnt = c.netCnt := rfl
@[simp] theorem vctxs_setEncCache (c : Core) (e : Nat) (q : EncCache) : (c.setEncCache e q).vctxs = c.vctxs := rfl
@[simp] theorem heads_setEncCache (c : Core) (e : Nat) (q : EncCache) : (c.setEncCache e q).heads = c.heads := rfl
@[simp] theorem dpts_setEncCache (c : Core) (e : Nat) (q : EncCache) : (c.setEncCache e q).dpts = c.dpts := rfl
@[simp] theorem trig_setEncCache (c : Core) (e : Nat) (q : EncCache) : (c.setEncCache e q).trig = c.trig := rfl
@[simp] theorem pulses_setEncCache (c : Core) (e : Nat) (q : EncCache) : (c.setEncCache e q).pulses = c.pulses := rfl
@[simp] theorem encs_setEncCache (c : Core) (e : Nat) (q : EncCache) : (c.setEncCache e q).encs = c.encs := rfl
@[simp] theorem wit_setEncCache (c : Core) (e : Nat) (q : EncCache) : (c.setEncCache e q).wit = c.wit := rfl
@[simp] theorem cave_setEncCache (c : Core) (e : Nat) (q : EncCache) : (c.setEncCache e q).cave = c.cave := rfl
@[simp] theorem aud_setEncCache (c : Core) (e : Nat) (q : EncCache) : (c.setEncCache e q).aud = c.aud := rfl
@[simp] theorem tchs_setEncCache (c : Core) (e : Nat) (q : EncCache) : (c.setEncCache e q).tchs = c.tchs := rfl
@[simp] theorem hpts_setEncCache (c : Core) (e : Nat) (q : EncCache) : (c.setEncCache e q).hpts = c.hpts := rfl
@[simp] theorem hostIf_setEncCache (c : Core) (e : Nat) (q : EncCache) : (c.setEncCache e q).hostIf = c.hostIf := rfl
@[simp] theorem rgl_setEncCache (c : Core) (e : Nat) (q : EncCache) : (c.setEncCache e q).rgl = c.rgl := rfl
@[simp] theorem pwr_setEncCache (c : Core) (e : Nat) (q : EncCache) : (c.setEncCache e q).pwr = c.pwr := rfl
@[simp] theorem boot_setEncCache (c : Core) (e : Nat) (q : EncCache) : (c.setEncCache e q).boot = c.boot := rfl
@[simp] theorem leResets_setEncCache (c : Core) (e : Nat) (q : EncCache) : (c.setEncCache e q).leResets = c.leResets := rfl

/-! ### `setSample` -/

@[simp] theorem var_setSample (c : Core) (s : Nat) (l : Bool) : (c.setSample s l).var = c.var := rfl
@[simp] theorem now_setSample (c : Core) (s : Nat) (l : Bool) : (c.setSample s l).now = c.now := rfl
@[simp] theorem ptpOff_setSample (c : Core) (s : Nat) (l : Bool) : (c.setSample s l).ptpOff = c.ptpOff := rfl
@[simp] theorem regs_setSample (c : Core) (s : Nat) (l : Bool) : (c.setSample s l).regs = c.regs := rfl
@[simp] theorem owners_setSample (c : Core) (s : Nat) (l : Bool) : (c.setSample s l).owners = c.owners := rfl
@[simp] theorem mem_setSample (c : Core) (s : Nat) (l : Bool) : (c.setSample s l).mem = c.mem := rfl
@[simp] theorem posted_setSample (c : Core) (s : Nat) (l : Bool) : (c.setSample s l).posted = c.posted := rfl
@[simp] theorem flips_setSample (c : Core) (s : Nat) (l : Bool) : (c.setSample s l).flips = c.flips := rfl
@[simp] theorem poison_setSample (c : Core) (s : Nat) (l : Bool) : (c.setSample s l).poison = c.poison := rfl
@[simp] theorem resp_setSample (c : Core) (s : Nat) (l : Bool) : (c.setSample s l).resp = c.resp := rfl
@[simp] theorem free_setSample (c : Core) (s : Nat) (l : Bool) : (c.setSample s l).free = c.free := rfl
@[simp] theorem loLatch_setSample (c : Core) (s : Nat) (l : Bool) : (c.setSample s l).loLatch = c.loLatch := rfl
@[simp] theorem jnl_setSample (c : Core) (s : Nat) (l : Bool) : (c.setSample s l).jnl = c.jnl := rfl
@[simp] theorem tkg_setSample (c : Core) (s : Nat) (l : Bool) : (c.setSample s l).tkg = c.tkg := rfl
@[simp] theorem adm_setSample (c : Core) (s : Nat) (l : Bool) : (c.setSample s l).adm = c.adm := rfl
@[simp] theorem seqs_setSample (c : Core) (s : Nat) (l : Bool) : (c.setSample s l).seqs = c.seqs := rfl
@[simp] theorem seqTicks_setSample (c : Core) (s : Nat) (l : Bool) : (c.setSample s l).seqTicks = c.seqTicks := rfl
@[simp] theorem parts_setSample (c : Core) (s : Nat) (l : Bool) : (c.setSample s l).parts = c.parts := rfl
@[simp] theorem partRuns_setSample (c : Core) (s : Nat) (l : Bool) : (c.setSample s l).partRuns = c.partRuns := rfl
@[simp] theorem pot_setSample (c : Core) (s : Nat) (l : Bool) : (c.setSample s l).pot = c.pot := rfl
@[simp] theorem cycNum_setSample (c : Core) (s : Nat) (l : Bool) : (c.setSample s l).cycNum = c.cycNum := rfl
@[simp] theorem cycAt_setSample (c : Core) (s : Nat) (l : Bool) : (c.setSample s l).cycAt = c.cycAt := rfl
@[simp] theorem bootKeys_setSample (c : Core) (s : Nat) (l : Bool) : (c.setSample s l).bootKeys = c.bootKeys := rfl
@[simp] theorem dmc_setSample (c : Core) (s : Nat) (l : Bool) : (c.setSample s l).dmc = c.dmc := rfl
@[simp] theorem dmas_setSample (c : Core) (s : Nat) (l : Bool) : (c.setSample s l).dmas = c.dmas := rfl
@[simp] theorem crcs_setSample (c : Core) (s : Nat) (l : Bool) : (c.setSample s l).crcs = c.crcs := rfl
@[simp] theorem slots_setSample (c : Core) (s : Nat) (l : Bool) : (c.setSample s l).slots = c.slots := rfl
@[simp] theorem netCnt_setSample (c : Core) (s : Nat) (l : Bool) : (c.setSample s l).netCnt = c.netCnt := rfl
@[simp] theorem vctxs_setSample (c : Core) (s : Nat) (l : Bool) : (c.setSample s l).vctxs = c.vctxs := rfl
@[simp] theorem heads_setSample (c : Core) (s : Nat) (l : Bool) : (c.setSample s l).heads = c.heads := rfl
@[simp] theorem dpts_setSample (c : Core) (s : Nat) (l : Bool) : (c.setSample s l).dpts = c.dpts := rfl
@[simp] theorem trig_setSample (c : Core) (s : Nat) (l : Bool) : (c.setSample s l).trig = c.trig := rfl
@[simp] theorem pulses_setSample (c : Core) (s : Nat) (l : Bool) : (c.setSample s l).pulses = c.pulses := rfl
@[simp] theorem encs_setSample (c : Core) (s : Nat) (l : Bool) : (c.setSample s l).encs = c.encs := rfl
@[simp] theorem encCaches_setSample (c : Core) (s : Nat) (l : Bool) : (c.setSample s l).encCaches = c.encCaches := rfl
@[simp] theorem wit_setSample (c : Core) (s : Nat) (l : Bool) : (c.setSample s l).wit = c.wit := rfl
@[simp] theorem cave_setSample (c : Core) (s : Nat) (l : Bool) : (c.setSample s l).cave = c.cave := rfl
@[simp] theorem aud_setSample (c : Core) (s : Nat) (l : Bool) : (c.setSample s l).aud = c.aud := rfl
@[simp] theorem tchs_setSample (c : Core) (s : Nat) (l : Bool) : (c.setSample s l).tchs = c.tchs := rfl
@[simp] theorem hpts_setSample (c : Core) (s : Nat) (l : Bool) : (c.setSample s l).hpts = c.hpts := rfl
@[simp] theorem hostIf_setSample (c : Core) (s : Nat) (l : Bool) : (c.setSample s l).hostIf = c.hostIf := rfl
@[simp] theorem rgl_setSample (c : Core) (s : Nat) (l : Bool) : (c.setSample s l).rgl = c.rgl := rfl
@[simp] theorem pwr_setSample (c : Core) (s : Nat) (l : Bool) : (c.setSample s l).pwr = c.pwr := rfl
@[simp] theorem boot_setSample (c : Core) (s : Nat) (l : Bool) : (c.setSample s l).boot = c.boot := rfl
@[simp] theorem leResets_setSample (c : Core) (s : Nat) (l : Bool) : (c.setSample s l).leResets = c.leResets := rfl

/-! ### `repair` -/

@[simp] theorem var_repair (c : Core) (k : Nat) : (c.repair k).var = c.var := rfl
@[simp] theorem now_repair (c : Core) (k : Nat) : (c.repair k).now = c.now := rfl
@[simp] theorem ptpOff_repair (c : Core) (k : Nat) : (c.repair k).ptpOff = c.ptpOff := rfl
@[simp] theorem regs_repair (c : Core) (k : Nat) : (c.repair k).regs = c.regs := rfl
@[simp] theorem owners_repair (c : Core) (k : Nat) : (c.repair k).owners = c.owners := rfl
@[simp] theorem mem_repair (c : Core) (k : Nat) : (c.repair k).mem = c.mem := rfl
@[simp] theorem posted_repair (c : Core) (k : Nat) : (c.repair k).posted = c.posted := rfl
@[simp] theorem flips_repair (c : Core) (k : Nat) : (c.repair k).flips = c.flips := rfl
@[simp] theorem poison_repair (c : Core) (k : Nat) : (c.repair k).poison = c.poison := rfl
@[simp] theorem resp_repair (c : Core) (k : Nat) : (c.repair k).resp = c.resp := rfl
@[simp] theorem free_repair (c : Core) (k : Nat) : (c.repair k).free = c.free := rfl
@[simp] theorem loLatch_repair (c : Core) (k : Nat) : (c.repair k).loLatch = c.loLatch := rfl
@[simp] theorem evr_repair (c : Core) (k : Nat) : (c.repair k).evr = c.evr := rfl
@[simp] theorem jnl_repair (c : Core) (k : Nat) : (c.repair k).jnl = c.jnl := rfl
@[simp] theorem tkg_repair (c : Core) (k : Nat) : (c.repair k).tkg = c.tkg := rfl
@[simp] theorem adm_repair (c : Core) (k : Nat) : (c.repair k).adm = c.adm := rfl
@[simp] theorem seqs_repair (c : Core) (k : Nat) : (c.repair k).seqs = c.seqs := rfl
@[simp] theorem seqTicks_repair (c : Core) (k : Nat) : (c.repair k).seqTicks = c.seqTicks := rfl
@[simp] theorem parts_repair (c : Core) (k : Nat) : (c.repair k).parts = c.parts := rfl
@[simp] theorem partRuns_repair (c : Core) (k : Nat) : (c.repair k).partRuns = c.partRuns := rfl
@[simp] theorem cycNum_repair (c : Core) (k : Nat) : (c.repair k).cycNum = c.cycNum := rfl
@[simp] theorem cycAt_repair (c : Core) (k : Nat) : (c.repair k).cycAt = c.cycAt := rfl
@[simp] theorem bootKeys_repair (c : Core) (k : Nat) : (c.repair k).bootKeys = c.bootKeys := rfl
@[simp] theorem dmc_repair (c : Core) (k : Nat) : (c.repair k).dmc = c.dmc := rfl
@[simp] theorem dmas_repair (c : Core) (k : Nat) : (c.repair k).dmas = c.dmas := rfl
@[simp] theorem crcs_repair (c : Core) (k : Nat) : (c.repair k).crcs = c.crcs := rfl
@[simp] theorem slots_repair (c : Core) (k : Nat) : (c.repair k).slots = c.slots := rfl
@[simp] theorem netCnt_repair (c : Core) (k : Nat) : (c.repair k).netCnt = c.netCnt := rfl
@[simp] theorem vctxs_repair (c : Core) (k : Nat) : (c.repair k).vctxs = c.vctxs := rfl
@[simp] theorem heads_repair (c : Core) (k : Nat) : (c.repair k).heads = c.heads := rfl
@[simp] theorem dpts_repair (c : Core) (k : Nat) : (c.repair k).dpts = c.dpts := rfl
@[simp] theorem trig_repair (c : Core) (k : Nat) : (c.repair k).trig = c.trig := rfl
@[simp] theorem pulses_repair (c : Core) (k : Nat) : (c.repair k).pulses = c.pulses := rfl
@[simp] theorem encs_repair (c : Core) (k : Nat) : (c.repair k).encs = c.encs := rfl
@[simp] theorem encCaches_repair (c : Core) (k : Nat) : (c.repair k).encCaches = c.encCaches := rfl
@[simp] theorem wit_repair (c : Core) (k : Nat) : (c.repair k).wit = c.wit := rfl
@[simp] theorem cave_repair (c : Core) (k : Nat) : (c.repair k).cave = c.cave := rfl
@[simp] theorem aud_repair (c : Core) (k : Nat) : (c.repair k).aud = c.aud := rfl
@[simp] theorem tchs_repair (c : Core) (k : Nat) : (c.repair k).tchs = c.tchs := rfl
@[simp] theorem hpts_repair (c : Core) (k : Nat) : (c.repair k).hpts = c.hpts := rfl
@[simp] theorem hostIf_repair (c : Core) (k : Nat) : (c.repair k).hostIf = c.hostIf := rfl
@[simp] theorem rgl_repair (c : Core) (k : Nat) : (c.repair k).rgl = c.rgl := rfl
@[simp] theorem pwr_repair (c : Core) (k : Nat) : (c.repair k).pwr = c.pwr := rfl
@[simp] theorem boot_repair (c : Core) (k : Nat) : (c.repair k).boot = c.boot := rfl
@[simp] theorem leResets_repair (c : Core) (k : Nat) : (c.repair k).leResets = c.leResets := rfl

end Sys2Proof.Machine
end

