-- ==== Sys2Proof/Laws/Fields.lean ====
section
/-! SUPPORT. What the operations on registers with events, the events, the journal entries and the quarantines leave as it is: every
field but the registers, the sampled levels and the journal. -/

namespace Sys2Proof.Machine

open Sys2Proof

theorem Core.Quiet.var {c d : Core} (h : c.Quiet d) : d.var = c.var := by rw [h.1]
theorem Core.Quiet.now {c d : Core} (h : c.Quiet d) : d.now = c.now := by rw [h.1]
theorem Core.Quiet.ptpOff {c d : Core} (h : c.Quiet d) : d.ptpOff = c.ptpOff := by rw [h.1]
theorem Core.Quiet.owners {c d : Core} (h : c.Quiet d) : d.owners = c.owners := by rw [h.1]
theorem Core.Quiet.mem {c d : Core} (h : c.Quiet d) : d.mem = c.mem := by rw [h.1]
theorem Core.Quiet.posted {c d : Core} (h : c.Quiet d) : d.posted = c.posted := by rw [h.1]
theorem Core.Quiet.flips {c d : Core} (h : c.Quiet d) : d.flips = c.flips := by rw [h.1]
theorem Core.Quiet.poison {c d : Core} (h : c.Quiet d) : d.poison = c.poison := by rw [h.1]
theorem Core.Quiet.resp {c d : Core} (h : c.Quiet d) : d.resp = c.resp := by rw [h.1]
theorem Core.Quiet.free {c d : Core} (h : c.Quiet d) : d.free = c.free := by rw [h.1]
theorem Core.Quiet.loLatch {c d : Core} (h : c.Quiet d) : d.loLatch = c.loLatch := by rw [h.1]
theorem Core.Quiet.tkg {c d : Core} (h : c.Quiet d) : d.tkg = c.tkg := by rw [h.1]
theorem Core.Quiet.adm {c d : Core} (h : c.Quiet d) : d.adm = c.adm := by rw [h.1]
theorem Core.Quiet.seqs {c d : Core} (h : c.Quiet d) : d.seqs = c.seqs := by rw [h.1]
theorem Core.Quiet.seqTicks {c d : Core} (h : c.Quiet d) : d.seqTicks = c.seqTicks := by rw [h.1]
theorem Core.Quiet.parts {c d : Core} (h : c.Quiet d) : d.parts = c.parts := by rw [h.1]
theorem Core.Quiet.partRuns {c d : Core} (h : c.Quiet d) : d.partRuns = c.partRuns := by rw [h.1]
theorem Core.Quiet.pot {c d : Core} (h : c.Quiet d) : d.pot = c.pot := by rw [h.1]
theorem Core.Quiet.cycNum {c d : Core} (h : c.Quiet d) : d.cycNum = c.cycNum := by rw [h.1]
theorem Core.Quiet.cycAt {c d : Core} (h : c.Quiet d) : d.cycAt = c.cycAt := by rw [h.1]
theorem Core.Quiet.bootKeys {c d : Core} (h : c.Quiet d) : d.bootKeys = c.bootKeys := by rw [h.1]
theorem Core.Quiet.dmc {c d : Core} (h : c.Quiet d) : d.dmc = c.dmc := by rw [h.1]
theorem Core.Quiet.dmas {c d : Core} (h : c.Quiet d) : d.dmas = c.dmas := by rw [h.1]
theorem Core.Quiet.crcs {c d : Core} (h : c.Quiet d) : d.crcs = c.crcs := by rw [h.1]
theorem Core.Quiet.slots {c d : Core} (h : c.Quiet d) : d.slots = c.slots := by rw [h.1]
theorem Core.Quiet.netCnt {c d : Core} (h : c.Quiet d) : d.netCnt = c.netCnt := by rw [h.1]
theorem Core.Quiet.vctxs {c d : Core} (h : c.Quiet d) : d.vctxs = c.vctxs := by rw [h.1]
theorem Core.Quiet.heads {c d : Core} (h : c.Quiet d) : d.heads = c.heads := by rw [h.1]
theorem Core.Quiet.dpts {c d : Core} (h : c.Quiet d) : d.dpts = c.dpts := by rw [h.1]
theorem Core.Quiet.trig {c d : Core} (h : c.Quiet d) : d.trig = c.trig := by rw [h.1]
theorem Core.Quiet.pulses {c d : Core} (h : c.Quiet d) : d.pulses = c.pulses := by rw [h.1]
theorem Core.Quiet.encs {c d : Core} (h : c.Quiet d) : d.encs = c.encs := by rw [h.1]
theorem Core.Quiet.encCaches {c d : Core} (h : c.Quiet d) : d.encCaches = c.encCaches := by rw [h.1]
theorem Core.Quiet.wit {c d : Core} (h : c.Quiet d) : d.wit = c.wit := by rw [h.1]
theorem Core.Quiet.cave {c d : Core} (h : c.Quiet d) : d.cave = c.cave := by rw [h.1]
theorem Core.Quiet.aud {c d : Core} (h : c.Quiet d) : d.aud = c.aud := by rw [h.1]
theorem Core.Quiet.tchs {c d : Core} (h : c.Quiet d) : d.tchs = c.tchs := by rw [h.1]
theorem Core.Quiet.hpts {c d : Core} (h : c.Quiet d) : d.hpts = c.hpts := by rw [h.1]
theorem Core.Quiet.hostIf {c d : Core} (h : c.Quiet d) : d.hostIf = c.hostIf := by rw [h.1]
theorem Core.Quiet.rgl {c d : Core} (h : c.Quiet d) : d.rgl = c.rgl := by rw [h.1]
theorem Core.Quiet.pwr {c d : Core} (h : c.Quiet d) : d.pwr = c.pwr := by rw [h.1]
theorem Core.Quiet.boot {c d : Core} (h : c.Quiet d) : d.boot = c.boot := by rw [h.1]
theorem Core.Quiet.leResets {c d : Core} (h : c.Quiet d) : d.leResets = c.leResets := by rw [h.1]

/-! ### `set` -/

@[simp] theorem var_set (c : Core) (r : Reg) (v : W32) : (c.set r v).var = c.var := (quiet_set c r v).var
@[simp] theorem now_set (c : Core) (r : Reg) (v : W32) : (c.set r v).now = c.now := (quiet_set c r v).now
@[simp] theorem ptpOff_set (c : Core) (r : Reg) (v : W32) : (c.set r v).ptpOff = c.ptpOff := (quiet_set c r v).ptpOff
@[simp] theorem owners_set (c : Core) (r : Reg) (v : W32) : (c.set r v).owners = c.owners := (quiet_set c r v).owners
@[simp] theorem mem_set (c : Core) (r : Reg) (v : W32) : (c.set r v).mem = c.mem := (quiet_set c r v).mem
@[simp] theorem posted_set (c : Core) (r : Reg) (v : W32) : (c.set r v).posted = c.posted := (quiet_set c r v).posted
@[simp] theorem flips_set (c : Core) (r : Reg) (v : W32) : (c.set r v).flips = c.flips := (quiet_set c r v).flips
@[simp] theorem poison_set (c : Core) (r : Reg) (v : W32) : (c.set r v).poison = c.poison := (quiet_set c r v).poison
@[simp] theorem resp_set (c : Core) (r : Reg) (v : W32) : (c.set r v).resp = c.resp := (quiet_set c r v).resp
@[simp] theorem free_set (c : Core) (r : Reg) (v : W32) : (c.set r v).free = c.free := (quiet_set c r v).free
@[simp] theorem loLatch_set (c : Core) (r : Reg) (v : W32) : (c.set r v).loLatch = c.loLatch := (quiet_set c r v).loLatch
@[simp] theorem tkg_set (c : Core) (r : Reg) (v : W32) : (c.set r v).tkg = c.tkg := (quiet_set c r v).tkg
@[simp] theorem adm_set (c : Core) (r : Reg) (v : W32) : (c.set r v).adm = c.adm := (quiet_set c r v).adm
@[simp] theorem seqs_set (c : Core) (r : Reg) (v : W32) : (c.set r v).seqs = c.seqs := (quiet_set c r v).seqs
@[simp] theorem seqTicks_set (c : Core) (r : Reg) (v : W32) : (c.set r v).seqTicks = c.seqTicks := (quiet_set c r v).seqTicks
@[simp] theorem parts_set (c : Core) (r : Reg) (v : W32) : (c.set r v).parts = c.parts := (quiet_set c r v).parts
@[simp] theorem partRuns_set (c : Core) (r : Reg) (v : W32) : (c.set r v).partRuns = c.partRuns := (quiet_set c r v).partRuns
@[simp] theorem pot_set (c : Core) (r : Reg) (v : W32) : (c.set r v).pot = c.pot := (quiet_set c r v).pot
@[simp] theorem cycNum_set (c : Core) (r : Reg) (v : W32) : (c.set r v).cycNum = c.cycNum := (quiet_set c r v).cycNum
@[simp] theorem cycAt_set (c : Core) (r : Reg) (v : W32) : (c.set r v).cycAt = c.cycAt := (quiet_set c r v).cycAt
@[simp] theorem bootKeys_set (c : Core) (r : Reg) (v : W32) : (c.set r v).bootKeys = c.bootKeys := (quiet_set c r v).bootKeys
@[simp] theorem dmc_set (c : Core) (r : Reg) (v : W32) : (c.set r v).dmc = c.dmc := (quiet_set c r v).dmc
@[simp] theorem dmas_set (c : Core) (r : Reg) (v : W32) : (c.set r v).dmas = c.dmas := (quiet_set c r v).dmas
@[simp] theorem crcs_set (c : Core) (r : Reg) (v : W32) : (c.set r v).crcs = c.crcs := (quiet_set c r v).crcs
@[simp] theorem slots_set (c : Core) (r : Reg) (v : W32) : (c.set r v).slots = c.slots := (quiet_set c r v).slots
@[simp] theorem netCnt_set (c : Core) (r : Reg) (v : W32) : (c.set r v).netCnt = c.netCnt := (quiet_set c r v).netCnt
@[simp] theorem vctxs_set (c : Core) (r : Reg) (v : W32) : (c.set r v).vctxs = c.vctxs := (quiet_set c r v).vctxs
@[simp] theorem heads_set (c : Core) (r : Reg) (v : W32) : (c.set r v).heads = c.heads := (quiet_set c r v).heads
@[simp] theorem dpts_set (c : Core) (r : Reg) (v : W32) : (c.set r v).dpts = c.dpts := (quiet_set c r v).dpts
@[simp] theorem trig_set (c : Core) (r : Reg) (v : W32) : (c.set r v).trig = c.trig := (quiet_set c r v).trig
@[simp] theorem pulses_set (c : Core) (r : Reg) (v : W32) : (c.set r v).pulses = c.pulses := (quiet_set c r v).pulses
@[simp] theorem encs_set (c : Core) (r : Reg) (v : W32) : (c.set r v).encs = c.encs := (quiet_set c r v).encs
@[simp] theorem encCaches_set (c : Core) (r : Reg) (v : W32) : (c.set r v).encCaches = c.encCaches := (quiet_set c r v).encCaches
@[simp] theorem wit_set (c : Core) (r : Reg) (v : W32) : (c.set r v).wit = c.wit := (quiet_set c r v).wit
@[simp] theorem cave_set (c : Core) (r : Reg) (v : W32) : (c.set r v).cave = c.cave := (quiet_set c r v).cave
@[simp] theorem aud_set (c : Core) (r : Reg) (v : W32) : (c.set r v).aud = c.aud := (quiet_set c r v).aud
@[simp] theorem tchs_set (c : Core) (r : Reg) (v : W32) : (c.set r v).tchs = c.tchs := (quiet_set c r v).tchs
@[simp] theorem hpts_set (c : Core) (r : Reg) (v : W32) : (c.set r v).hpts = c.hpts := (quiet_set c r v).hpts
@[simp] theorem hostIf_set (c : Core) (r : Reg) (v : W32) : (c.set r v).hostIf = c.hostIf := (quiet_set c r v).hostIf
@[simp] theorem rgl_set (c : Core) (r : Reg) (v : W32) : (c.set r v).rgl = c.rgl := (quiet_set c r v).rgl
@[simp] theorem pwr_set (c : Core) (r : Reg) (v : W32) : (c.set r v).pwr = c.pwr := (quiet_set c r v).pwr
@[simp] theorem boot_set (c : Core) (r : Reg) (v : W32) : (c.set r v).boot = c.boot := (quiet_set c r v).boot
@[simp] theorem leResets_set (c : Core) (r : Reg) (v : W32) : (c.set r v).leResets = c.leResets := (quiet_set c r v).leResets

/-! ### `setF` -/

@[simp] theorem var_setF (c : Core) (r : Reg) (hi lo n : Nat) : (c.setF r hi lo n).var = c.var := (quiet_set c r _).var
@[simp] theorem now_setF (c : Core) (r : Reg) (hi lo n : Nat) : (c.setF r hi lo n).now = c.now := (quiet_set c r _).now
@[simp] theorem ptpOff_setF (c : Core) (r : Reg) (hi lo n : Nat) : (c.setF r hi lo n).ptpOff = c.ptpOff := (quiet_set c r _).ptpOff
@[simp] theorem owners_setF (c : Core) (r : Reg) (hi lo n : Nat) : (c.setF r hi lo n).owners = c.owners := (quiet_set c r _).owners
@[simp] theorem mem_setF (c : Core) (r : Reg) (hi lo n : Nat) : (c.setF r hi lo n).mem = c.mem := (quiet_set c r _).mem
@[simp] theorem posted_setF (c : Core) (r : Reg) (hi lo n : Nat) : (c.setF r hi lo n).posted = c.posted := (quiet_set c r _).posted
@[simp] theorem flips_setF (c : Core) (r : Reg) (hi lo n : Nat) : (c.setF r hi lo n).flips = c.flips := (quiet_set c r _).flips
@[simp] theorem poison_setF (c : Core) (r : Reg) (hi lo n : Nat) : (c.setF r hi lo n).poison = c.poison := (quiet_set c r _).poison
@[simp] theorem resp_setF (c : Core) (r : Reg) (hi lo n : Nat) : (c.setF r hi lo n).resp = c.resp := (quiet_set c r _).resp
@[simp] theorem free_setF (c : Core) (r : Reg) (hi lo n : Nat) : (c.setF r hi lo n).free = c.free := (quiet_set c r _).free
@[simp] theorem loLatch_setF (c : Core) (r : Reg) (hi lo n : Nat) : (c.setF r hi lo n).loLatch = c.loLatch := (quiet_set c r _).loLatch
@[simp] theorem tkg_setF (c : Core) (r : Reg) (hi lo n : Nat) : (c.setF r hi lo n).tkg = c.tkg := (quiet_set c r _).tkg
@[simp] theorem adm_setF (c : Core) (r : Reg) (hi lo n : Nat) : (c.setF r hi lo n).adm = c.adm := (quiet_set c r _).adm
@[simp] theorem seqs_setF (c : Core) (r : Reg) (hi lo n : Nat) : (c.setF r hi lo n).seqs = c.seqs := (quiet_set c r _).seqs
@[simp] theorem seqTicks_setF (c : Core) (r : Reg) (hi lo n : Nat) : (c.setF r hi lo n).seqTicks = c.seqTicks := (quiet_set c r _).seqTicks
@[simp] theorem parts_setF (c : Core) (r : Reg) (hi lo n : Nat) : (c.setF r hi lo n).parts = c.parts := (quiet_set c r _).parts
@[simp] theorem partRuns_setF (c : Core) (r : Reg) (hi lo n : Nat) : (c.setF r hi lo n).partRuns = c.partRuns := (quiet_set c r _).partRuns
@[simp] theorem pot_setF (c : Core) (r : Reg) (hi lo n : Nat) : (c.setF r hi lo n).pot = c.pot := (quiet_set c r _).pot
@[simp] theorem cycNum_setF (c : Core) (r : Reg) (hi lo n : Nat) : (c.setF r hi lo n).cycNum = c.cycNum := (quiet_set c r _).cycNum
@[simp] theorem cycAt_setF (c : Core) (r : Reg) (hi lo n : Nat) : (c.setF r hi lo n).cycAt = c.cycAt := (quiet_set c r _).cycAt
@[simp] theorem bootKeys_setF (c : Core) (r : Reg) (hi lo n : Nat) : (c.setF r hi lo n).bootKeys = c.bootKeys := (quiet_set c r _).bootKeys
@[simp] theorem dmc_setF (c : Core) (r : Reg) (hi lo n : Nat) : (c.setF r hi lo n).dmc = c.dmc := (quiet_set c r _).dmc
@[simp] theorem dmas_setF (c : Core) (r : Reg) (hi lo n : Nat) : (c.setF r hi lo n).dmas = c.dmas := (quiet_set c r _).dmas
@[simp] theorem crcs_setF (c : Core) (r : Reg) (hi lo n : Nat) : (c.setF r hi lo n).crcs = c.crcs := (quiet_set c r _).crcs
@[simp] theorem slots_setF (c : Core) (r : Reg) (hi lo n : Nat) : (c.setF r hi lo n).slots = c.slots := (quiet_set c r _).slots
@[simp] theorem netCnt_setF (c : Core) (r : Reg) (hi lo n : Nat) : (c.setF r hi lo n).netCnt = c.netCnt := (quiet_set c r _).netCnt
@[simp] theorem vctxs_setF (c : Core) (r : Reg) (hi lo n : Nat) : (c.setF r hi lo n).vctxs = c.vctxs := (quiet_set c r _).vctxs
@[simp] theorem heads_setF (c : Core) (r : Reg) (hi lo n : Nat) : (c.setF r hi lo n).heads = c.heads := (quiet_set c r _).heads
@[simp] theorem dpts_setF (c : Core) (r : Reg) (hi lo n : Nat) : (c.setF r hi lo n).dpts = c.dpts := (quiet_set c r _).dpts
@[simp] theorem trig_setF (c : Core) (r : Reg) (hi lo n : Nat) : (c.setF r hi lo n).trig = c.trig := (quiet_set c r _).trig
@[simp] theorem pulses_setF (c : Core) (r : Reg) (hi lo n : Nat) : (c.setF r hi lo n).pulses = c.pulses := (quiet_set c r _).pulses
@[simp] theorem encs_setF (c : Core) (r : Reg) (hi lo n : Nat) : (c.setF r hi lo n).encs = c.encs := (quiet_set c r _).encs
@[simp] theorem encCaches_setF (c : Core) (r : Reg) (hi lo n : Nat) : (c.setF r hi lo n).encCaches = c.encCaches := (quiet_set c r _).encCaches
@[simp] theorem wit_setF (c : Core) (r : Reg) (hi lo n : Nat) : (c.setF r hi lo n).wit = c.wit := (quiet_set c r _).wit
@[simp] theorem cave_setF (c : Core) (r : Reg) (hi lo n : Nat) : (c.setF r hi lo n).cave = c.cave := (quiet_set c r _).cave
@[simp] theorem aud_setF (c : Core) (r : Reg) (hi lo n : Nat) : (c.setF r hi lo n).aud = c.aud := (quiet_set c r _).aud
@[simp] theorem tchs_setF (c : Core) (r : Reg) (hi lo n : Nat) : (c.setF r hi lo n).tchs = c.tchs := (quiet_set c r _).tchs
@[simp] theorem hpts_setF (c : Core) (r : Reg) (hi lo n : Nat) : (c.setF r hi lo n).hpts = c.hpts := (quiet_set c r _).hpts
@[simp] theorem hostIf_setF (c : Core) (r : Reg) (hi lo n : Nat) : (c.setF r hi lo n).hostIf = c.hostIf := (quiet_set c r _).hostIf
@[simp] theorem rgl_setF (c : Core) (r : Reg) (hi lo n : Nat) : (c.setF r hi lo n).rgl = c.rgl := (quiet_set c r _).rgl
@[simp] theorem pwr_setF (c : Core) (r : Reg) (hi lo n : Nat) : (c.setF r hi lo n).pwr = c.pwr := (quiet_set c r _).pwr
@[simp] theorem boot_setF (c : Core) (r : Reg) (hi lo n : Nat) : (c.setF r hi lo n).boot = c.boot := (quiet_set c r _).boot
@[simp] theorem leResets_setF (c : Core) (r : Reg) (hi lo n : Nat) : (c.setF r hi lo n).leResets = c.leResets := (quiet_set c r _).leResets

/-! ### `setB` -/

@[simp] theorem var_setB (c : Core) (r : Reg) (i : Nat) (b : Bool) : (c.setB r i b).var = c.var := (quiet_set c r _).var
@[simp] theorem now_setB (c : Core) (r : Reg) (i : Nat) (b : Bool) : (c.setB r i b).now = c.now := (quiet_set c r _).now
@[simp] theorem ptpOff_setB (c : Core) (r : Reg) (i : Nat) (b : Bool) : (c.setB r i b).ptpOff = c.ptpOff := (quiet_set c r _).ptpOff
@[simp] theorem owners_setB (c : Core) (r : Reg) (i : Nat) (b : Bool) : (c.setB r i b).owners = c.owners := (quiet_set c r _).owners
@[simp] theorem mem_setB (c : Core) (r : Reg) (i : Nat) (b : Bool) : (c.setB r i b).mem = c.mem := (quiet_set c r _).mem
@[simp] theorem posted_setB (c : Core) (r : Reg) (i : Nat) (b : Bool) : (c.setB r i b).posted = c.posted := (quiet_set c r _).posted
@[simp] theorem flips_setB (c : Core) (r : Reg) (i : Nat) (b : Bool) : (c.setB r i b).flips = c.flips := (quiet_set c r _).flips
@[simp] theorem poison_setB (c : Core) (r : Reg) (i : Nat) (b : Bool) : (c.setB r i b).poison = c.poison := (quiet_set c r _).poison
@[simp] theorem resp_setB (c : Core) (r : Reg) (i : Nat) (b : Bool) : (c.setB r i b).resp = c.resp := (quiet_set c r _).resp
@[simp] theorem free_setB (c : Core) (r : Reg) (i : Nat) (b : Bool) : (c.setB r i b).free = c.free := (quiet_set c r _).free
@[simp] theorem loLatch_setB (c : Core) (r : Reg) (i : Nat) (b : Bool) : (c.setB r i b).loLatch = c.loLatch := (quiet_set c r _).loLatch
@[simp] theorem tkg_setB (c : Core) (r : Reg) (i : Nat) (b : Bool) : (c.setB r i b).tkg = c.tkg := (quiet_set c r _).tkg
@[simp] theorem adm_setB (c : Core) (r : Reg) (i : Nat) (b : Bool) : (c.setB r i b).adm = c.adm := (quiet_set c r _).adm
@[simp] theorem seqs_setB (c : Core) (r : Reg) (i : Nat) (b : Bool) : (c.setB r i b).seqs = c.seqs := (quiet_set c r _).seqs
@[simp] theorem seqTicks_setB (c : Core) (r : Reg) (i : Nat) (b : Bool) : (c.setB r i b).seqTicks = c.seqTicks := (quiet_set c r _).seqTicks
@[simp] theorem parts_setB (c : Core) (r : Reg) (i : Nat) (b : Bool) : (c.setB r i b).parts = c.parts := (quiet_set c r _).parts
@[simp] theorem partRuns_setB (c : Core) (r : Reg) (i : Nat) (b : Bool) : (c.setB r i b).partRuns = c.partRuns := (quiet_set c r _).partRuns
@[simp] theorem pot_setB (c : Core) (r : Reg) (i : Nat) (b : Bool) : (c.setB r i b).pot = c.pot := (quiet_set c r _).pot
@[simp] theorem cycNum_setB (c : Core) (r : Reg) (i : Nat) (b : Bool) : (c.setB r i b).cycNum = c.cycNum := (quiet_set c r _).cycNum
@[simp] theorem cycAt_setB (c : Core) (r : Reg) (i : Nat) (b : Bool) : (c.setB r i b).cycAt = c.cycAt := (quiet_set c r _).cycAt
@[simp] theorem bootKeys_setB (c : Core) (r : Reg) (i : Nat) (b : Bool) : (c.setB r i b).bootKeys = c.bootKeys := (quiet_set c r _).bootKeys
@[simp] theorem dmc_setB (c : Core) (r : Reg) (i : Nat) (b : Bool) : (c.setB r i b).dmc = c.dmc := (quiet_set c r _).dmc
@[simp] theorem dmas_setB (c : Core) (r : Reg) (i : Nat) (b : Bool) : (c.setB r i b).dmas = c.dmas := (quiet_set c r _).dmas
@[simp] theorem crcs_setB (c : Core) (r : Reg) (i : Nat) (b : Bool) : (c.setB r i b).crcs = c.crcs := (quiet_set c r _).crcs
@[simp] theorem slots_setB (c : Core) (r : Reg) (i : Nat) (b : Bool) : (c.setB r i b).slots = c.slots := (quiet_set c r _).slots
@[simp] theorem netCnt_setB (c : Core) (r : Reg) (i : Nat) (b : Bool) : (c.setB r i b).netCnt = c.netCnt := (quiet_set c r _).netCnt
@[simp] theorem vctxs_setB (c : Core) (r : Reg) (i : Nat) (b : Bool) : (c.setB r i b).vctxs = c.vctxs := (quiet_set c r _).vctxs
@[simp] theorem heads_setB (c : Core) (r : Reg) (i : Nat) (b : Bool) : (c.setB r i b).heads = c.heads := (quiet_set c r _).heads
@[simp] theorem dpts_setB (c : Core) (r : Reg) (i : Nat) (b : Bool) : (c.setB r i b).dpts = c.dpts := (quiet_set c r _).dpts
@[simp] theorem trig_setB (c : Core) (r : Reg) (i : Nat) (b : Bool) : (c.setB r i b).trig = c.trig := (quiet_set c r _).trig
@[simp] theorem pulses_setB (c : Core) (r : Reg) (i : Nat) (b : Bool) : (c.setB r i b).pulses = c.pulses := (quiet_set c r _).pulses
@[simp] theorem encs_setB (c : Core) (r : Reg) (i : Nat) (b : Bool) : (c.setB r i b).encs = c.encs := (quiet_set c r _).encs
@[simp] theorem encCaches_setB (c : Core) (r : Reg) (i : Nat) (b : Bool) : (c.setB r i b).encCaches = c.encCaches := (quiet_set c r _).encCaches
@[simp] theorem wit_setB (c : Core) (r : Reg) (i : Nat) (b : Bool) : (c.setB r i b).wit = c.wit := (quiet_set c r _).wit
@[simp] theorem cave_setB (c : Core) (r : Reg) (i : Nat) (b : Bool) : (c.setB r i b).cave = c.cave := (quiet_set c r _).cave
@[simp] theorem aud_setB (c : Core) (r : Reg) (i : Nat) (b : Bool) : (c.setB r i b).aud = c.aud := (quiet_set c r _).aud
@[simp] theorem tchs_setB (c : Core) (r : Reg) (i : Nat) (b : Bool) : (c.setB r i b).tchs = c.tchs := (quiet_set c r _).tchs
@[simp] theorem hpts_setB (c : Core) (r : Reg) (i : Nat) (b : Bool) : (c.setB r i b).hpts = c.hpts := (quiet_set c r _).hpts
@[simp] theorem hostIf_setB (c : Core) (r : Reg) (i : Nat) (b : Bool) : (c.setB r i b).hostIf = c.hostIf := (quiet_set c r _).hostIf
@[simp] theorem rgl_setB (c : Core) (r : Reg) (i : Nat) (b : Bool) : (c.setB r i b).rgl = c.rgl := (quiet_set c r _).rgl
@[simp] theorem pwr_setB (c : Core) (r : Reg) (i : Nat) (b : Bool) : (c.setB r i b).pwr = c.pwr := (quiet_set c r _).pwr
@[simp] theorem boot_setB (c : Core) (r : Reg) (i : Nat) (b : Bool) : (c.setB r i b).boot = c.boot := (quiet_set c r _).boot
@[simp] theorem leResets_setB (c : Core) (r : Reg) (i : Nat) (b : Bool) : (c.setB r i b).leResets = c.leResets := (quiet_set c r _).leResets

/-! ### `addSat` -/

@[simp] theorem var_addSat (c : Core) (r : Reg) (hi lo n : Nat) : (c.addSat r hi lo n).var = c.var := (quiet_set c r _).var
@[simp] theorem now_addSat (c : Core) (r : Reg) (hi lo n : Nat) : (c.addSat r hi lo n).now = c.now := (quiet_set c r _).now
@[simp] theorem ptpOff_addSat (c : Core) (r : Reg) (hi lo n : Nat) : (c.addSat r hi lo n).ptpOff = c.ptpOff := (quiet_set c r _).ptpOff
@[simp] theorem owners_addSat (c : Core) (r : Reg) (hi lo n : Nat) : (c.addSat r hi lo n).owners = c.owners := (quiet_set c r _).owners
@[simp] theorem mem_addSat (c : Core) (r : Reg) (hi lo n : Nat) : (c.addSat r hi lo n).mem = c.mem := (quiet_set c r _).mem
@[simp] theorem posted_addSat (c : Core) (r : Reg) (hi lo n : Nat) : (c.addSat r hi lo n).posted = c.posted := (quiet_set c r _).posted
@[simp] theorem flips_addSat (c : Core) (r : Reg) (hi lo n : Nat) : (c.addSat r hi lo n).flips = c.flips := (quiet_set c r _).flips
@[simp] theorem poison_addSat (c : Core) (r : Reg) (hi lo n : Nat) : (c.addSat r hi lo n).poison = c.poison := (quiet_set c r _).poison
@[simp] theorem resp_addSat (c : Core) (r : Reg) (hi lo n : Nat) : (c.addSat r hi lo n).resp = c.resp := (quiet_set c r _).resp
@[simp] theorem free_addSat (c : Core) (r : Reg) (hi lo n : Nat) : (c.addSat r hi lo n).free = c.free := (quiet_set c r _).free
@[simp] theorem loLatch_addSat (c : Core) (r : Reg) (hi lo n : Nat) : (c.addSat r hi lo n).loLatch = c.loLatch := (quiet_set c r _).loLatch
@[simp] theorem tkg_addSat (c : Core) (r : Reg) (hi lo n : Nat) : (c.addSat r hi lo n).tkg = c.tkg := (quiet_set c r _).tkg
@[simp] theorem adm_addSat (c : Core) (r : Reg) (hi lo n : Nat) : (c.addSat r hi lo n).adm = c.adm := (quiet_set c r _).adm
@[simp] theorem seqs_addSat (c : Core) (r : Reg) (hi lo n : Nat) : (c.addSat r hi lo n).seqs = c.seqs := (quiet_set c r _).seqs
@[simp] theorem seqTicks_addSat (c : Core) (r : Reg) (hi lo n : Nat) : (c.addSat r hi lo n).seqTicks = c.seqTicks := (quiet_set c r _).seqTicks
@[simp] theorem parts_addSat (c : Core) (r : Reg) (hi lo n : Nat) : (c.addSat r hi lo n).parts = c.parts := (quiet_set c r _).parts
@[simp] theorem partRuns_addSat (c : Core) (r : Reg) (hi lo n : Nat) : (c.addSat r hi lo n).partRuns = c.partRuns := (quiet_set c r _).partRuns
@[simp] theorem pot_addSat (c : Core) (r : Reg) (hi lo n : Nat) : (c.addSat r hi lo n).pot = c.pot := (quiet_set c r _).pot
@[simp] theorem cycNum_addSat (c : Core) (r : Reg) (hi lo n : Nat) : (c.addSat r hi lo n).cycNum = c.cycNum := (quiet_set c r _).cycNum
@[simp] theorem cycAt_addSat (c : Core) (r : Reg) (hi lo n : Nat) : (c.addSat r hi lo n).cycAt = c.cycAt := (quiet_set c r _).cycAt
@[simp] theorem bootKeys_addSat (c : Core) (r : Reg) (hi lo n : Nat) : (c.addSat r hi lo n).bootKeys = c.bootKeys := (quiet_set c r _).bootKeys
@[simp] theorem dmc_addSat (c : Core) (r : Reg) (hi lo n : Nat) : (c.addSat r hi lo n).dmc = c.dmc := (quiet_set c r _).dmc
@[simp] theorem dmas_addSat (c : Core) (r : Reg) (hi lo n : Nat) : (c.addSat r hi lo n).dmas = c.dmas := (quiet_set c r _).dmas
@[simp] theorem crcs_addSat (c : Core) (r : Reg) (hi lo n : Nat) : (c.addSat r hi lo n).crcs = c.crcs := (quiet_set c r _).crcs
@[simp] theorem slots_addSat (c : Core) (r : Reg) (hi lo n : Nat) : (c.addSat r hi lo n).slots = c.slots := (quiet_set c r _).slots
@[simp] theorem netCnt_addSat (c : Core) (r : Reg) (hi lo n : Nat) : (c.addSat r hi lo n).netCnt = c.netCnt := (quiet_set c r _).netCnt
@[simp] theorem vctxs_addSat (c : Core) (r : Reg) (hi lo n : Nat) : (c.addSat r hi lo n).vctxs = c.vctxs := (quiet_set c r _).vctxs
@[simp] theorem heads_addSat (c : Core) (r : Reg) (hi lo n : Nat) : (c.addSat r hi lo n).heads = c.heads := (quiet_set c r _).heads
@[simp] theorem dpts_addSat (c : Core) (r : Reg) (hi lo n : Nat) : (c.addSat r hi lo n).dpts = c.dpts := (quiet_set c r _).dpts
@[simp] theorem trig_addSat (c : Core) (r : Reg) (hi lo n : Nat) : (c.addSat r hi lo n).trig = c.trig := (quiet_set c r _).trig
@[simp] theorem pulses_addSat (c : Core) (r : Reg) (hi lo n : Nat) : (c.addSat r hi lo n).pulses = c.pulses := (quiet_set c r _).pulses
@[simp] theorem encs_addSat (c : Core) (r : Reg) (hi lo n : Nat) : (c.addSat r hi lo n).encs = c.encs := (quiet_set c r _).encs
@[simp] theorem encCaches_addSat (c : Core) (r : Reg) (hi lo n : Nat) : (c.addSat r hi lo n).encCaches = c.encCaches := (quiet_set c r _).encCaches
@[simp] theorem wit_addSat (c : Core) (r : Reg) (hi lo n : Nat) : (c.addSat r hi lo n).wit = c.wit := (quiet_set c r _).wit
@[simp] theorem cave_addSat (c : Core) (r : Reg) (hi lo n : Nat) : (c.addSat r hi lo n).cave = c.cave := (quiet_set c r _).cave
@[simp] theorem aud_addSat (c : Core) (r : Reg) (hi lo n : Nat) : (c.addSat r hi lo n).aud = c.aud := (quiet_set c r _).aud
@[simp] theorem tchs_addSat (c : Core) (r : Reg) (hi lo n : Nat) : (c.addSat r hi lo n).tchs = c.tchs := (quiet_set c r _).tchs
@[simp] theorem hpts_addSat (c : Core) (r : Reg) (hi lo n : Nat) : (c.addSat r hi lo n).hpts = c.hpts := (quiet_set c r _).hpts
@[simp] theorem hostIf_addSat (c : Core) (r : Reg) (hi lo n : Nat) : (c.addSat r hi lo n).hostIf = c.hostIf := (quiet_set c r _).hostIf
@[simp] theorem rgl_addSat (c : Core) (r : Reg) (hi lo n : Nat) : (c.addSat r hi lo n).rgl = c.rgl := (quiet_set c r _).rgl
@[simp] theorem pwr_addSat (c : Core) (r : Reg) (hi lo n : Nat) : (c.addSat r hi lo n).pwr = c.pwr := (quiet_set c r _).pwr
@[simp] theorem boot_addSat (c : Core) (r : Reg) (hi lo n : Nat) : (c.addSat r hi lo n).boot = c.boot := (quiet_set c r _).boot
@[simp] theorem leResets_addSat (c : Core) (r : Reg) (hi lo n : Nat) : (c.addSat r hi lo n).leResets = c.leResets := (quiet_set c r _).leResets

/-! ### `raise` -/

@[simp] theorem var_raise (c : Core) (s : Nat) : (c.raise s).var = c.var := (quiet_raise c s).var
@[simp] theorem now_raise (c : Core) (s : Nat) : (c.raise s).now = c.now := (quiet_raise c s).now
@[simp] theorem ptpOff_raise (c : Core) (s : Nat) : (c.raise s).ptpOff = c.ptpOff := (quiet_raise c s).ptpOff
@[simp] theorem owners_raise (c : Core) (s : Nat) : (c.raise s).owners = c.owners := (quiet_raise c s).owners
@[simp] theorem mem_raise (c : Core) (s : Nat) : (c.raise s).mem = c.mem := (quiet_raise c s).mem
@[simp] theorem posted_raise (c : Core) (s : Nat) : (c.raise s).posted = c.posted := (quiet_raise c s).posted
@[simp] theorem flips_raise (c : Core) (s : Nat) : (c.raise s).flips = c.flips := (quiet_raise c s).flips
@[simp] theorem poison_raise (c : Core) (s : Nat) : (c.raise s).poison = c.poison := (quiet_raise c s).poison
@[simp] theorem resp_raise (c : Core) (s : Nat) : (c.raise s).resp = c.resp := (quiet_raise c s).resp
@[simp] theorem free_raise (c : Core) (s : Nat) : (c.raise s).free = c.free := (quiet_raise c s).free
@[simp] theorem loLatch_raise (c : Core) (s : Nat) : (c.raise s).loLatch = c.loLatch := (quiet_raise c s).loLatch
@[simp] theorem tkg_raise (c : Core) (s : Nat) : (c.raise s).tkg = c.tkg := (quiet_raise c s).tkg
@[simp] theorem adm_raise (c : Core) (s : Nat) : (c.raise s).adm = c.adm := (quiet_raise c s).adm
@[simp] theorem seqs_raise (c : Core) (s : Nat) : (c.raise s).seqs = c.seqs := (quiet_raise c s).seqs
@[simp] theorem seqTicks_raise (c : Core) (s : Nat) : (c.raise s).seqTicks = c.seqTicks := (quiet_raise c s).seqTicks
@[simp] theorem parts_raise (c : Core) (s : Nat) : (c.raise s).parts = c.parts := (quiet_raise c s).parts
@[simp] theorem partRuns_raise (c : Core) (s : Nat) : (c.raise s).partRuns = c.partRuns := (quiet_raise c s).partRuns
@[simp] theorem pot_raise (c : Core) (s : Nat) : (c.raise s).pot = c.pot := (quiet_raise c s).pot
@[simp] theorem cycNum_raise (c : Core) (s : Nat) : (c.raise s).cycNum = c.cycNum := (quiet_raise c s).cycNum
@[simp] theorem cycAt_raise (c : Core) (s : Nat) : (c.raise s).cycAt = c.cycAt := (quiet_raise c s).cycAt
@[simp] theorem bootKeys_raise (c : Core) (s : Nat) : (c.raise s).bootKeys = c.bootKeys := (quiet_raise c s).bootKeys
@[simp] theorem dmc_raise (c : Core) (s : Nat) : (c.raise s).dmc = c.dmc := (quiet_raise c s).dmc
@[simp] theorem dmas_raise (c : Core) (s : Nat) : (c.raise s).dmas = c.dmas := (quiet_raise c s).dmas
@[simp] theorem crcs_raise (c : Core) (s : Nat) : (c.raise s).crcs = c.crcs := (quiet_raise c s).crcs
@[simp] theorem slots_raise (c : Core) (s : Nat) : (c.raise s).slots = c.slots := (quiet_raise c s).slots
@[simp] theorem netCnt_raise (c : Core) (s : Nat) : (c.raise s).netCnt = c.netCnt := (quiet_raise c s).netCnt
@[simp] theorem vctxs_raise (c : Core) (s : Nat) : (c.raise s).vctxs = c.vctxs := (quiet_raise c s).vctxs
@[simp] theorem heads_raise (c : Core) (s : Nat) : (c.raise s).heads = c.heads := (quiet_raise c s).heads
@[simp] theorem dpts_raise (c : Core) (s : Nat) : (c.raise s).dpts = c.dpts := (quiet_raise c s).dpts
@[simp] theorem trig_raise (c : Core) (s : Nat) : (c.raise s).trig = c.trig := (quiet_raise c s).trig
@[simp] theorem pulses_raise (c : Core) (s : Nat) : (c.raise s).pulses = c.pulses := (quiet_raise c s).pulses
@[simp] theorem encs_raise (c : Core) (s : Nat) : (c.raise s).encs = c.encs := (quiet_raise c s).encs
@[simp] theorem encCaches_raise (c : Core) (s : Nat) : (c.raise s).encCaches = c.encCaches := (quiet_raise c s).encCaches
@[simp] theorem wit_raise (c : Core) (s : Nat) : (c.raise s).wit = c.wit := (quiet_raise c s).wit
@[simp] theorem cave_raise (c : Core) (s : Nat) : (c.raise s).cave = c.cave := (quiet_raise c s).cave
@[simp] theorem aud_raise (c : Core) (s : Nat) : (c.raise s).aud = c.aud := (quiet_raise c s).aud
@[simp] theorem tchs_raise (c : Core) (s : Nat) : (c.raise s).tchs = c.tchs := (quiet_raise c s).tchs
@[simp] theorem hpts_raise (c : Core) (s : Nat) : (c.raise s).hpts = c.hpts := (quiet_raise c s).hpts
@[simp] theorem hostIf_raise (c : Core) (s : Nat) : (c.raise s).hostIf = c.hostIf := (quiet_raise c s).hostIf
@[simp] theorem rgl_raise (c : Core) (s : Nat) : (c.raise s).rgl = c.rgl := (quiet_raise c s).rgl
@[simp] theorem pwr_raise (c : Core) (s : Nat) : (c.raise s).pwr = c.pwr := (quiet_raise c s).pwr
@[simp] theorem boot_raise (c : Core) (s : Nat) : (c.raise s).boot = c.boot := (quiet_raise c s).boot
@[simp] theorem leResets_raise (c : Core) (s : Nat) : (c.raise s).leResets = c.leResets := (quiet_raise c s).leResets

/-! ### `log` -/

@[simp] theorem var_log (c : Core) (k st : Nat) (a b v x : W32) : (c.log k st a b v x).var = c.var := (quiet_log c k st a b v x).var
@[simp] theorem now_log (c : Core) (k st : Nat) (a b v x : W32) : (c.log k st a b v x).now = c.now := (quiet_log c k st a b v x).now
@[simp] theorem ptpOff_log (c : Core) (k st : Nat) (a b v x : W32) : (c.log k st a b v x).ptpOff = c.ptpOff := (quiet_log c k st a b v x).ptpOff
@[simp] theorem owners_log (c : Core) (k st : Nat) (a b v x : W32) : (c.log k st a b v x).owners = c.owners := (quiet_log c k st a b v x).owners
@[simp] theorem mem_log (c : Core) (k st : Nat) (a b v x : W32) : (c.log k st a b v x).mem = c.mem := (quiet_log c k st a b v x).mem
@[simp] theorem posted_log (c : Core) (k st : Nat) (a b v x : W32) : (c.log k st a b v x).posted = c.posted := (quiet_log c k st a b v x).posted
@[simp] theorem flips_log (c : Core) (k st : Nat) (a b v x : W32) : (c.log k st a b v x).flips = c.flips := (quiet_log c k st a b v x).flips
@[simp] theorem poison_log (c : Core) (k st : Nat) (a b v x : W32) : (c.log k st a b v x).poison = c.poison := (quiet_log c k st a b v x).poison
@[simp] theorem resp_log (c : Core) (k st : Nat) (a b v x : W32) : (c.log k st a b v x).resp = c.resp := (quiet_log c k st a b v x).resp
@[simp] theorem free_log (c : Core) (k st : Nat) (a b v x : W32) : (c.log k st a b v x).free = c.free := (quiet_log c k st a b v x).free
@[simp] theorem loLatch_log (c : Core) (k st : Nat) (a b v x : W32) : (c.log k st a b v x).loLatch = c.loLatch := (quiet_log c k st a b v x).loLatch
@[simp] theorem tkg_log (c : Core) (k st : Nat) (a b v x : W32) : (c.log k st a b v x).tkg = c.tkg := (quiet_log c k st a b v x).tkg
@[simp] theorem adm_log (c : Core) (k st : Nat) (a b v x : W32) : (c.log k st a b v x).adm = c.adm := (quiet_log c k st a b v x).adm
@[simp] theorem seqs_log (c : Core) (k st : Nat) (a b v x : W32) : (c.log k st a b v x).seqs = c.seqs := (quiet_log c k st a b v x).seqs
@[simp] theorem seqTicks_log (c : Core) (k st : Nat) (a b v x : W32) : (c.log k st a b v x).seqTicks = c.seqTicks := (quiet_log c k st a b v x).seqTicks
@[simp] theorem parts_log (c : Core) (k st : Nat) (a b v x : W32) : (c.log k st a b v x).parts = c.parts := (quiet_log c k st a b v x).parts
@[simp] theorem partRuns_log (c : Core) (k st : Nat) (a b v x : W32) : (c.log k st a b v x).partRuns = c.partRuns := (quiet_log c k st a b v x).partRuns
@[simp] theorem pot_log (c : Core) (k st : Nat) (a b v x : W32) : (c.log k st a b v x).pot = c.pot := (quiet_log c k st a b v x).pot
@[simp] theorem cycNum_log (c : Core) (k st : Nat) (a b v x : W32) : (c.log k st a b v x).cycNum = c.cycNum := (quiet_log c k st a b v x).cycNum
@[simp] theorem cycAt_log (c : Core) (k st : Nat) (a b v x : W32) : (c.log k st a b v x).cycAt = c.cycAt := (quiet_log c k st a b v x).cycAt
@[simp] theorem bootKeys_log (c : Core) (k st : Nat) (a b v x : W32) : (c.log k st a b v x).bootKeys = c.bootKeys := (quiet_log c k st a b v x).bootKeys
@[simp] theorem dmc_log (c : Core) (k st : Nat) (a b v x : W32) : (c.log k st a b v x).dmc = c.dmc := (quiet_log c k st a b v x).dmc
@[simp] theorem dmas_log (c : Core) (k st : Nat) (a b v x : W32) : (c.log k st a b v x).dmas = c.dmas := (quiet_log c k st a b v x).dmas
@[simp] theorem crcs_log (c : Core) (k st : Nat) (a b v x : W32) : (c.log k st a b v x).crcs = c.crcs := (quiet_log c k st a b v x).crcs
@[simp] theorem slots_log (c : Core) (k st : Nat) (a b v x : W32) : (c.log k st a b v x).slots = c.slots := (quiet_log c k st a b v x).slots
@[simp] theorem netCnt_log (c : Core) (k st : Nat) (a b v x : W32) : (c.log k st a b v x).netCnt = c.netCnt := (quiet_log c k st a b v x).netCnt
@[simp] theorem vctxs_log (c : Core) (k st : Nat) (a b v x : W32) : (c.log k st a b v x).vctxs = c.vctxs := (quiet_log c k st a b v x).vctxs
@[simp] theorem heads_log (c : Core) (k st : Nat) (a b v x : W32) : (c.log k st a b v x).heads = c.heads := (quiet_log c k st a b v x).heads
@[simp] theorem dpts_log (c : Core) (k st : Nat) (a b v x : W32) : (c.log k st a b v x).dpts = c.dpts := (quiet_log c k st a b v x).dpts
@[simp] theorem trig_log (c : Core) (k st : Nat) (a b v x : W32) : (c.log k st a b v x).trig = c.trig := (quiet_log c k st a b v x).trig
@[simp] theorem pulses_log (c : Core) (k st : Nat) (a b v x : W32) : (c.log k st a b v x).pulses = c.pulses := (quiet_log c k st a b v x).pulses
@[simp] theorem encs_log (c : Core) (k st : Nat) (a b v x : W32) : (c.log k st a b v x).encs = c.encs := (quiet_log c k st a b v x).encs
@[simp] theorem encCaches_log (c : Core) (k st : Nat) (a b v x : W32) : (c.log k st a b v x).encCaches = c.encCaches := (quiet_log c k st a b v x).encCaches
@[simp] theorem wit_log (c : Core) (k st : Nat) (a b v x : W32) : (c.log k st a b v x).wit = c.wit := (quiet_log c k st a b v x).wit
@[simp] theorem cave_log (c : Core) (k st : Nat) (a b v x : W32) : (c.log k st a b v x).cave = c.cave := (quiet_log c k st a b v x).cave
@[simp] theorem aud_log (c : Core) (k st : Nat) (a b v x : W32) : (c.log k st a b v x).aud = c.aud := (quiet_log c k st a b v x).aud
@[simp] theorem tchs_log (c : Core) (k st : Nat) (a b v x : W32) : (c.log k st a b v x).tchs = c.tchs := (quiet_log c k st a b v x).tchs
@[simp] theorem hpts_log (c : Core) (k st : Nat) (a b v x : W32) : (c.log k st a b v x).hpts = c.hpts := (quiet_log c k st a b v x).hpts
@[simp] theorem hostIf_log (c : Core) (k st : Nat) (a b v x : W32) : (c.log k st a b v x).hostIf = c.hostIf := (quiet_log c k st a b v x).hostIf
@[simp] theorem rgl_log (c : Core) (k st : Nat) (a b v x : W32) : (c.log k st a b v x).rgl = c.rgl := (quiet_log c k st a b v x).rgl
@[simp] theorem pwr_log (c : Core) (k st : Nat) (a b v x : W32) : (c.log k st a b v x).pwr = c.pwr := (quiet_log c k st a b v x).pwr
@[simp] theorem boot_log (c : Core) (k st : Nat) (a b v x : W32) : (c.log k st a b v x).boot = c.boot := (quiet_log c k st a b v x).boot
@[simp] theorem leResets_log (c : Core) (k st : Nat) (a b v x : W32) : (c.log k st a b v x).leResets = c.leResets := (quiet_log c k st a b v x).leResets

/-! ### `fault` -/

@[simp] theorem var_fault (c : Core) (a x y : Nat) : (c.fault a x y).var = c.var := (quiet_fault c a x y).var
@[simp] theorem now_fault (c : Core) (a x y : Nat) : (c.fault a x y).now = c.now := (quiet_fault c a x y).now
@[simp] theorem ptpOff_fault (c : Core) (a x y : Nat) : (c.fault a x y).ptpOff = c.ptpOff := (quiet_fault c a x y).ptpOff
@[simp] theorem owners_fault (c : Core) (a x y : Nat) : (c.fault a x y).owners = c.owners := (quiet_fault c a x y).owners
@[simp] theorem mem_fault (c : Core) (a x y : Nat) : (c.fault a x y).mem = c.mem := (quiet_fault c a x y).mem
@[simp] theorem posted_fault (c : Core) (a x y : Nat) : (c.fault a x y).posted = c.posted := (quiet_fault c a x y).posted
@[simp] theorem flips_fault (c : Core) (a x y : Nat) : (c.fault a x y).flips = c.flips := (quiet_fault c a x y).flips
@[simp] theorem poison_fault (c : Core) (a x y : Nat) : (c.fault a x y).poison = c.poison := (quiet_fault c a x y).poison
@[simp] theorem resp_fault (c : Core) (a x y : Nat) : (c.fault a x y).resp = c.resp := (quiet_fault c a x y).resp
@[simp] theorem free_fault (c : Core) (a x y : Nat) : (c.fault a x y).free = c.free := (quiet_fault c a x y).free
@[simp] theorem loLatch_fault (c : Core) (a x y : Nat) : (c.fault a x y).loLatch = c.loLatch := (quiet_fault c a x y).loLatch
@[simp] theorem tkg_fault (c : Core) (a x y : Nat) : (c.fault a x y).tkg = c.tkg := (quiet_fault c a x y).tkg
@[simp] theorem adm_fault (c : Core) (a x y : Nat) : (c.fault a x y).adm = c.adm := (quiet_fault c a x y).adm
@[simp] theorem seqs_fault (c : Core) (a x y : Nat) : (c.fault a x y).seqs = c.seqs := (quiet_fault c a x y).seqs
@[simp] theorem seqTicks_fault (c : Core) (a x y : Nat) : (c.fault a x y).seqTicks = c.seqTicks := (quiet_fault c a x y).seqTicks
@[simp] theorem parts_fault (c : Core) (a x y : Nat) : (c.fault a x y).parts = c.parts := (quiet_fault c a x y).parts
@[simp] theorem partRuns_fault (c : Core) (a x y : Nat) : (c.fault a x y).partRuns = c.partRuns := (quiet_fault c a x y).partRuns
@[simp] theorem pot_fault (c : Core) (a x y : Nat) : (c.fault a x y).pot = c.pot := (quiet_fault c a x y).pot
@[simp] theorem cycNum_fault (c : Core) (a x y : Nat) : (c.fault a x y).cycNum = c.cycNum := (quiet_fault c a x y).cycNum
@[simp] theorem cycAt_fault (c : Core) (a x y : Nat) : (c.fault a x y).cycAt = c.cycAt := (quiet_fault c a x y).cycAt
@[simp] theorem bootKeys_fault (c : Core) (a x y : Nat) : (c.fault a x y).bootKeys = c.bootKeys := (quiet_fault c a x y).bootKeys
@[simp] theorem dmc_fault (c : Core) (a x y : Nat) : (c.fault a x y).dmc = c.dmc := (quiet_fault c a x y).dmc
@[simp] theorem dmas_fault (c : Core) (a x y : Nat) : (c.fault a x y).dmas = c.dmas := (quiet_fault c a x y).dmas
@[simp] theorem crcs_fault (c : Core) (a x y : Nat) : (c.fault a x y).crcs = c.crcs := (quiet_fault c a x y).crcs
@[simp] theorem slots_fault (c : Core) (a x y : Nat) : (c.fault a x y).slots = c.slots := (quiet_fault c a x y).slots
@[simp] theorem netCnt_fault (c : Core) (a x y : Nat) : (c.fault a x y).netCnt = c.netCnt := (quiet_fault c a x y).netCnt
@[simp] theorem vctxs_fault (c : Core) (a x y : Nat) : (c.fault a x y).vctxs = c.vctxs := (quiet_fault c a x y).vctxs
@[simp] theorem heads_fault (c : Core) (a x y : Nat) : (c.fault a x y).heads = c.heads := (quiet_fault c a x y).heads
@[simp] theorem dpts_fault (c : Core) (a x y : Nat) : (c.fault a x y).dpts = c.dpts := (quiet_fault c a x y).dpts
@[simp] theorem trig_fault (c : Core) (a x y : Nat) : (c.fault a x y).trig = c.trig := (quiet_fault c a x y).trig
@[simp] theorem pulses_fault (c : Core) (a x y : Nat) : (c.fault a x y).pulses = c.pulses := (quiet_fault c a x y).pulses
@[simp] theorem encs_fault (c : Core) (a x y : Nat) : (c.fault a x y).encs = c.encs := (quiet_fault c a x y).encs
@[simp] theorem encCaches_fault (c : Core) (a x y : Nat) : (c.fault a x y).encCaches = c.encCaches := (quiet_fault c a x y).encCaches
@[simp] theorem wit_fault (c : Core) (a x y : Nat) : (c.fault a x y).wit = c.wit := (quiet_fault c a x y).wit
@[simp] theorem cave_fault (c : Core) (a x y : Nat) : (c.fault a x y).cave = c.cave := (quiet_fault c a x y).cave
@[simp] theorem aud_fault (c : Core) (a x y : Nat) : (c.fault a x y).aud = c.aud := (quiet_fault c a x y).aud
@[simp] theorem tchs_fault (c : Core) (a x y : Nat) : (c.fault a x y).tchs = c.tchs := (quiet_fault c a x y).tchs
@[simp] theorem hpts_fault (c : Core) (a x y : Nat) : (c.fault a x y).hpts = c.hpts := (quiet_fault c a x y).hpts
@[simp] theorem hostIf_fault (c : Core) (a x y : Nat) : (c.fault a x y).hostIf = c.hostIf := (quiet_fault c a x y).hostIf
@[simp] theorem rgl_fault (c : Core) (a x y : Nat) : (c.fault a x y).rgl = c.rgl := (quiet_fault c a x y).rgl
@[simp] theorem pwr_fault (c : Core) (a x y : Nat) : (c.fault a x y).pwr = c.pwr := (quiet_fault c a x y).pwr
@[simp] theorem boot_fault (c : Core) (a x y : Nat) : (c.fault a x y).boot = c.boot := (quiet_fault c a x y).boot
@[simp] theorem leResets_fault (c : Core) (a x y : Nat) : (c.fault a x y).leResets = c.leResets := (quiet_fault c a x y).leResets

/-! ### `faultFrom` -/

@[simp] theorem var_faultFrom (c : Core) (a b : W32) (x y : Nat) : (c.faultFrom a b x y).var = c.var := (quiet_faultFrom c a b x y).var
@[simp] theorem now_faultFrom (c : Core) (a b : W32) (x y : Nat) : (c.faultFrom a b x y).now = c.now := (quiet_faultFrom c a b x y).now
@[simp] theorem ptpOff_faultFrom (c : Core) (a b : W32) (x y : Nat) : (c.faultFrom a b x y).ptpOff = c.ptpOff := (quiet_faultFrom c a b x y).ptpOff
@[simp] theorem owners_faultFrom (c : Core) (a b : W32) (x y : Nat) : (c.faultFrom a b x y).owners = c.owners := (quiet_faultFrom c a b x y).owners
@[simp] theorem mem_faultFrom (c : Core) (a b : W32) (x y : Nat) : (c.faultFrom a b x y).mem = c.mem := (quiet_faultFrom c a b x y).mem
@[simp] theorem posted_faultFrom (c : Core) (a b : W32) (x y : Nat) : (c.faultFrom a b x y).posted = c.posted := (quiet_faultFrom c a b x y).posted
@[simp] theorem flips_faultFrom (c : Core) (a b : W32) (x y : Nat) : (c.faultFrom a b x y).flips = c.flips := (quiet_faultFrom c a b x y).flips
@[simp] theorem poison_faultFrom (c : Core) (a b : W32) (x y : Nat) : (c.faultFrom a b x y).poison = c.poison := (quiet_faultFrom c a b x y).poison
@[simp] theorem resp_faultFrom (c : Core) (a b : W32) (x y : Nat) : (c.faultFrom a b x y).resp = c.resp := (quiet_faultFrom c a b x y).resp
@[simp] theorem free_faultFrom (c : Core) (a b : W32) (x y : Nat) : (c.faultFrom a b x y).free = c.free := (quiet_faultFrom c a b x y).free
@[simp] theorem loLatch_faultFrom (c : Core) (a b : W32) (x y : Nat) : (c.faultFrom a b x y).loLatch = c.loLatch := (quiet_faultFrom c a b x y).loLatch
@[simp] theorem tkg_faultFrom (c : Core) (a b : W32) (x y : Nat) : (c.faultFrom a b x y).tkg = c.tkg := (quiet_faultFrom c a b x y).tkg
@[simp] theorem adm_faultFrom (c : Core) (a b : W32) (x y : Nat) : (c.faultFrom a b x y).adm = c.adm := (quiet_faultFrom c a b x y).adm
@[simp] theorem seqs_faultFrom (c : Core) (a b : W32) (x y : Nat) : (c.faultFrom a b x y).seqs = c.seqs := (quiet_faultFrom c a b x y).seqs
@[simp] theorem seqTicks_faultFrom (c : Core) (a b : W32) (x y : Nat) : (c.faultFrom a b x y).seqTicks = c.seqTicks := (quiet_faultFrom c a b x y).seqTicks
@[simp] theorem parts_faultFrom (c : Core) (a b : W32) (x y : Nat) : (c.faultFrom a b x y).parts = c.parts := (quiet_faultFrom c a b x y).parts
@[simp] theorem partRuns_faultFrom (c : Core) (a b : W32) (x y : Nat) : (c.faultFrom a b x y).partRuns = c.partRuns := (quiet_faultFrom c a b x y).partRuns
@[simp] theorem pot_faultFrom (c : Core) (a b : W32) (x y : Nat) : (c.faultFrom a b x y).pot = c.pot := (quiet_faultFrom c a b x y).pot
@[simp] theorem cycNum_faultFrom (c : Core) (a b : W32) (x y : Nat) : (c.faultFrom a b x y).cycNum = c.cycNum := (quiet_faultFrom c a b x y).cycNum
@[simp] theorem cycAt_faultFrom (c : Core) (a b : W32) (x y : Nat) : (c.faultFrom a b x y).cycAt = c.cycAt := (quiet_faultFrom c a b x y).cycAt
@[simp] theorem bootKeys_faultFrom (c : Core) (a b : W32) (x y : Nat) : (c.faultFrom a b x y).bootKeys = c.bootKeys := (quiet_faultFrom c a b x y).bootKeys
@[simp] theorem dmc_faultFrom (c : Core) (a b : W32) (x y : Nat) : (c.faultFrom a b x y).dmc = c.dmc := (quiet_faultFrom c a b x y).dmc
@[simp] theorem dmas_faultFrom (c : Core) (a b : W32) (x y : Nat) : (c.faultFrom a b x y).dmas = c.dmas := (quiet_faultFrom c a b x y).dmas
@[simp] theorem crcs_faultFrom (c : Core) (a b : W32) (x y : Nat) : (c.faultFrom a b x y).crcs = c.crcs := (quiet_faultFrom c a b x y).crcs
@[simp] theorem slots_faultFrom (c : Core) (a b : W32) (x y : Nat) : (c.faultFrom a b x y).slots = c.slots := (quiet_faultFrom c a b x y).slots
@[simp] theorem netCnt_faultFrom (c : Core) (a b : W32) (x y : Nat) : (c.faultFrom a b x y).netCnt = c.netCnt := (quiet_faultFrom c a b x y).netCnt
@[simp] theorem vctxs_faultFrom (c : Core) (a b : W32) (x y : Nat) : (c.faultFrom a b x y).vctxs = c.vctxs := (quiet_faultFrom c a b x y).vctxs
@[simp] theorem heads_faultFrom (c : Core) (a b : W32) (x y : Nat) : (c.faultFrom a b x y).heads = c.heads := (quiet_faultFrom c a b x y).heads
@[simp] theorem dpts_faultFrom (c : Core) (a b : W32) (x y : Nat) : (c.faultFrom a b x y).dpts = c.dpts := (quiet_faultFrom c a b x y).dpts
@[simp] theorem trig_faultFrom (c : Core) (a b : W32) (x y : Nat) : (c.faultFrom a b x y).trig = c.trig := (quiet_faultFrom c a b x y).trig
@[simp] theorem pulses_faultFrom (c : Core) (a b : W32) (x y : Nat) : (c.faultFrom a b x y).pulses = c.pulses := (quiet_faultFrom c a b x y).pulses
@[simp] theorem encs_faultFrom (c : Core) (a b : W32) (x y : Nat) : (c.faultFrom a b x y).encs = c.encs := (quiet_faultFrom c a b x y).encs
@[simp] theorem encCaches_faultFrom (c : Core) (a b : W32) (x y : Nat) : (c.faultFrom a b x y).encCaches = c.encCaches := (quiet_faultFrom c a b x y).encCaches
@[simp] theorem wit_faultFrom (c : Core) (a b : W32) (x y : Nat) : (c.faultFrom a b x y).wit = c.wit := (quiet_faultFrom c a b x y).wit
@[simp] theorem cave_faultFrom (c : Core) (a b : W32) (x y : Nat) : (c.faultFrom a b x y).cave = c.cave := (quiet_faultFrom c a b x y).cave
@[simp] theorem aud_faultFrom (c : Core) (a b : W32) (x y : Nat) : (c.faultFrom a b x y).aud = c.aud := (quiet_faultFrom c a b x y).aud
@[simp] theorem tchs_faultFrom (c : Core) (a b : W32) (x y : Nat) : (c.faultFrom a b x y).tchs = c.tchs := (quiet_faultFrom c a b x y).tchs
@[simp] theorem hpts_faultFrom (c : Core) (a b : W32) (x y : Nat) : (c.faultFrom a b x y).hpts = c.hpts := (quiet_faultFrom c a b x y).hpts
@[simp] theorem hostIf_faultFrom (c : Core) (a b : W32) (x y : Nat) : (c.faultFrom a b x y).hostIf = c.hostIf := (quiet_faultFrom c a b x y).hostIf
@[simp] theorem rgl_faultFrom (c : Core) (a b : W32) (x y : Nat) : (c.faultFrom a b x y).rgl = c.rgl := (quiet_faultFrom c a b x y).rgl
@[simp] theorem pwr_faultFrom (c : Core) (a b : W32) (x y : Nat) : (c.faultFrom a b x y).pwr = c.pwr := (quiet_faultFrom c a b x y).pwr
@[simp] theorem boot_faultFrom (c : Core) (a b : W32) (x y : Nat) : (c.faultFrom a b x y).boot = c.boot := (quiet_faultFrom c a b x y).boot
@[simp] theorem leResets_faultFrom (c : Core) (a b : W32) (x y : Nat) : (c.faultFrom a b x y).leResets = c.leResets := (quiet_faultFrom c a b x y).leResets

/-! ### `settle` -/

@[simp] theorem var_settle (c : Core) : (c.settle).var = c.var := (quiet_settle c).var
@[simp] theorem now_settle (c : Core) : (c.settle).now = c.now := (quiet_settle c).now
@[simp] theorem ptpOff_settle (c : Core) : (c.settle).ptpOff = c.ptpOff := (quiet_settle c).ptpOff
@[simp] theorem owners_settle (c : Core) : (c.settle).owners = c.owners := (quiet_settle c).owners
@[simp] theorem mem_settle (c : Core) : (c.settle).mem = c.mem := (quiet_settle c).mem
@[simp] theorem posted_settle (c : Core) : (c.settle).posted = c.posted := (quiet_settle c).posted
@[simp] theorem flips_settle (c : Core) : (c.settle).flips = c.flips := (quiet_settle c).flips
@[simp] theorem poison_settle (c : Core) : (c.settle).poison = c.poison := (quiet_settle c).poison
@[simp] theorem resp_settle (c : Core) : (c.settle).resp = c.resp := (quiet_settle c).resp
@[simp] theorem free_settle (c : Core) : (c.settle).free = c.free := (quiet_settle c).free
@[simp] theorem loLatch_settle (c : Core) : (c.settle).loLatch = c.loLatch := (quiet_settle c).loLatch
@[simp] theorem tkg_settle (c : Core) : (c.settle).tkg = c.tkg := (quiet_settle c).tkg
@[simp] theorem adm_settle (c : Core) : (c.settle).adm = c.adm := (quiet_settle c).adm
@[simp] theorem seqs_settle (c : Core) : (c.settle).seqs = c.seqs := (quiet_settle c).seqs
@[simp] theorem seqTicks_settle (c : Core) : (c.settle).seqTicks = c.seqTicks := (quiet_settle c).seqTicks
@[simp] theorem parts_settle (c : Core) : (c.settle).parts = c.parts := (quiet_settle c).parts
@[simp] theorem partRuns_settle (c : Core) : (c.settle).partRuns = c.partRuns := (quiet_settle c).partRuns
@[simp] theorem pot_settle (c : Core) : (c.settle).pot = c.pot := (quiet_settle c).pot
@[simp] theorem cycNum_settle (c : Core) : (c.settle).cycNum = c.cycNum := (quiet_settle c).cycNum
@[simp] theorem cycAt_settle (c : Core) : (c.settle).cycAt = c.cycAt := (quiet_settle c).cycAt
@[simp] theorem bootKeys_settle (c : Core) : (c.settle).bootKeys = c.bootKeys := (quiet_settle c).bootKeys
@[simp] theorem dmc_settle (c : Core) : (c.settle).dmc = c.dmc := (quiet_settle c).dmc
@[simp] theorem dmas_settle (c : Core) : (c.settle).dmas = c.dmas := (quiet_settle c).dmas
@[simp] theorem crcs_settle (c : Core) : (c.settle).crcs = c.crcs := (quiet_settle c).crcs
@[simp] theorem slots_settle (c : Core) : (c.settle).slots = c.slots := (quiet_settle c).slots
@[simp] theorem netCnt_settle (c : Core) : (c.settle).netCnt = c.netCnt := (quiet_settle c).netCnt
@[simp] theorem vctxs_settle (c : Core) : (c.settle).vctxs = c.vctxs := (quiet_settle c).vctxs
@[simp] theorem heads_settle (c : Core) : (c.settle).heads = c.heads := (quiet_settle c).heads
@[simp] theorem dpts_settle (c : Core) : (c.settle).dpts = c.dpts := (quiet_settle c).dpts
@[simp] theorem trig_settle (c : Core) : (c.settle).trig = c.trig := (quiet_settle c).trig
@[simp] theorem pulses_settle (c : Core) : (c.settle).pulses = c.pulses := (quiet_settle c).pulses
@[simp] theorem encs_settle (c : Core) : (c.settle).encs = c.encs := (quiet_settle c).encs
@[simp] theorem encCaches_settle (c : Core) : (c.settle).encCaches = c.encCaches := (quiet_settle c).encCaches
@[simp] theorem wit_settle (c : Core) : (c.settle).wit = c.wit := (quiet_settle c).wit
@[simp] theorem cave_settle (c : Core) : (c.settle).cave = c.cave := (quiet_settle c).cave
@[simp] theorem aud_settle (c : Core) : (c.settle).aud = c.aud := (quiet_settle c).aud
@[simp] theorem tchs_settle (c : Core) : (c.settle).tchs = c.tchs := (quiet_settle c).tchs
@[simp] theorem hpts_settle (c : Core) : (c.settle).hpts = c.hpts := (quiet_settle c).hpts
@[simp] theorem hostIf_settle (c : Core) : (c.settle).hostIf = c.hostIf := (quiet_settle c).hostIf
@[simp] theorem rgl_settle (c : Core) : (c.settle).rgl = c.rgl := (quiet_settle c).rgl
@[simp] theorem pwr_settle (c : Core) : (c.settle).pwr = c.pwr := (quiet_settle c).pwr
@[simp] theorem boot_settle (c : Core) : (c.settle).boot = c.boot := (quiet_settle c).boot
@[simp] theorem leResets_settle (c : Core) : (c.settle).leResets = c.leResets := (quiet_settle c).leResets

end Sys2Proof.Machine
end

