-- ==== Sys2Proof/Laws/Memory.lean ====
section
/-! SUPPORT. Memory: a byte read after a write, and the canonical form, which every memory operation keeps. -/

namespace Sys2Proof.Machine

open Sys2Proof

theorem memByte_eq_kget (m : List Host.Cell) (a : Nat) : memByte m a = kget 0 m a := by
  induction m with
  | nil => rfl
  | cons p m ih => obtain ⟨k, v⟩ := p; simp [memByte, kget, ih]

/-- A byte after a byte is written. -/
theorem memByte_memSet (m : List Host.Cell) (a q : Nat) (b : Byte) : memByte (memSet m a b) q = if q = a then b else memByte m q := by
  rw [memByte_eq_kget, memByte_eq_kget, memSet, kget_kset]

/-! ### The canonical form -/

theorem wfFrom_mono {lo lo' : Nat} (h : lo' ≤ lo) : ∀ {m : List Host.Cell}, Memory.wfFrom lo m = true → Memory.wfFrom lo' m = true
  | [], _ => rfl
  | (a, b) :: m, hm => by
    simp only [Memory.wfFrom, Bool.and_eq_true, decide_eq_true_eq] at hm ⊢
    exact ⟨⟨Nat.le_trans h hm.1.1, hm.1.2⟩, hm.2⟩

theorem wfFrom_kdel {q : Nat} : ∀ {lo : Nat} {m : List Host.Cell}, Memory.wfFrom lo m = true → Memory.wfFrom lo (kdel m q) = true
  | _, [], _ => rfl
  | lo, (a, b) :: m, h => by
    simp only [Memory.wfFrom, Bool.and_eq_true, decide_eq_true_eq] at h
    by_cases e : a = q
    · simpa [kdel, e] using wfFrom_kdel (wfFrom_mono (Nat.le_succ_of_le h.1.1) h.2)
    · simp only [kdel, e, if_false, Memory.wfFrom, Bool.and_eq_true, decide_eq_true_eq]
      exact ⟨h.1, wfFrom_kdel h.2⟩

theorem kdel_no_key {q : Nat} {m : List Host.Cell} : ∀ p ∈ kdel m q, p.1 ≠ q := by
  induction m with
  | nil => simp [kdel]
  | cons p m ih =>
    obtain ⟨a, b⟩ := p
    by_cases e : a = q
    · simpa [kdel, e] using ih
    · simp only [kdel, e, if_false, List.mem_cons]
      rintro r (rfl | hr)
      · exact e
      · exact ih r hr

theorem wfFrom_kins {q : Nat} {b : Byte} (hb : b ≠ 0) : ∀ {lo : Nat} {m : List Host.Cell}, lo ≤ q → Memory.wfFrom lo m = true →
    (∀ p ∈ m, p.1 ≠ q) → Memory.wfFrom lo (kins (fun a b => decide (a < b)) m q b) = true
  | lo, [], hq, _, _ => by simpa [kins, Memory.wfFrom, hq] using hb
  | lo, (a, v) :: m, hq, h, hne => by
    simp only [Memory.wfFrom, Bool.and_eq_true, decide_eq_true_eq] at h
    unfold kins
    by_cases e : q < a
    · simp only [e, decide_true, if_true, Memory.wfFrom, Bool.and_eq_true, decide_eq_true_eq]
      exact ⟨⟨hq, by simpa using hb⟩, ⟨e, h.1.2⟩, h.2⟩
    · have : a ≠ q := hne (a, v) (List.mem_cons_self ..)
      simp only [e, decide_false, Bool.false_eq_true, if_false, Memory.wfFrom, Bool.and_eq_true, decide_eq_true_eq]
      exact ⟨h.1, wfFrom_kins hb (by omega) h.2 (fun p hp => hne p (List.mem_cons_of_mem _ hp))⟩

/-- A byte written keeps the canonical form. -/
theorem wf_memSet {m : List Host.Cell} (h : Memory.wf m = true) (a : Nat) (b : Byte) : Memory.wf (memSet m a b) = true := by
  unfold memSet kset ksetBy
  split
  · exact wfFrom_kdel h
  · next hb => exact wfFrom_kins hb (Nat.zero_le _) (wfFrom_kdel h) kdel_no_key

/-- So do all the bytes of a command. -/
theorem wf_flush {m : List Host.Cell} (h : Memory.wf m = true) (ps : List Host.Cell) : Memory.wf (flush m ps) = true := by
  induction ps with
  | nil => exact h
  | cons p ps ih => obtain ⟨a, b⟩ := p; exact wf_memSet ih a b

/-- A byte after the bytes of a command are laid into memory: the last one stored there, else as before. -/
theorem memByte_flush (m : List Host.Cell) (ps : List Host.Cell) (q : Nat) :
    memByte (flush m ps) q = ((ps.find? (fun x => x.1 = q)).map (fun x => x.2)).getD (memByte m q) := by
  induction ps with
  | nil => rfl
  | cons p ps ih =>
    obtain ⟨a, b⟩ := p
    rw [flush, memByte_memSet]
    by_cases e : q = a
    · simp [e]
    · rw [if_neg e, ih, List.find?_cons_of_neg]; simpa using fun h => e h.symm

end Sys2Proof.Machine
end

