-- ==== Sys2Proof/Laws/Regs.lean ====
section
/-! SUPPORT. What registers read after a field, a bit or a counter of one of them is set, and after the quiet operations. -/

namespace Sys2Proof.Machine

open Sys2Proof

variable (c : Core)

theorem rd_set_self {r : Reg} (v : W32) (h : r.fam.background = false) : (c.set r v).rd r = v := by
  rw [(quiet_set c r v).rd h, rd_wr_self]

theorem rd_set_ne {r q : Reg} (v : W32) (h : q.fam.background = false) (hne : q ≠ r) : (c.set r v).rd q = c.rd q := by
  rw [(quiet_set c r v).rd h, rd_wr_ne c v hne]

theorem rd_set_fam {r q : Reg} (v : W32) (h : q.fam.background = false) (hne : q.fam ≠ r.fam) : (c.set r v).rd q = c.rd q :=
  rd_set_ne c v h (fun e => hne (by rw [e]))

theorem rd_setF_self {r : Reg} (hi lo n : Nat) (h : r.fam.background = false) : (c.setF r hi lo n).rd r = setFld (c.rd r) hi lo n :=
  rd_set_self c _ h
theorem rd_setF_ne {r q : Reg} (hi lo n : Nat) (h : q.fam.background = false) (hne : q ≠ r) : (c.setF r hi lo n).rd q = c.rd q :=
  rd_set_ne c _ h hne
theorem rd_setB_self {r : Reg} (i : Nat) (b : Bool) (h : r.fam.background = false) : (c.setB r i b).rd r = setBit (c.rd r) i b :=
  rd_set_self c _ h
theorem rd_setB_ne {r q : Reg} (i : Nat) (b : Bool) (h : q.fam.background = false) (hne : q ≠ r) : (c.setB r i b).rd q = c.rd q :=
  rd_set_ne c _ h hne
theorem rd_addSat_self {r : Reg} (hi lo n : Nat) (h : r.fam.background = false) :
    (c.addSat r hi lo n).rd r = setFld (c.rd r) hi lo (sat (2 ^ (hi - lo + 1) - 1) (c.rdF r hi lo + n)) :=
  rd_set_self c _ h
theorem rd_addSat_ne {r q : Reg} (hi lo n : Nat) (h : q.fam.background = false) (hne : q ≠ r) : (c.addSat r hi lo n).rd q = c.rd q :=
  rd_set_ne c _ h hne

theorem rd_raise {q : Reg} (s : Nat) (h : q.fam.background = false) : (c.raise s).rd q = c.rd q := (quiet_raise c s).rd h
theorem rd_log {q : Reg} (k st : Nat) (a b v x : W32) (h : q.fam.background = false) : (c.log k st a b v x).rd q = c.rd q :=
  (quiet_log c k st a b v x).rd h
theorem rd_faultFrom {q : Reg} (a b : W32) (x y : Nat) (h : q.fam.background = false) : (c.faultFrom a b x y).rd q = c.rd q :=
  (quiet_faultFrom c a b x y).rd h
theorem rd_fault {q : Reg} (a x y : Nat) (h : q.fam.background = false) : (c.fault a x y).rd q = c.rd q := (quiet_fault c a x y).rd h
theorem rd_faultOnce {q : Reg} (k : Nat) (a b v x : W32) (h : q.fam.background = false) : (c.faultOnce k a b v x).rd q = c.rd q :=
  (quiet_faultOnce c k a b v x).rd h
theorem rd_settle {q : Reg} (h : q.fam.background = false) : c.settle.rd q = c.rd q := (quiet_settle c).rd h

/-- A bit of a register just set. -/
theorem rdB_setB_self {r : Reg} {i : Nat} (b : Bool) (h : r.fam.background = false) (hi : i < 32) : (c.setB r i b).rdB r i = b := by
  rw [Core.rdB, rd_setB_self c i b h, bit_setBit_self _ b hi]

/-- A field of a register just set. -/
theorem rdF_setF_self {r : Reg} {hi lo : Nat} (n : Nat) (h : r.fam.background = false) (hh : hi < 32) (hl : lo ≤ hi) :
    (c.setF r hi lo n).rdF r hi lo = n % 2 ^ (hi - lo + 1) := by
  rw [Core.rdF, rd_setF_self c hi lo n h, fld_setFld_self _ n hh hl]

theorem sat_lt (w n : Nat) : sat (2 ^ w - 1) n < 2 ^ w := by
  have := Nat.two_pow_pos w
  unfold sat; split <;> omega

/-- A counter just counted up. -/
theorem rdF_addSat_self {r : Reg} {hi lo : Nat} (n : Nat) (h : r.fam.background = false) (hh : hi < 32) (hl : lo ≤ hi) :
    (c.addSat r hi lo n).rdF r hi lo = sat (2 ^ (hi - lo + 1) - 1) (c.rdF r hi lo + n) := by
  rw [Core.rdF, rd_addSat_self c hi lo n h, fld_setFld_self _ _ hh hl, Nat.mod_eq_of_lt (sat_lt _ _)]

end Sys2Proof.Machine
end

