-- ==== Sys2Proof/Laws/Run.lean ====
section
/-! SUPPORT. What a command's step makes of the effect: every command answers a next state, with the queue untouched, time not run back,
the stored bytes in memory, and beside the effect only what the Event Router and the journal record of quarantines. -/

namespace Sys2Proof.Machine

open Sys2Proof

theorem run_eq (s : State) (f : Core → Core) : run s f = .next (s.after f) := rfl

@[simp] theorem after_pending (s : State) (f : Core → Core) : (s.after f).pending = s.pending := rfl
@[simp] theorem after_var (s : State) (f : Core → Core) : (s.after f).core.var = s.core.var := rfl
@[simp] theorem after_posted (s : State) (f : Core → Core) : (s.after f).core.posted = [] := rfl

theorem after_mem (s : State) (f : Core → Core) : (s.after f).core.mem = flush s.core.mem (f s.core).posted := by
  show flush s.core.mem (f s.core).settle.posted = _
  rw [posted_settle]

theorem after_now (s : State) (f : Core → Core) : (s.after f).core.now = max s.core.now (f s.core).now := by
  show (if (f s.core).settle.now < s.core.now then s.core.now else (f s.core).settle.now) = _
  rw [now_settle]; split <;> omega

/-- A register outside the background keeps the value the effect gave it. -/
theorem after_rd (s : State) (f : Core → Core) (hv : (f s.core).var = s.core.var) {r : Reg} (h : r.fam.background = false) :
    (s.after f).core.rd r = (f s.core).rd r := by
  have e : (s.after f).core.var = (f s.core).settle.var := by rw [after_var, var_settle, hv]
  exact (rd_congr e rfl r).trans (rd_settle _ h)

/-- A byte of memory: the last one the effect stored there, else as before. -/
theorem after_byte (s : State) (f : Core → Core) (a : Nat) : memByte (s.after f).core.mem a =
    (((f s.core).posted.find? (fun x => x.1 = a)).map (fun x => x.2)).getD (memByte s.core.mem a) := by
  rw [after_mem, memByte_flush]

/-- A command that stores nothing leaves every byte of memory. -/
theorem after_mem_same (s : State) (f : Core → Core) (h : (f s.core).posted = []) : (s.after f).core.mem = s.core.mem := by
  rw [after_mem, h]; rfl

/-! ### The other fields: as the effect leaves them -/

@[simp] theorem after_ptpOff (s : State) (f : Core → Core) : (s.after f).core.ptpOff = (f s.core).ptpOff := ptpOff_settle _
@[simp] theorem after_owners (s : State) (f : Core → Core) : (s.after f).core.owners = (f s.core).owners := owners_settle _
@[simp] theorem after_flips (s : State) (f : Core → Core) : (s.after f).core.flips = (f s.core).flips := flips_settle _
@[simp] theorem after_poison (s : State) (f : Core → Core) : (s.after f).core.poison = (f s.core).poison := poison_settle _
@[simp] theorem after_resp (s : State) (f : Core → Core) : (s.after f).core.resp = (f s.core).resp := resp_settle _
@[simp] theorem after_free (s : State) (f : Core → Core) : (s.after f).core.free = (f s.core).free := free_settle _
@[simp] theorem after_loLatch (s : State) (f : Core → Core) : (s.after f).core.loLatch = (f s.core).loLatch := loLatch_settle _
@[simp] theorem after_tkg (s : State) (f : Core → Core) : (s.after f).core.tkg = (f s.core).tkg := tkg_settle _
@[simp] theorem after_adm (s : State) (f : Core → Core) : (s.after f).core.adm = (f s.core).adm := adm_settle _
@[simp] theorem after_seqs (s : State) (f : Core → Core) : (s.after f).core.seqs = (f s.core).seqs := seqs_settle _
@[simp] theorem after_seqTicks (s : State) (f : Core → Core) : (s.after f).core.seqTicks = (f s.core).seqTicks := seqTicks_settle _
@[simp] theorem after_parts (s : State) (f : Core → Core) : (s.after f).core.parts = (f s.core).parts := parts_settle _
@[simp] theorem after_partRuns (s : State) (f : Core → Core) : (s.after f).core.partRuns = (f s.core).partRuns := partRuns_settle _
@[simp] theorem after_pot (s : State) (f : Core → Core) : (s.after f).core.pot = (f s.core).pot := pot_settle _
@[simp] theorem after_cycNum (s : State) (f : Core → Core) : (s.after f).core.cycNum = (f s.core).cycNum := cycNum_settle _
@[simp] theorem after_cycAt (s : State) (f : Core → Core) : (s.after f).core.cycAt = (f s.core).cycAt := cycAt_settle _
@[simp] theorem after_bootKeys (s : State) (f : Core → Core) : (s.after f).core.bootKeys = (f s.core).bootKeys := bootKeys_settle _
@[simp] theorem after_dmc (s : State) (f : Core → Core) : (s.after f).core.dmc = (f s.core).dmc := dmc_settle _
@[simp] theorem after_dmas (s : State) (f : Core → Core) : (s.after f).core.dmas = (f s.core).dmas := dmas_settle _
@[simp] theorem after_crcs (s : State) (f : Core → Core) : (s.after f).core.crcs = (f s.core).crcs := crcs_settle _
@[simp] theorem after_slots (s : State) (f : Core → Core) : (s.after f).core.slots = (f s.core).slots := slots_settle _
@[simp] theorem after_netCnt (s : State) (f : Core → Core) : (s.after f).core.netCnt = (f s.core).netCnt := netCnt_settle _
@[simp] theorem after_vctxs (s : State) (f : Core → Core) : (s.after f).core.vctxs = (f s.core).vctxs := vctxs_settle _
@[simp] theorem after_heads (s : State) (f : Core → Core) : (s.after f).core.heads = (f s.core).heads := heads_settle _
@[simp] theorem after_dpts (s : State) (f : Core → Core) : (s.after f).core.dpts = (f s.core).dpts := dpts_settle _
@[simp] theorem after_trig (s : State) (f : Core → Core) : (s.after f).core.trig = (f s.core).trig := trig_settle _
@[simp] theorem after_pulses (s : State) (f : Core → Core) : (s.after f).core.pulses = (f s.core).pulses := pulses_settle _
@[simp] theorem after_encs (s : State) (f : Core → Core) : (s.after f).core.encs = (f s.core).encs := encs_settle _
@[simp] theorem after_encCaches (s : State) (f : Core → Core) : (s.after f).core.encCaches = (f s.core).encCaches := encCaches_settle _
@[simp] theorem after_wit (s : State) (f : Core → Core) : (s.after f).core.wit = (f s.core).wit := wit_settle _
@[simp] theorem after_cave (s : State) (f : Core → Core) : (s.after f).core.cave = (f s.core).cave := cave_settle _
@[simp] theorem after_aud (s : State) (f : Core → Core) : (s.after f).core.aud = (f s.core).aud := aud_settle _
@[simp] theorem after_tchs (s : State) (f : Core → Core) : (s.after f).core.tchs = (f s.core).tchs := tchs_settle _
@[simp] theorem after_hpts (s : State) (f : Core → Core) : (s.after f).core.hpts = (f s.core).hpts := hpts_settle _
@[simp] theorem after_hostIf (s : State) (f : Core → Core) : (s.after f).core.hostIf = (f s.core).hostIf := hostIf_settle _
@[simp] theorem after_rgl (s : State) (f : Core → Core) : (s.after f).core.rgl = (f s.core).rgl := rgl_settle _
@[simp] theorem after_pwr (s : State) (f : Core → Core) : (s.after f).core.pwr = (f s.core).pwr := pwr_settle _
@[simp] theorem after_boot (s : State) (f : Core → Core) : (s.after f).core.boot = (f s.core).boot := boot_settle _
@[simp] theorem after_leResets (s : State) (f : Core → Core) : (s.after f).core.leResets = (f s.core).leResets := leResets_settle _

/-! ### What every command keeps -/

/-- The canonical form of memory, and no byte on its way, after any command. -/
theorem after_inv {s : State} (h : s.Inv) (f : Core → Core) : (s.after f).Inv := by
  refine ⟨?_, rfl⟩
  rw [after_mem]
  exact wf_flush h.1 _

theorem after_later (s : State) (f : Core → Core) : s.Later (s.after f) := by
  refine ⟨rfl, ?_⟩
  rw [after_now]; exact Nat.le_max_left ..

/-- A command's outcome is one the effect determines. -/
theorem run_next {s t : State} {f : Core → Core} (h : run s f = .next t) : t = s.after f := by
  simp only [run, Host.Outcome.next.injEq] at h; exact h.symm

/-! ### Stored bytes -/

/-- The bytes a store adds, newest first. -/
def storeCells (a : Nat) : List Byte → List Host.Cell
  | [] => []
  | b :: bs => storeCells (a + 1) bs ++ [(a, b)]

theorem store_eq (c : Core) (a : Nat) (bs : List Byte) : c.store a bs = { c with posted := storeCells a bs ++ c.posted } := by
  induction bs generalizing c a with
  | nil => rfl
  | cons b bs ih => simp [Core.store, ih, storeCells]

/-- The byte a store leaves at an address. -/
theorem find_storeCells (a q : Nat) (bs : List Byte) :
    (storeCells a bs).find? (fun x => x.1 = q) = if a ≤ q then (bs[q - a]?).map (fun b => (q, b)) else none := by
  induction bs generalizing a with
  | nil => simp [storeCells]
  | cons b bs ih =>
    rw [storeCells, List.find?_append, ih]
    by_cases h : a = q
    · subst h; simp [Nat.not_succ_le_self]
    · by_cases h1 : a + 1 ≤ q
      · have e : q - a = q - (a + 1) + 1 := by omega
        rw [if_pos h1, if_pos (by omega), e, List.getElem?_cons_succ]
        cases bs[q - (a + 1)]? <;> simp [h]
      · have : ¬ a ≤ q := by omega
        simp [h1, this, h]

end Sys2Proof.Machine
end

