-- ==== Sys2Proof/Laws/Usfer.lean ====
section
/-! SUPPORT. A sequencer after the shared operations of its instructions: its registers, its predicates, its tick accounting, and that
nothing else of the block moves. -/

namespace Sys2Proof.Machine

open Sys2Proof

variable (c : Core)

/-! ### Sequencers and their tick accounting -/

@[simp] theorem seq_setSeq_self (n : Nat) (q : Seq) : (c.setSeq n q).seq n = q := by simp [Core.seq, Core.setSeq]
theorem seq_setSeq_ne {n m : Nat} (q : Seq) (h : m ≠ n) : (c.setSeq n q).seq m = c.seq m := by
  simp [Core.seq, Core.setSeq, kget_kset_ne _ _ _ h]
@[simp] theorem seq_setSt (n : Nat) (t : SeqTick) (m : Nat) : (c.setSt n t).seq m = c.seq m := rfl
@[simp] theorem st_setSt_self (n : Nat) (t : SeqTick) : (c.setSt n t).st n = t := by simp [Core.st, Core.setSt]
theorem st_setSt_ne {n m : Nat} (t : SeqTick) (h : m ≠ n) : (c.setSt n t).st m = c.st m := by
  simp [Core.st, Core.setSt, kget_kset_ne _ _ _ h]
@[simp] theorem st_setSeq (n : Nat) (q : Seq) (m : Nat) : (c.setSeq n q).st m = c.st m := rfl
@[simp] theorem rd_setSeq (n : Nat) (q : Seq) (r : Reg) : (c.setSeq n q).rd r = c.rd r := rfl
@[simp] theorem rd_setSt (n : Nat) (t : SeqTick) (r : Reg) : (c.setSt n t).rd r = c.rd r := rfl
@[simp] theorem rd_tick (r : Reg) : c.tick.rd r = c.rd r := rfl

/-! ### An operation on one sequencer alone -/

/-- `d` is `c` but for sequencer `n` and its tick accounting. -/
def Core.Local (n : Nat) (c d : Core) : Prop :=
  d = { c with seqs := d.seqs, seqTicks := d.seqTicks } ∧ ∀ m, m ≠ n → d.seq m = c.seq m ∧ d.st m = c.st m

variable {c} {n : Nat}

theorem Core.Local.refl (c : Core) : Core.Local n c c := ⟨rfl, fun _ _ => ⟨rfl, rfl⟩⟩

theorem Core.Local.trans {a b d : Core} (h : Core.Local n a b) (g : Core.Local n b d) : Core.Local n a d := by
  obtain ⟨h1, h2⟩ := h
  obtain ⟨g1, g2⟩ := g
  refine ⟨?_, fun m hm => ⟨(g2 m hm).1.trans (h2 m hm).1, (g2 m hm).2.trans (h2 m hm).2⟩⟩
  rw [g1, h1]

theorem local_setSeq (c : Core) (n : Nat) (q : Seq) : Core.Local n c (c.setSeq n q) :=
  ⟨rfl, fun _ hm => ⟨seq_setSeq_ne c q hm, rfl⟩⟩
theorem local_setSt (c : Core) (n : Nat) (t : SeqTick) : Core.Local n c (c.setSt n t) :=
  ⟨rfl, fun _ hm => ⟨rfl, st_setSt_ne c t hm⟩⟩

theorem local_charge (c : Core) (n k : Nat) : Core.Local n c (c.charge n k) := local_setSt c n _
theorem local_setRset (c : Core) (n : Nat) (r : RegSet) : Core.Local n c (c.setRset n r) := local_setSeq c n _
theorem local_setG (c : Core) (n k : Nat) (v : W64) : Core.Local n c (c.setG n k v) := by
  unfold Core.setG
  split
  · exact .refl c
  · exact local_setRset c n _
theorem local_setPr (c : Core) (n k : Nat) (b : Bool) : Core.Local n c (c.setPr n k b) := by
  unfold Core.setPr
  split
  · exact .refl c
  · exact local_setRset c n _
theorem local_advance (c : Core) (n : Nat) : Core.Local n c (c.advance n) := local_setSeq c n _
theorem local_jump (c : Core) (n a : Nat) : Core.Local n c (c.jump n a) := local_setSeq c n _
theorem local_setPc (c : Core) (n a : Nat) : Core.Local n c (c.setPc n a) := local_setSeq c n _
theorem local_scrub (c : Core) (n m : Nat) : Core.Local n c (c.scrub n m) := local_setSeq c n _

/-- A command whose effect is on one sequencer alone: the rest of the machine as it was, but for what the Event Router and the journal
record. -/
theorem after_local {s : State} {f : Core → Core} (h : Core.Local n s.core (f s.core)) (hp : s.core.posted = []) :
    (s.after f).core = { s.core with seqs := (s.after f).core.seqs, seqTicks := (s.after f).core.seqTicks, regs := (s.after f).core.regs
                                     evr := { s.core.evr with level := (s.after f).core.evr.level }, jnl := (s.after f).core.jnl } := by
  rw [after_seqs, after_seqTicks]
  have q := quiet_settle (f s.core)
  obtain ⟨q1, -⟩ := q
  obtain ⟨h1, -⟩ := h
  have hpo : (f s.core).settle.posted = [] := by rw [posted_settle, h1, hp]
  have hnow : (f s.core).settle.now = s.core.now := by rw [now_settle, h1]
  unfold State.after
  dsimp only
  rw [hpo, hnow, if_neg (Nat.lt_irrefl _)]
  generalize (f s.core).settle = d at *
  generalize f s.core = e at *
  rw [q1, h1]
  simp only [flush, hp]

theorem after_local_rd {s : State} {f : Core → Core} (h : Core.Local n s.core (f s.core)) {r : Reg} (hr : r.fam.background = false) :
    (s.after f).core.rd r = s.core.rd r := by
  have hv : (f s.core).var = s.core.var := by rw [h.1]
  rw [after_rd s f hv hr]
  exact rd_congr hv (by rw [h.1]) r

/-! ### Registers and predicates of the current set -/

theorem charge_seq (c : Core) (n k m : Nat) : (c.charge n k).seq m = c.seq m := rfl
theorem charge_st (c : Core) (n k : Nat) : (c.charge n k).st n = { c.st n with tickCyc := (c.st n).tickCyc + k } := by
  simp [Core.charge]
@[simp] theorem charge_g (c : Core) (n k m e : Nat) : (c.charge n k).g m e = c.g m e := rfl
@[simp] theorem charge_pr (c : Core) (n k m e : Nat) : (c.charge n k).pr m e = c.pr m e := rfl

/-- A sequencer past one word (R66). -/
def Seq.past (q : Seq) : Seq :=
  let r := loopNext q.retRec.length (q.pc + 4) q.frames
  { q.setFrames r.2 with pc := r.1 }

theorem seq_advance (c : Core) (n : Nat) : (c.advance n).seq n = (c.seq n).past := seq_setSeq_self c n _
@[simp] theorem st_advance (c : Core) (n m : Nat) : (c.advance n).st m = c.st m := rfl
theorem past_sets (q : Seq) (x : KMap RegSet) : ({ q with sets := x } : Seq).past = { q.past with sets := x } := rfl
@[simp] theorem past_level (q : Seq) : q.past.level = q.level := rfl
@[simp] theorem past_sets_eq (q : Seq) : q.past.sets = q.sets := rfl

theorem rset_of {c d : Core} {n : Nat} (h1 : (d.seq n).sets = (c.seq n).sets) (h2 : (d.seq n).level = (c.seq n).level) : d.rset n = c.rset n := by
  unfold Core.rset; rw [h1, h2]
theorem g_of_rset {c d : Core} {n : Nat} (h : d.rset n = c.rset n) (e : Nat) : d.g n e = c.g n e := by unfold Core.g; rw [h]
theorem pr_of_rset {c d : Core} {n : Nat} (h : d.rset n = c.rset n) (e : Nat) : d.pr n e = c.pr n e := by unfold Core.pr; rw [h]

theorem rset_advance (c : Core) (n : Nat) : (c.advance n).rset n = c.rset n :=
  rset_of (by rw [seq_advance, past_sets_eq]) (by rw [seq_advance, past_level])
@[simp] theorem g_advance (c : Core) (n e : Nat) : (c.advance n).g n e = c.g n e := g_of_rset (rset_advance c n) e
@[simp] theorem pr_advance (c : Core) (n e : Nat) : (c.advance n).pr n e = c.pr n e := pr_of_rset (rset_advance c n) e

theorem rset_setRset (c : Core) (n : Nat) (r : RegSet) : (c.setRset n r).rset n = r := by
  simp [Core.rset, Core.setRset]

/-- A register just written; g0 stays zero (R55). -/
theorem g_setG_self (c : Core) (n d : Nat) (v : W64) : (c.setG n d v).g n d = if d = 0 then 0 else v := by
  unfold Core.setG
  by_cases h : d = 0
  · simp [h, Core.g]
  · simp [h, Core.g, rset_setRset]

/-- Every other register. -/
theorem g_setG_ne (c : Core) (n : Nat) {d e : Nat} (v : W64) (h : e ≠ d) : (c.setG n d v).g n e = c.g n e := by
  unfold Core.setG
  by_cases hd : d = 0
  · simp [hd]
  · simp [hd, Core.g, rset_setRset, kget_kset_ne _ _ _ h]

@[simp] theorem pr_setG (c : Core) (n d : Nat) (v : W64) (q : Nat) : (c.setG n d v).pr n q = c.pr n q := by
  unfold Core.setG
  by_cases hd : d = 0
  · simp [hd]
  · simp [hd, Core.pr, rset_setRset]

/-- The sequencer after a register or predicate is written: its sets alone. -/
theorem seq_setRset (c : Core) (n : Nat) (r : RegSet) :
    (c.setRset n r).seq n = { c.seq n with sets := kset {} (c.seq n).sets (c.seq n).level r } := seq_setSeq_self c n _
@[simp] theorem st_setRset (c : Core) (n m : Nat) (r : RegSet) : (c.setRset n r).st m = c.st m := rfl

theorem seq_setG (c : Core) (n d : Nat) (v : W64) : (c.setG n d v).seq n = { c.seq n with sets := ((c.setG n d v).seq n).sets } := by
  unfold Core.setG
  split
  · rfl
  · rw [seq_setRset]
theorem sets_setG (c : Core) (n d : Nat) (v : W64) {l : Nat} (h : l ≠ (c.seq n).level) :
    kget {} ((c.setG n d v).seq n).sets l = kget {} (c.seq n).sets l := by
  unfold Core.setG
  split
  · rfl
  · rw [seq_setRset]; exact kget_kset_ne _ _ _ h
@[simp] theorem st_setG (c : Core) (n d m : Nat) (v : W64) : (c.setG n d v).st m = c.st m := by
  unfold Core.setG; split <;> rfl

theorem seq_setPr (c : Core) (n d : Nat) (b : Bool) : (c.setPr n d b).seq n = { c.seq n with sets := ((c.setPr n d b).seq n).sets } := by
  unfold Core.setPr
  split
  · rfl
  · rw [seq_setRset]
theorem sets_setPr (c : Core) (n d : Nat) (b : Bool) {l : Nat} (h : l ≠ (c.seq n).level) :
    kget {} ((c.setPr n d b).seq n).sets l = kget {} (c.seq n).sets l := by
  unfold Core.setPr
  split
  · rfl
  · rw [seq_setRset]; exact kget_kset_ne _ _ _ h
@[simp] theorem st_setPr (c : Core) (n d m : Nat) (b : Bool) : (c.setPr n d b).st m = c.st m := by
  unfold Core.setPr; split <;> rfl
@[simp] theorem g_setPr (c : Core) (n d : Nat) (b : Bool) (e : Nat) : (c.setPr n d b).g n e = c.g n e := by
  unfold Core.setPr
  split
  · rfl
  · simp [Core.g, rset_setRset]

theorem setP8_bit : ∀ (p : BitVec 8) (k j : Nat), k < 8 → j < 8 → ∀ b, (setP8 p k b).toNat.testBit j = if j = k then b else p.toNat.testBit j := by
  intro p k j hk hj b
  have e : ∀ (x : BitVec 8), x.toNat.testBit j = x.getLsbD j := fun x => rfl
  rw [e, e]
  cases b
  · simp only [setP8, Bool.false_eq_true, if_false, BitVec.getLsbD_and, BitVec.getLsbD_not, BitVec.getLsbD_ofNat, hj, decide_true,
      Bool.true_and, Nat.testBit_two_pow]
    by_cases h : j = k
    · simp [h]
    · simp [h, Ne.symm h]
  · simp only [setP8, if_true, BitVec.getLsbD_or, BitVec.getLsbD_ofNat, hj, decide_true, Bool.true_and, Nat.testBit_two_pow]
    by_cases h : j = k
    · simp [h]
    · simp [h, Ne.symm h]

/-- Predicates after one of p1 to p7 is written. -/
theorem pr_setPr (c : Core) (n : Nat) {d q : Nat} (b : Bool) (h0 : d ≠ 0) (h7 : d < 8) (hq : q < 8) :
    (c.setPr n d b).pr n q = if q = d then b else c.pr n q := by
  unfold Core.setPr
  rw [if_neg (by omega)]
  simp only [Core.pr, rset_setRset]
  have t : ∀ (x : BitVec 8) (k : Nat), decide ((x.toNat >>> k) % 2 = 1) = x.toNat.testBit k := by
    intro x k; simp [Nat.testBit]
  rw [t, t, setP8_bit _ d q h7 hq]
  by_cases e : q = d
  · subst e; simp [h0]
  · simp [e]

/-! ### An instruction that executes -/

theorem instr_executes {c : Core} {n p k : Nat} {E : Core → Core} (h : c.canRun n = true) (hp : c.pr n p = true) :
    c.instr n p k E = (E (c.charge n k)).stepDone n := by
  unfold Core.instr; simp [h, hp]
theorem instr_skips {c : Core} {n p k : Nat} {E : Core → Core} (h : c.canRun n = true) (hp : c.pr n p = false) :
    c.instr n p k E = ((c.charge n 1).advance n).stepDone n := by
  unfold Core.instr; simp [h, hp]
/-- A sequencer that can run is not halted by debug. -/
theorem canRun_dbg {c : Core} {n : Nat} (h : c.canRun n = true) : (c.seq n).dbg = false := by
  unfold Core.canRun at h; simp at h; exact h.1.1.1.2

/-- After its one instruction a single-stepped sequencer is halted again; any other is as the instruction left it. -/
theorem seq_stepDone (c : Core) (n : Nat) :
    (c.stepDone n).seq n = { c.seq n with dbg := (c.seq n).dbg || (c.seq n).step, step := false } := by
  unfold Core.stepDone
  dsimp only
  split
  · next h => rw [seq_setSeq_self, h, Bool.or_true]
  · next h => simp only [Bool.not_eq_true] at h; rw [h, Bool.or_false]; rw [← h]
theorem local_stepDone (c : Core) (n : Nat) : Core.Local n c (c.stepDone n) := by
  unfold Core.stepDone
  dsimp only
  split
  · exact local_setSeq c n _
  · exact .refl c
@[simp] theorem st_stepDone (c : Core) (n m : Nat) : (c.stepDone n).st m = c.st m := by
  unfold Core.stepDone; dsimp only; split <;> rfl
@[simp] theorem rd_stepDone (c : Core) (n : Nat) (r : Reg) : (c.stepDone n).rd r = c.rd r := by
  unfold Core.stepDone; dsimp only; split <;> rfl
@[simp] theorem g_stepDone (c : Core) (n e : Nat) : (c.stepDone n).g n e = c.g n e :=
  g_of_rset (rset_of (by rw [seq_stepDone]) (by rw [seq_stepDone])) e
@[simp] theorem pr_stepDone (c : Core) (n e : Nat) : (c.stepDone n).pr n e = c.pr n e :=
  pr_of_rset (rset_of (by rw [seq_stepDone]) (by rw [seq_stepDone])) e
@[simp] theorem posted_stepDone (c : Core) (n : Nat) : (c.stepDone n).posted = c.posted := by
  unfold Core.stepDone; dsimp only; split <;> rfl

/-- A sequencer that does not run does nothing. -/
theorem instr_idle {c : Core} {n p k : Nat} {E : Core → Core} (h : c.canRun n = false) : c.instr n p k E = c := by
  unfold Core.instr; simp [h]

/-- A result within the stack limit is written, then the next word; below it, exception 3 (R78). -/
theorem result_within (c : Core) (n d : Nat) (v : W64) (h : d = 29 → c.stkLim n ≤ v.toNat) : c.result n d v = (c.setG n d v).advance n := by
  unfold Core.result
  rw [if_neg]; rintro ⟨a, b⟩; have := h a; omega
theorem result_below (c : Core) (n : Nat) (v : W64) (h : v.toNat < c.stkLim n) : c.result n 29 v = c.exception n 3 := by
  unfold Core.result; rw [if_pos ⟨rfl, h⟩]

/-! ### Sequencers after a command -/

theorem after_seq (s : State) (f : Core → Core) (m : Nat) : (s.after f).core.seq m = (f s.core).seq m := by unfold Core.seq; rw [after_seqs]
theorem after_st (s : State) (f : Core → Core) (m : Nat) : (s.after f).core.st m = (f s.core).st m := by unfold Core.st; rw [after_seqTicks]
theorem after_g (s : State) (f : Core → Core) (m e : Nat) : (s.after f).core.g m e = (f s.core).g m e := by
  unfold Core.g Core.rset; rw [after_seq]
theorem after_pr (s : State) (f : Core → Core) (m e : Nat) : (s.after f).core.pr m e = (f s.core).pr m e := by
  unfold Core.pr Core.rset; rw [after_seq]

end Sys2Proof.Machine
end

