-- ==== Sys2Proof/Tests/Slice0.lean ====
section
/-! SUPPORT. The model's own tests: ill-formed commands refused, states that meet the hypotheses of the statements, and small
steps with results the spec states. -/

namespace Sys2Proof.Tests

open Sys2Proof Sys2Proof.Machine

set_option Elab.async false

/-! ### Small states -/

/-- The machine after reset with something put into the block. -/
def on (f : Core → Core) : State := { State.reset with core := f State.reset.core }
/-- A program that runs on sequencer 0, of the secure world. -/
def prog (q : Seq) (f : Core → Core := id) : State :=
  on (fun c => f ((c.setOwner 3 0 { granted := true, world := true }).setSeq 0 { q with mode := .running, live := some {} }))
/-- The same with g1, g2 in register set 0. -/
def two (a b : W64) : State := prog { sets := [(0, { g := [(1, a), (2, b)] })] }
/-- A contract of a submitter on a unit, from words 4 on. -/
def con (id : W32) (sub kind unit : Nat) (ws : List W32) : Contract :=
  { id := id, sub := sub, words := [w32 (kind * 16777216), id, w32 unit, 0] ++ ws ++ List.replicate (12 - ws.length) 0 }
/-- The command answers a next state of which `P` holds. -/
def gives (s : State) (i : Instr) (P : State → Bool) : Bool :=
  match exec i s with
  | .next t => P t
  | _ => false
/-- The secure world's requester: a program on a sequencer it owns. -/
def sec : Agent := .seq 0
/-- The secure world's owner tag. -/
def secTag : Owner := { granted := true, world := true }

/-! ### Hypotheses that states meet: the machine -/

theorem test_wit_idle : State.reset.pending = [] := rfl
theorem test_wit_keeps_memory : State.reset.Inv ∧ gives State.reset (.eventRaise 5) (fun _ => true) = true := ⟨⟨by decide, rfl⟩, by decide +kernel⟩
theorem test_wit_keeps_memory_stored : (on (fun c => { c with mem := [(5, 1), (9, 2)] })).Inv := ⟨by decide, rfl⟩
theorem test_wit_command_next : gives State.reset .commitSwitch (fun t => t.core.now == 0) = true := by decide +kernel
theorem test_wit_queue : ({ State.reset with pending := [.evret 0, .ssScrub] } : State).pending.length = 2 := rfl

/-! ### Sequencer instructions -/

theorem test_wit_result : (two 5 7).core.resultOf (.add 0 0 3 1 2) = some (0, 0, 1, 3, 12) ∧ (two 5 7).core.Executes 0 0 ∧ (two 5 7).core.posted = [] := by decide
theorem test_wit_result_g0 : (two 5 7).core.resultOf (.mul 0 0 0 1 2) = some (0, 0, 3, 0, 35) := by decide
theorem test_wit_result_g29 : (two 0x40000 0).core.resultOf (.add 0 0 29 1 2) = some (0, 0, 1, 29, 0x40000) ∧ (two 0x40000 0).core.stkLim 0 ≤ 0x40000 := by decide +kernel
theorem test_wit_predicate : (two 5 7).core.predOf (.cmp 0 0 .lt 7 1 2) = some (0, 0, 7, true) ∧ (Instr.cmp 0 0 .lt 7 1 2).wf = true ∧ (two 5 7).core.Executes 0 0 := by decide
theorem test_wit_division : (two 5 0).core.Executes 0 0 ∧ (two 5 0).core.g 0 2 = 0 ∧ (two 0x8000000000000000 0xFFFFFFFFFFFFFFFF).core.g 0 1 = 0x8000000000000000 ∧
    (two 0x8000000000000000 0xFFFFFFFFFFFFFFFF).core.g 0 2 = 0xFFFFFFFFFFFFFFFF := by decide
theorem test_wit_false_predicate : (Instr.add 0 7 1 1 1).underPredicate = some (0, 7) ∧ (two 5 7).core.canRun 0 = true ∧ (two 5 7).core.pr 0 7 = false := by decide
/-- A program of the secure world with the byte 0x80 at local address 0x10000. -/
def loaded : State := prog { sets := [(0, { g := [(1, 0x10000)] })] } (fun c => { c with mem := [(0x10010000, 0x80)] })
theorem test_wit_load : (Instr.lbs 0 0 3 1 0).loadOf.isSome = true ∧ loaded.core.Executes 0 0 ∧ loaded.core.MayAccess 0 false 0x10000 1 ∧
    loaded.core.flipsAt 0x10010000 = 0 := by decide +kernel
theorem test_wit_load_last : loaded.core.MayAccess 0 false 0x3FFF8 8 ∧ loaded.core.MayAccess 0 false 0x7FF8 8 := by decide +kernel
theorem test_wit_store : (Instr.st 0 0 3 1 8).storeOf.isSome = true ∧ loaded.core.MayAccess 0 true 0x10008 8 ∧ loaded.core.flipsAt 0x10010008 = 0 := by decide +kernel
/-- A service on sequencer 0 with 16 KiB, whose gate entry 0 costs 5 cycles and is called by the live image; g2 holds a value to store. -/
def served (v : W64) : State := prog { inCall := true, sets := [(0, { g := [(1, 0x3C000), (2, v)] })] } (fun c =>
  let x : Contract := { con 9 64 1 0 [] with image := some { services := [0] } }
  { c.wr (rg .SEQ_SVC_CFG 0) 1 with mem := [(0x1003C000, 0x10), (0x1003C003, 0x80), (0x1003C004, 5)], adm := { c.adm with live := [x] } })
theorem test_wit_store_no_gate : loaded.core.gateHit 0 0x10008 (leBytes 8 (loaded.core.g 0 3).toNat) = false ∧
    (served 4).core.gateHit 0 0x3C004 (leBytes 4 ((served 4).core.g 0 2).toNat) = false := by decide +kernel
theorem test_wit_store_gate : (served 6).core.Executes 0 0 ∧ (served 6).core.MayAccess 0 true 0x3C004 4 ∧
    (served 6).core.gateHit 0 0x3C004 (leBytes 4 ((served 6).core.g 0 2).toNat) = true := by decide +kernel
/-- R76: a called entry made invalid or dearer is refused with DEPENDENT, a cheaper cost is stored. -/
theorem test_gate_kept : gives (served 6) (.stw 0 0 2 1 4) (fun t => memByte t.core.mem 0x1003C004 == 5 && t.core.rd (rg .ADM_PW_RESULT 64) == 0x80010015) = true ∧
    gives (served 0) (.stw 0 0 2 1 0) (fun t => memByte t.core.mem 0x1003C003 == 0x80) = true ∧
    gives (served 4) (.stw 0 0 2 1 4) (fun t => memByte t.core.mem 0x1003C004 == 4) = true := by decide +kernel
theorem test_wit_forbidden : ¬ loaded.core.MayAccess 0 true 0xFFF8 8 ∧ ¬ loaded.core.MayAccess 0 false 0x8000 8 ∧ ¬ loaded.core.MayAccess 0 false 0x40000 8 ∧
    ¬ loaded.core.MayAccess 0 false 0x10004 8 := by decide +kernel
/-- A word with one flipped bit under a load; one with two under a partial store, a table entry and a gate entry. -/
theorem test_wit_one_flip : let s := on (fun _ => { loaded.core with flips := [(0x10010000, 1)] })
    s.core.MayAccess 0 false 0x10000 1 ∧ kget 0 s.core.flips ((0x10000000 + 0 * 0x40000 + 0x10000) / 8 * 8) = 1 := by decide +kernel
theorem test_wit_flips_store : let s := on (fun _ => { loaded.core with flips := [(0x10010008, 2)] })
    s.core.MayAccess 0 true 0x10008 4 ∧ 2 ≤ s.core.flipsAt 0x10010008 ∧ s.core.gateHit 0 0x10008 (leBytes 4 (s.core.g 0 3).toNat) = false := by decide +kernel
theorem test_wit_flips_code : let s := on (fun _ => { (two 0 7).core with flips := [(0x10000000, 2)] })
    s.core.Executes 0 0 ∧ 2 ≤ s.core.flipsAt (0x10000000 + 0 * 0x40000 + ((s.core.seq 0).pc + 4 + 4 * (s.core.g 0 1).toNat)) ∧
    (two 0 7).core.flipsAt (0x10000000 + 0 * 0x40000 + (((two 0 7).core.seq 0).pc + 4)) = 0 := by decide +kernel
theorem test_wit_two_flips : let s := prog { sets := [(0, { g := [(1, 0x10000)] })] } (fun c => { c with flips := [(0x10010000, 2)] })
    s.core.MayAccess 0 false 0x10000 8 ∧ 2 ≤ s.core.flipsAt 0x10010000 := by decide +kernel
theorem test_wit_stack_trap : let s := prog { sets := [(0, { g := [(1, 8)] })] }
    s.core.resultOf (.addi 0 29 1 0) = some (0, 0, 1, 29, 8) ∧ s.core.Executes 0 0 ∧ 8 < s.core.stkLim 0 := by decide +kernel
theorem test_wit_exception : (511 : Nat) < 512 ∧ (State.reset.core.seq 0).level < 4 := by decide
theorem test_wit_branch : (1 : Int) ≤ (1 : BitVec 23).toInt ∧ (two 0 0).core.pr 0 0 = true ∧ (two 0 0).core.pr 0 1 = false := by decide
theorem test_wit_ret : let s := prog { rets := [(0, [0x40])], sets := [(0, { g := [(31, 0x40)] })] }
    (s.core.seq 0).retRec = [0x40] ∧ (s.core.g 0 31).toNat = 0x40 ∧ (s.core.seq 0).frames = [] := by decide
theorem test_wit_ret_loops : let s := prog { rets := [(0, [0x40, 0x80])], sets := [(0, { g := [(31, 0x40)] })], loops := [(0, [{ first := 0x10, after := 0x18, left := 2, depth := 2 }])] }
    (s.core.seq 0).retRec = [0x40, 0x80] ∧ (s.core.g 0 31).toNat = 0x40 ∧ (s.core.seq 0).frames.map (fun f => f.depth) = [2] := by decide
theorem test_wit_ret_mismatch : (two 0 0).core.Executes 0 0 ∧ (((two 0 0).core.seq 0).retRec = []) := by decide
theorem test_wit_loop : Nat.min ((two 0 7).core.g 0 1).toNat 4 = 0 ∧ Nat.min ((two 0 7).core.g 0 2).toNat 4 = 4 := by decide
theorem test_wit_jtab : ((two 0 7).core.g 0 1).toNat < 7 ∧ 7 ≤ ((two 0 7).core.g 0 2).toNat := by decide
theorem test_wit_loop_body : let s := prog { pc := 0x14, loops := [(0, [{ first := 0x10, after := 0x18, left := 2, depth := 0 }])] }
    let f : LoopFrame := { first := 0x10, after := 0x18, left := 2, depth := 0 }
    (s.core.seq 0).frames = [f] ∧ f.depth = (s.core.seq 0).retRec.length ∧ (s.core.seq 0).pc + 4 = f.after := by decide
theorem test_wit_fence : (two 0 0).core.Executes 0 0 := by decide
theorem test_wit_mts : (prog { level := 3 }).core.Executes 0 0 ∧ ((prog { level := 3 }).core.seq 0).level ≠ 0 := by decide
theorem test_wit_twr : let a := ((two 0x21FFFFFC 0).core.g 0 1 + (0 : BitVec 13).signExtend 64).toNat
    0x20000000 ≤ a ∧ a < 0x22000000 ∧ a % 4 = 0 := by decide
theorem test_wit_twr_outside : let a := ((two 0x22000000 0).core.g 0 1 + (0 : BitVec 13).signExtend 64).toNat
    ¬ (0x20000000 ≤ a ∧ a < 0x22000000 ∧ a % 4 = 0) := by decide
theorem test_wit_drain : ((prog {} (fun c => c.setSt 0 { drain := true })).core.st 0).drain = true := by decide
theorem test_wit_tick_end : (two 0 0).core.Executes 0 0 ∧ ((two 0 0).core.owner 3 0).world = true := by decide
theorem test_wit_waits_stack : (0 : Nat) < (two 0 0).core.stkLim 0 ∧ ((two 0 0).core.owner 3 0).world = true := by decide +kernel
theorem test_wit_waits : (two 0 0).core.rdB (rg0 .PWR_CFG) 0 = false ∧ (two 0 0).core.rdF (rg .PWR_MODE 0) 1 0 = 0 := by decide +kernel
/-- Sequencer 0 with a service region whose entry 0 is valid, at word 0x80. -/
def gated : State := prog {} (fun c => { c.wr (rg .SEQ_SVC_CFG 0) 1 with mem := [(0x1003C000, 0x80), (0x1003C003, 0x80)] })
theorem test_wit_wcall : (gated.core.gate 0 0).1 = true ∧ (gated.core.gate 0 1).1 = false ∧ gated.core.canRun 0 = true := by decide +kernel
theorem test_wit_wcall_flips : let s := on (fun _ => { gated.core with flips := [(0x1003C000, 2)] })
    s.core.svcSize 0 = 0x4000 ∧ s.core.secure = true ∧ 2 ≤ s.core.flipsAt (0x10000000 + 0 * 0x40000 + (0x40000 - s.core.svcSize 0 + 8 * 0)) ∧
    gated.core.flipsAt (0x10000000 + 0 * 0x40000 + (0x40000 - s.core.svcSize 0 + 8 * 0)) = 0 := by decide +kernel
theorem test_wit_wret : ((prog { inCall := true }).core.seq 0).inCall = true ∧ (prog { inCall := true }).core.canRun 0 = true := by decide

/-! ### Events -/

/-- Sequencer 0 with a program, and source 5 of the secure world under a live contract: rate 2, priority 9, handler at 0x40. -/
def evented (q : Seq := {}) (f : Core → Core := id) : State :=
  prog q (fun c => f (((c.setOwner 6 5 secTag).wr (rg .EVR_SRC_CFG 5) 0x01090002).wr (rg .EVR_SRC_TARGET 5) 0x40))
theorem test_wit_event : (evented).core.srcLive 5 = true ∧ (evented).core.srcLive 6 = false ∧ (evented).core.Executes 0 0 := by decide +kernel
/-- The same, with source 5 pending. -/
def pendingSrc (q : Seq := {}) : State := evented q (fun c => c.wr (rg .EVR_PEND 0) 0x20)
theorem test_wit_entry : pendingSrc.core.offered 0 = some 5 := by decide +kernel
theorem test_wit_evret : let s := evented { level := 3, ctx := [(3, { source := 1023 })] }
    s.core.canRun 0 = true ∧ (s.core.seq 0).deferred = false ∧ (s.core.releaseSrc 1023).best ((s.core.releaseSrc 1023).eligible (fun u => (s.core.releaseSrc 1023).srcTarget u = 0)) = none := by decide +kernel
theorem test_wit_evret_chain : let s := pendingSrc { level := 1, ctx := [(1, { source := 7, prio := 3 })] }
    let d := s.core.releaseSrc 7
    d.held 0 = false ∧ d.best (d.eligible (fun u => d.srcTarget u = 0)) = some 5 ∧ (s.core.seq 0).prioOf 0 < d.srcPrio 5 + 1 := by decide +kernel
theorem test_wit_host_source : let s := on (fun c => (((c.setOwner 6 5 { granted := true, part := 2 }).wr (rg .EVR_SRC_CFG 5) 0x01090002).wr (rg .EVR_SRC_TARGET 5) 0xFF000000).wr (rg .EVR_PEND 0) 0x20)
    s.core.best (s.core.eligible (fun u => s.core.srcTarget u = 255 && !(s.core.srcBit .EVR_ACTIVE u) && sameOwner (s.core.owner 6 u) { part := 2 })) = some 5 := by decide +kernel
theorem test_wit_source_bits : (two 0 0).core.granted sec secTag (rg .EVR_DONE 31) 1 = true ∧ (two 0 0).core.granted sec secTag (rg .EVR_REARM 31) 1 = true ∧
    (two 0 0).core.granted sec secTag (rg .EVR_PEND 0) 1 = true := by decide +kernel
theorem test_wit_pend_write : (evented).core.ownsSrc secTag 5 = true ∧ (evented).core.isLevel 5 = false ∧ (evented).core.srcLive 5 = true := by decide +kernel
/-- Pin 31 enabled with both edges and an armed latch, its source contracted. -/
def pinned : State := on (fun c => (c.wr (rg .EVR_PIN_CFG 31) 0x19).wr (rg .EVR_SRC_CFG 1023) 0x01090002)
theorem test_wit_pin : pinned.core.rdB (rg .EVR_PIN_CFG 31) 0 = true ∧ pinned.core.rdF (rg .EVR_PIN_CFG 31) 3 2 ≠ 3 ∧ pinned.core.rdB (rg0 .EVR_PIN_FILT) 31 ≠ true ∧
    pinned.core.pinDir 31 true = true ∧ pinned.core.srcLive 1023 = true ∧ pinned.core.rdB (rg .EVR_PIN_CFG 31) 4 = true := by decide +kernel
/-- The same while the reference is stopped, nothing captured; and running again after a rising edge was captured. -/
theorem test_wit_pin_latch : let s := on (fun _ => { pinned.core with pwr := { pinned.core.pwr with asleep := 2 } })
    let d := on (fun _ => { pinned.core with evr := { pinned.core.evr with latched := [(31, some true)] } })
    s.core.refStopped = true ∧ s.core.rdB (rg .EVR_PIN_CFG 31) 4 = true ∧ s.core.pinDir 31 true = true ∧ kget none s.core.evr.latched 31 = none ∧
    d.core.refStopped = false ∧ kget none d.core.evr.latched 31 = some true := by decide +kernel


/-! ### Control space -/

theorem test_wit_register_write : (Instr.registerWrite sec 0x20010000 1).wf = true ∧ (two 0 0).core.writeOf (.registerWrite sec (rg0 .TKG_CTRL).addr 1) = some (sec, (rg0 .TKG_CTRL).addr, 1, {}) ∧
    (two 0 0).core.granted sec secTag (rg0 .TKG_CTRL) 1 = true ∧ isRwp (rg0 .TKG_CTRL) = false := by decide +kernel
theorem test_wit_register_command : let s := two 0 0
    (Instr.crcFeed sec 127 4 9).wf = true ∧ s.core.writeOf (.crcFeed sec 127 4 9) = some (sec, (rg .CRC_DATA32 127).addr, 9, {}) ∧
    s.core.granted sec secTag (rg .CRC_DATA32 127) 9 = true := by decide +kernel
theorem test_wit_register_range : (rg2 .LAYER_CTRL 15 31).i < (Fam.info .LAYER_CTRL).n1 ∧ (rg2 .LAYER_CTRL 15 31).j < (Fam.info .LAYER_CTRL).n2 ∧ (Fam.info .LAYER_CTRL).flat = false := by decide +kernel
theorem test_wit_turned_away : regAt 0x20000000 = none ∧ regAt 0x21FFFFFC = none ∧ (on (fun c => { c with pwr := { c.pwr with tripped := true } })).core.awake = false ∧
    State.reset.core.reachable (rg .RGL_PORT_CTRL 1) = true := by decide +kernel
/-- A partition's program: it may not write the tick generator. -/
def guest : State := on (fun c => ((c.setOwner 3 0 { granted := true, part := 2 }).setSeq 0 { mode := .running, live := some {} }).setF (rg .PART_STATE 2) 31 28 2)
def guestTag : Owner := { granted := true, part := 2 }
theorem test_wit_refused_write : let r := rg0 .TKG_CTRL
    guest.core.awake = true ∧ regAt r.addr = some r ∧ guest.core.reachable r = true ∧ guest.core.ctlTag sec r = some guestTag ∧ guest.core.canLog guestTag = true ∧
    guest.core.mayWrite sec guestTag r 0 = false ∧ r.fam.info.wr ≠ .window ∧ guest.core.rdB (rg0 .POT_FAULT_INFO) 31 = false := by decide +kernel
theorem test_wit_first_word : let s := two 0 0
    s.core.granted sec secTag (rg0 .ADM_PL_FLOOR) 7 = true ∧ isRwp (rg0 .ADM_PL_FLOOR) = true ∧ kget none s.core.pot.held (rg0 .ADM_PL_FLOOR).addr = none := by decide +kernel
/-- The first word of a pair held for a sequencer. -/
def half (k : Nat) (v : W32) : State := prog {} (fun c => { c with pot := { c.pot with held := [((rg0 .ADM_PL_FLOOR).addr, some { value := v, agent := k, at_ps := 0 })] } })
theorem test_wit_second_word : let s := half (agKey sec) 7
    s.core.granted sec secTag (rg0 .ADM_PL_FLOOR) 7 = true ∧ kget none s.core.pot.held (rg0 .ADM_PL_FLOOR).addr = some { value := 7, agent := agKey sec, at_ps := 0 } ∧
    s.core.now ≤ 0 + s.core.pairPs ∧ (7 : W32) ≠ ~~~7 ∧ agKey (.host 0) ≠ agKey sec := by decide +kernel
theorem test_wit_pair_timeout : (half 1 7).core.awake = true ∧ (kget none (half 1 7).core.pot.held (rg0 .ADM_PL_FLOOR).addr).isSome = true := by decide +kernel
theorem test_wit_paired_write : let s := two 0 0
    s.core.jfill < 65000 ∧ isRwp (rg .CRC_REF0_LO 127) = true ∧ s.core.granted sec secTag (rg .CRC_REF0_LO 127) 5 = true ∧ s.core.granted sec secTag (rg .CRC_REF0_LO 127) (~~~5) = true ∧
    kget none s.core.pot.held (rg .CRC_REF0_LO 127).addr = none := by decide +kernel
theorem test_wit_floor : let s := two 0 0
    s.core.granted sec secTag (rg0 .ADM_PL_FLOOR) (w32 7) = true ∧ s.core.granted sec secTag (rg0 .ADM_PL_FLOOR) (~~~(w32 7)) = true ∧
    kget none s.core.pot.held 0x20020008 = none ∧ s.core.rdF (rg0 .ADM_PL_FLOOR) 2 0 ≤ 7 := by decide +kernel
/-- The link is up. -/
def linkedUp (f : Core → Core := id) : State := prog {} (fun c => f (c.wr (rg0 .HOST_LINK) 0x80000000))
theorem test_wit_read : let s := linkedUp
    let r := rg0 .TKG_TICK_LO
    s.core.awake = true ∧ s.core.reachable r = true ∧ s.core.ctlTag (.host 0) r = some { granted := true } ∧ s.core.mayRead (.host 0) { granted := true } r = true ∧
    regAt r.addr = some r ∧ r.fam.info.pair = .lo ∧ regAt (r.addr + 4) = some (rg0 .TKG_TICK_HI) ∧ s.core.rdB (rg0 .HOST_LINK) 31 = true ∧ s.core.fnState 0 = 0 ∧
    s.core.boot.recovery = false := by decide +kernel
theorem test_wit_meter : let r := rg .AUD_METER 63
    (two 0 0).core.reachable r = true ∧ (two 0 0).core.mayRead sec secTag r = true ∧ regAt r.addr = some r := by decide +kernel
theorem test_wit_bar_write : let s := linkedUp
    s.core.granted (.host 0) { granted := true } (rg0 .PART_DESC_LO) 64 = true ∧ isRwp (rg0 .PART_DESC_LO) = false := by decide +kernel

/-! ### Ticks and time -/

theorem test_wit_boundary : State.reset.core.awake = true ∧ State.reset.core.tkg.inApply = false := by decide +kernel
theorem test_wit_switch : (on (fun c => c.setTkg { c.tkg with inApply := true })).core.tkg.inApply = true := by decide +kernel
theorem test_wit_head_tick : ((on (fun c => c.setHead 15 { tickDue := true })).core.head 15).tickDue = true := by decide +kernel
/-- Audio domain A runs at 48 kHz, the first sample of a period mixed. -/
def sounding : State := on (fun c => { (c.wr (rg .AUD_DOM 0) 0x8000BB80).wr (rg .TKG_AUDIO_CFG 0) 48000 with aud := { c.aud with doms := [(0, { pos := 17, tickDue := true })] } })
theorem test_wit_audio_tick : sounding.core.audOn 0 = true ∧ ((sounding.core.mixToTick 0).audDom 0).tickDue = true := by decide +kernel
theorem test_wit_close : let s := prog {}
    (s.core.seq 0).dbg = false ∧ (s.core.seq 0).asleep = false ∧ (s.core.st 0).closed = false ∧ (s.core.st 0).late = false := by decide +kernel
theorem test_wit_late : let s := prog {} (fun c => (c.setSt 0 { late := true, closed := true }).wr (rg0 .TKG_OVR_LIMIT) 1)
    (s.core.st 0).late = true ∧ s.core.rdF (rg0 .TKG_OVR_LIMIT) 7 0 ≤ (s.core.st 0).overs + 1 := by decide +kernel
theorem test_wit_wake : let s := on (fun c => (c.setOwner 3 63 secTag).setSeq 63 { mode := .waiting, live := some {}, restart := true })
    (s.core.seq 63).live = some {} ∧ (s.core.seq 63).mode = .waiting ∧ (s.core.seq 63).change = none ∧ (s.core.seq 63).deferred = false ∧ s.core.ownerRuns 63 = true ∧
    (s.core.seq 63).restart = true := by decide +kernel
/-- The selected source is valid, ACQUIRE, a phase step allowed. -/
def acquiring : State := on (fun c => (c.setTkg { c.tkg with srcValid := true, good := 15 }).wr (rg0 .TKG_CTRL) 2 |>.setF (rg0 .TKG_STATUS) 1 0 1)
theorem test_wit_phase_step : acquiring.core.awake = true ∧ acquiring.core.tkg.srcValid = true ∧ acquiring.core.rdB (rg0 .TKG_CTRL) 1 = true ∧ acquiring.core.tkgState = 1 ∧
    ∀ h, h < 16 → acquiring.core.scanning h = false := by decide +kernel
theorem test_wit_time_info : acquiring.core.tkgSrc = 0 ∧ (2 : Nat) ≠ State.reset.core.tkgSrc := by decide +kernel
theorem test_wit_no_step : State.reset.core.rdB (rg0 .TKG_CTRL) 1 = false := by decide +kernel
theorem test_wit_time_frame : let s := on (fun c => (c.wr (rg0 .TKG_CTRL) 8).setB (rg .RGL_PORT_STATUS 0) 0 true)
    s.core.tkgSrc = 2 ∧ s.core.portUp 0 = true := by decide +kernel
theorem test_wit_lock : (acquiring.core.tkgState = 1) ∧ decide ((1000 : Int).natAbs ≤ 1000) = true ∧ 16 ≤ acquiring.core.tkg.good + 1 := by decide +kernel

/-! ### Admission, partitions, page owners -/

theorem test_wit_submission : let s := prog {} (fun c => c.wr (rg .ADM_PW_DESC_LO 64) 0x100000)
    s.core.granted sec secTag (rg .ADM_PW_DESC_HI 64) 0 = true ∧ (let a := (s.core.rdN (rg .ADM_PW_DESC_LO (winOf (s.core.tag sec))) + 0) % 281474976710656
      s.core.place a ≠ .rom ∧ (∀ k, k < 64 → s.core.memOn (a + k) = true) ∧ s.core.dmc.reqs = []) := by decide +kernel
theorem test_wit_seal : (two 0 0).core.jfill < 65000 ∧ (two 0 0).core.granted sec secTag (rg .ADM_PW_CMD (winOf ((two 0 0).core.tag sec))) 1 = true ∧ (two 0 0).core.canLog secTag = true ∧
    (two 0 0).core.granted sec secTag (rg .ADM_PW_CMD 64) 2 = true := by decide +kernel
theorem test_wit_seal_drafted : let s := prog {} (fun c => { c with adm := { c.adm with drafts := [(64, { ops := [.release 5] })] } })
    (s.core.draft (winOf (s.core.tag sec))).sealed = none ∧ (s.core.draft 64).ops ≠ [] := by decide +kernel
theorem test_wit_discard_program : let s := prog {} (fun c => { c with adm := { c.adm with drafts := [(64, { ops := [.add (con 1 64 kPROGRAM 3 [])] })] } })
    .add (con 1 64 kPROGRAM 3 []) ∈ (s.core.draft 64).ops ∧ (con 1 64 kPROGRAM 3 []).kind = kPROGRAM := by decide +kernel
theorem test_wit_grant : let s := prog {} (fun c => c.wr (rg0 .PART_DESC_LO) 0x100000)
    s.core.place (s.core.rdPair (rg0 .PART_DESC_LO) (rg0 .PART_DESC_HI)) ≠ .rom ∧ (∀ k, k < 320 → s.core.memOn (s.core.rdPair (rg0 .PART_DESC_LO) (rg0 .PART_DESC_HI) + k) = true) ∧ s.core.dmc.reqs = [] ∧ s.core.granted sec secTag (rg0 .PART_CMD) (w32 (256 * 63 + 1)) = true ∧
    s.core.granted sec secTag (rg0 .PART_CMD) 5 = true ∧ s.core.granted sec secTag (rg0 .PART_CMD) 6 = true := by decide +kernel
/-- Partition 63 in a state. -/
def parted (st : Nat) : State := prog {} (fun c => c.setF (rg .PART_STATE 63) 31 28 st)
theorem test_wit_partition : (parted 1).core.partState 63 = 1 ∧ (parted 1).core.canLog ((parted 1).core.tag sec) = true ∧ (parted 1).core.isSecure ((parted 1).core.tag sec) = true ∧
    (parted 1).core.granted sec secTag (rg0 .PART_CMD) (w32 (256 * 63 + 4)) = true ∧ (parted 1).core.granted sec secTag (rg0 .PART_CMD) (w32 (256 * 63 + 3)) = true ∧
    (parted 1).core.granted sec secTag (rg0 .PART_CMD) (w32 (256 * 63 + 2)) = true := by decide +kernel
theorem test_wit_partition_states : (parted 0).core.partState 63 = 0 ∧ (parted 2).core.partState 63 = 2 ∧ (parted 3).core.partState 63 = 3 ∧ (parted 4).core.partState 63 = 4 := by decide +kernel
/-- The Page Owner Table at the start of DRAM, an edit of its first entry set up. -/
def paged : State := prog {} (fun c => ((c.wrPair (rg0 .POT_BASE_LO) (rg0 .POT_BASE_HI) 0x1000000000).wrPair (rg0 .POT_EDIT_ADDR_LO) (rg0 .POT_EDIT_ADDR_HI) 0x1000000000).wr (rg0 .POT_EDIT_COUNT) 1)
theorem test_wit_edit : paged.Inv ∧ paged.core.granted sec secTag (rg0 .POT_EDIT_STATUS) 1 = true ∧ paged.core.pot.edit = none ∧ paged.core.isSecure secTag = true ∧ paged.core.potBase ≠ 0 ∧
    paged.core.rdF (rg0 .POT_EDIT_COUNT) 16 0 = 1 := ⟨⟨by decide +kernel, by decide +kernel⟩, by decide +kernel⟩
theorem test_wit_edit_outside : (two 0 0).core.potBase = 0 := by decide +kernel
theorem test_wit_edit_busy : let s := on (fun c => { paged.core with pot := { c.pot with edit := some { next := 0, left := 1, count := 1, entry := 0x80007FFF } } })
    s.core.pot.edit.isSome = true ∧ s.core.granted sec secTag (rg0 .POT_EDIT_STATUS) 1 = true := by decide +kernel
theorem test_wit_rewrite : let s := on (fun c => { c with pot := { c.pot with rewrites := [(63, true)] } })
    kget false s.core.pot.rewrites 63 = true := by decide +kernel
theorem test_wit_latch_clear : (two 0 0).core.granted sec secTag (rg0 .POT_FAULT_INFO) 0x80000000 = true := by decide +kernel

/-! ### Memory -/

theorem test_wit_place : (0xFFFFFFFFFFFF : Nat) < 2 ^ 48 := by decide
theorem test_wit_shared : State.reset.core.isSecure { granted := true, world := true && State.reset.core.secure, part := 0 } = true ∧ (0x1DFFF80 : Nat) + 128 ≤ 0x1E00000 ∧
    (0x1DFFF80 : Nat) / 128 = (0x1DFFF80 + 128 - 1) / 128 := by decide +kernel
theorem test_wit_shared_foreign : let o : Owner := { granted := true, world := false && State.reset.core.secure, part := 2 }
    (State.reset.core.isSecure o || sameOwner o (State.reset.core.owner 8 0)) = false := by decide +kernel
theorem test_wit_scrub_flip : let s := on (fun c => { c with flips := [(0, 1)] })
    kget 0 s.core.flips (s.core.dmc.ssPos * 8) = 1 := by decide +kernel
/-- Page 1024 of DRAM belongs to partition 0, with all rights. -/
def pageOfP0 : State := on (fun _ => { paged.core with mem := [(0x1000001000, 0x0F), (0x1000001001, 0x7F), (0x1000001002, 0xF0), (0x1000001003, 0x80)] })
theorem test_wit_dram_ok : (pageOfP0.core.check { granted := true } false true 0x1001000000 64).1 = .ok ∧ pageOfP0.core.place 0x1001000000 = .dram := by decide +kernel
theorem test_wit_dram_refused : (pageOfP0.core.check { granted := true, part := 2 } false true 0x1001000000 64).1 ≠ .ok := by decide +kernel
/-- A read in the controller, in contract. -/
def asked : DramReq := { id := 7, port := 3, tag := secTag, write := false, addr := 0x1000004000, len := 64, data := [], arrive := 0, target := 8000, inContract := true, waiting := false, urgency := 2 }
def asking : State := on (fun c => { c with dmc := { c.dmc with reqs := [asked], nextId := 8 } })
theorem test_wit_dram_done : asking.core.dmc.reqs.find? (fun x => x.id = asked.id) = some asked ∧ asking.core.mayServe asked = true ∧ asked.waiting = false ∧ 0x2000000 ≤ asked.addr ∧
    (burstsIn asked.addr asked.len).any asking.core.poisoned = false ∧ asking.core.chState (dramChannel asking.core.counts.dram asked.addr) ≠ 5 ∧ asked.urgency < 3 ∧ asked.inContract = true := by decide +kernel
/-- Before it a request at U3 to the same channel, which therefore goes first. -/
theorem test_wit_dram_order : let s := on (fun c => { c with dmc := { c.dmc with reqs := [asked, { asked with id := 6, addr := 0x1000004040, urgency := 3 }] } })
    let x : DramReq := { asked with id := 6, addr := 0x1000004040, urgency := 3 }
    x ∈ s.core.dmc.reqs ∧ s.core.reqReady x = true ∧ s.core.reqChans x = s.core.reqChans asked ∧ s.core.reqStep x < s.core.reqStep asked ∧
    s.core.reqStep { x with urgency := 2 } = s.core.reqStep asked ∧ s.core.reqStep asked ≤ 3 := by decide +kernel
theorem test_wit_dram_behind : let s := on (fun c => { c with dmc := { c.dmc with reqs := [{ asked with id := 6 }, asked] } })
    ((s.core.dmc.reqs.takeWhile (fun x => x.id != asked.id)).any (fun x => (burstsIn x.addr x.len).any (burstsIn asked.addr asked.len).contains)) = true := by decide +kernel
theorem test_wit_scrub : State.reset.core.rdF (rg0 .DMC_SCRUB_CFG) 7 0 ≠ 0 ∧ State.reset.core.bgMay 0 = true ∧ State.reset.core.poisoned (dramAt State.reset.core.counts.dram 0 0) = false ∧
    State.reset.core.chState (State.reset.core.chan (dramAt State.reset.core.counts.dram 0 0)) ≠ 5 := by decide +kernel
theorem test_wit_retrain : let s := on (fun c => (c.setChState 15 1).wr (rg0 .DMC_TRAIN_CFG) 0x10001)
    15 < s.core.counts.dram ∧ s.core.dmc.training = none ∧ s.core.chState 15 = 1 := by decide +kernel
/-- The rotation goes past a FAILED channel 0 and comes to channel 1. -/
theorem test_wit_retrain_rotation : let s := on (fun c => ((c.setChState 0 5).setChState 1 1).wr (rg0 .DMC_TRAIN_CFG) 0x10001)
    s.core.dmc.training = none ∧ s.core.chState 1 = 1 ∧ s.core.rdB (rg0 .DMC_TRAIN_CFG) 16 = true ∧
    s.core.nextTrain s.core.counts.dram s.core.dmc.lastTrain s.core.counts.dram = some 1 := by decide +kernel
theorem test_wit_retrain_step : (on (fun c => { c with dmc := { c.dmc with training := some 15, steps := 511 } })).core.dmc.training = some 15 := by decide +kernel
/-- Rows of channel 15: one counted below the threshold in this window, one just below it, one whose CRC does not hold. -/
theorem test_wit_activation : let s := on (fun c => c.setDmc { c.dmc with rows := [(rowKey 15 15 0, some (rowMeta 7 0)), (rowKey 15 15 1, some (rowMeta (c.rhThreshold - 1) 0)),
      (rowKey 15 15 2, some { rowMeta 7 0 with count := 8 })] })
    s.core.throttled 15 15 0 = false ∧ s.core.chState 15 ≠ 4 ∧ kget none s.core.dmc.rows (rowKey 15 15 0) = some (rowMeta 7 0) ∧ (rowMeta 7 0).sound = true ∧ (rowMeta 7 0).window = 0 ∧
    7 + 1 < s.core.rhThreshold ∧ (rowMeta (s.core.rhThreshold - 1) 0).count + 1 = s.core.rhThreshold ∧ (rowMeta (s.core.rhThreshold - 1) 0).sound = true ∧
    ({ rowMeta 7 0 with count := 8 } : RowMeta).sound = false := by decide +kernel
theorem test_wit_write_back : let s := on (fun c => c.setDmc { c.dmc with corrQ := [0x1000004000] })
    s.core.dmc.corrQ.find? (fun a => s.core.bgMay (s.core.chan a)) = some 0x1000004000 := by decide +kernel
theorem test_wit_power_down : let s := on (fun c => ((c.setChState 15 1).wr (rg0 .DMC_PD_CFG) 0x30000))
    s.core.dmc.reqs = [] ∧ s.core.dmc.training = none ∧ s.core.dmc.corrQ = [] ∧ s.core.rdB (rg0 .DMC_PD_CFG) 17 = true ∧ s.core.chState 15 = 1 ∧ 600 ≤ s.core.headTol ∧ 30 ≤ s.core.halfTarget := by decide +kernel
/-- Channel 127 of partition 0 moves 256 bytes from bank 0 to bank 1. -/
def moving (st : Nat) : State := on (fun c => { (List.range 32).foldl (fun (c : Core) b => c.setOwner 8 b { granted := true, part := 0 }) (c.setDmaState 127 st) with
  dmas := [(127, { desc := { src := 0, dst := 0x100000, lineLen := 256, lines := 1 } })] })
theorem test_wit_dma : (moving 1).core.dmaState 127 = 1 ∧ (moving 2).core.dmaState 127 = 2 ∧ (moving 1).core.awake = true ∧ (moving 1).core.flips = [] ∧ (moving 1).core.poison = [] ∧
    ((moving 1).core.dma 127).err = 0 ∧ (∀ b, b < 30 → sameOwner ((moving 1).core.tag (.dma 127)) ((moving 1).core.owner 8 b) = true) := by decide +kernel
theorem test_wit_dma_plain : let s := moving 1
    let d := (s.core.dma 127).desc
    d.lineLen = 256 ∧ d.lines = 1 ∧ d.chain = false ∧ (s.core.dma 127).done = 0 ∧ d.src + d.lineLen ≤ d.dst ∧ d.dst + d.lineLen ≤ 0x1E00000 ∧ (∀ b, b < 30 → s.core.domOn (6 + b / 8) = true) ∧
    (s.core.dma 127).mute = false ∧ (s.core.dma 127).halfHit = false := by decide +kernel
/-- A descriptor at the start of bank 1 for channel 127. -/
theorem test_wit_dma_descriptor : let s := on (fun _ => let c := pageOfP0.core; (c.wr (rg .DMA_CH_DESC_LO 127) 0x1000000).wr (rg .DMA_CH_DESC_HI 127) 0x10 |>.setChState (c.chan 0x1001000000) 1 |>.setOwner 4 127 { granted := true })
    let a := s.core.rdPair (rg .DMA_CH_DESC_LO 127) (rg .DMA_CH_DESC_HI 127)
    a % 64 = 0 ∧ s.core.place a = .dram ∧ s.core.memOn a = true ∧ s.core.dmc.reqs = [] ∧ s.core.chState (s.core.chan a) ≠ 5 ∧ s.core.poisoned a = false ∧
    (s.core.check (s.core.tag (.dma 127)) false false a 64).1 = .ok := by decide +kernel
theorem test_wit_dma_start : let s := prog {} (fun c => c.wr (rg .DMA_CH_DESC_LO 127) 0x2000000)
    s.core.granted sec secTag (rg .DMA_CH_CTRL 127) 1 = true ∧ s.core.granted sec secTag (rg .DMA_CH_CTRL 127) 2 = true ∧ s.core.dmaState 127 = 0 := by decide +kernel
theorem test_wit_dma_error : let s := on (fun c => { c.setDmaState 127 2 with dmas := [(127, { err := 15 })] })
    s.core.dmaState 127 = 2 ∧ (s.core.dma 127).err = 15 := by decide +kernel
theorem test_wit_crc : (two 0 0).core.granted sec secTag (rg .CRC_CFG 127) 0x20 = true ∧ (two 0 0).core.granted sec secTag (rg .CRC_CTRL 127) 1 = true ∧ (two 0 0).core.granted sec secTag (rg .CRC_CTRL 127) 2 = true ∧
    (two 0 0).core.granted sec secTag (rg .CRC_DATA8 127) 1 = true ∧ (two 0 0).core.crcRegion 127 = false ∧ (two 0 0).core.granted sec secTag (rg .CRC_RX_LO 127) 0 = true := by decide +kernel
theorem test_wit_crc_region : (prog {} (fun c => c.wr (rg .CRC_CFG 127) 0x40000020)).core.crcRegion 127 = true := by decide +kernel

/-! ### Sources and decoders -/

/-- A source contract of the secure world for slot 1023: period 10 ms, 4096 bytes, host intake. -/
def guestSource : Contract := con 9 64 kSOURCE 1023 [10000, 4096, 20000, 2, 0]
def sourced (st : Nat) (f : Core → Core := id) : State :=
  prog {} (fun c => f { c.setF (rg .SYS_SRC_STATE 1023) 31 30 st with adm := { c.adm with live := [guestSource] } })
theorem test_wit_publish : let s := sourced 1
    let cmd := rg .SYS_SRC_PW_CMD (winOf (s.core.tag sec))
    s.core.slotSrc 1023 = some guestSource ∧ s.core.granted sec secTag cmd (w32 1023) = true ∧ ((s.core.logWrite sec cmd.addr 0 (w32 1023)).check secTag false false 0 (max 1 (guestSource.n 5))).1 = .ok ∧
    guestSource.sub = winOf (s.core.tag sec) ∧ s.core.slotState 1023 ≠ 0 ∧ s.core.partActive 64 = true ∧ guestSource.f 7 3 0 = 2 ∧ s.core.granted sec secTag cmd (w32 (0x80000000 + 1023)) = true ∧
    s.core.granted sec secTag cmd (w32 (0xC0000000 + 1023)) = true ∧ s.core.secure = true := by decide +kernel
theorem test_wit_lost_slot : ((sourced 2).core.lossAt 1023).isSome = true ∧ (sourced 1).core.lossAt 1023 = none := by decide +kernel


/-- A record whose stamp has sequence number 5 and capture time 77. -/
def stamped (addr : Nat) : SrcRec := { addr := addr, stamp := stampOf [0x00000001, 5, 77, 0, 10000, 2, 20000] }
/-- Slot 1 derives from slot 0, both the secure world's. -/
def derived : State := prog {} (fun c => { ((c.setF (rg .SYS_SRC_STATE 1) 31 30 1).setF (rg .SYS_SRC_STATE 0) 31 30 2).wr (rg .SYS_SRC_PW_SEQ 64) 5 with
  adm := { c.adm with live := [con 8 64 kSOURCE 0 [10000, 4096, 20000, 2, 0], con 9 64 kSOURCE 1 [10000, 4096, 20000, 2, 0, 0x80000000]] }
  slots := [(0, { cur := stamped 0 })] })
theorem test_wit_publish_derived : let s := derived
    let x := con 9 64 kSOURCE 1 [10000, 4096, 20000, 2, 0, 0x80000000]
    let y := con 8 64 kSOURCE 0 [10000, 4096, 20000, 2, 0]
    s.core.slotSrc 1 = some x ∧ s.core.slotSrc 0 = some y ∧ bit (x.w 9) 31 = true ∧ x.f 9 9 0 = 0 ∧ y.sub = winOf (s.core.tag sec) ∧ s.core.potBase = 0 ∧
    s.core.granted sec secTag (rg .SYS_SRC_PW_CMD 64) (w32 (0x40000000 + 1)) = true ∧ s.core.originRec 0 (s.core.rd (rg .SYS_SRC_PW_SEQ 64)) = some (stamped 0) := by decide +kernel
theorem test_wit_publish_foreign : let s := prog {} (fun c => { c.setF (rg .SYS_SRC_STATE 1) 31 30 1 with adm := { c.adm with live := [con 9 2 kSOURCE 1 [10000, 4096, 20000, 2, 0]] } })
    s.core.slotSrc 1 = some (con 9 2 kSOURCE 1 [10000, 4096, 20000, 2, 0]) ∧ s.core.granted sec secTag (rg .SYS_SRC_PW_CMD (winOf (s.core.tag sec))) (w32 1) = true ∧
    (2 : Nat) ≠ winOf (s.core.tag sec) := by decide +kernel
/-- Camera port 0 on, with a slot of the secure world for its virtual channel 3, data type 0x2B, one buffer in bank 0. -/
def cameraSource : Contract := con 9 64 kSOURCE 5 [10000, 65536, 20000, 0, 0, 0x2B30, 0, 0, 0, 0, 0x10000, 1]
def camera (f : Slot → Slot := id) : State := prog {} (fun c => { (c.wr (rg .CSI_CTRL 0) 1).setF (rg .SYS_SRC_STATE 5) 31 30 1 with
  adm := { c.adm with live := [cameraSource] }, slots := [(5, f {})] })
theorem test_wit_camera : camera.core.csiOn 0 = true ∧ camera.core.csiSlots 0 3 = [(5, cameraSource)] ∧ camera.core.slotSrc 5 = some cameraSource := by decide +kernel
theorem test_wit_camera_publish : camera.core.nextBuf 5 cameraSource = some 0 ∧ camera.core.slotState 5 ≠ 0 ∧ camera.core.partActive 64 = true ∧ (camera.core.slot 5).pubs = [] ∧
    camera.core.memOn 0 = true ∧ camera.core.flips = [] ∧ camera.core.poison = [] ∧ csiType 0x2F = false := by decide +kernel
theorem test_wit_camera_line : let s := camera (fun x => { x with inFrame := true, seq := 1 })
    csiType 0x2B = true ∧ cameraSource.f 9 13 8 = 0x2B ∧ (s.core.slot 5).inFrame = true ∧ (s.core.slot 5).tooSmall = false ∧ s.core.slotHsrc 5 = none ∧
    (s.core.check (ownerOf cameraSource.sub) false true 0 4).1 = .ok ∧ s.core.place 0 ≠ .dram := by decide +kernel
theorem test_wit_camera_ring : let x := con 9 64 kSOURCE 5 [10000, 65536, 20000, 0, 0, 0x2B30, 0, 0, 0, 0, 0x10000, 2]
    x.f 15 7 0 ≠ 1 ∧ (0 + 4 ≤ x.n64 12 + (0 + 1) * x.n 14) := by decide +kernel
/-- NET port 3 receives; slot 6 takes the packets of UDP port 5004 from any source. -/
def netSource : Contract := con 9 64 kSOURCE 6 [10000, 65536, 20000, 1, 0, 0x138C0003]
def netting : State := prog {} (fun c => { (c.wr (rg .NET_PORT_CTRL 3) 1).setF (rg .SYS_SRC_STATE 6) 31 30 1 with adm := { c.adm with live := [netSource] } })
theorem test_wit_packet : 3 < netting.core.counts.net ∧ netting.core.rdB (rg .NET_PORT_CTRL 3) 0 = true ∧ netting.core.domOn 19 = true ∧
    netting.core.netSlots 3 5004 7 = [(6, netSource)] ∧ netting.core.netSlots 3 5005 7 = [] := by decide +kernel
/-- Decoder 7, context 31 of the secure world: 25 pictures a second, a ring of 64 KiB, into slot 1023. -/
def decodeCon : Contract := con 3 64 kDECODE 7 [0x1F01, 0x07800438, 25000, 10000, 0x001203FF, 0x10000, 0, 0, 0, 0, 0x10000, 2]
def decoding (q : VCtx := {}) : State := prog {} (fun c => { c.setVdeState 7 31 1 with adm := { c.adm with live := [decodeCon, guestSource] }, vctxs := [(255, q)] })
theorem test_wit_decoder : let s := decoding
    s.core.vdeCon 7 31 = some decodeCon ∧ s.core.granted sec secTag (rg2 .VDE_CTX_WPTR 7 31) 64 = true ∧ s.core.vdeState 7 31 ≠ 0 ∧ s.core.slotSrc (decodeCon.f 8 9 0) = some guestSource ∧
    guestSource.f 7 3 0 = 2 ∧ s.core.granted sec secTag (rg2 .VDE_CTX_CTRL 7 31) 1 = true := by decide +kernel
def released : VUnit := { at_ := 0, size := 128, bad := false, gap := false, part := false, degraded := false, replayed := false, capture := 0, released := some 0 }
theorem test_wit_decoder_runs : let s := decoding { units := [released] }
    s.core.dmc.reqs = [] ∧ s.core.vdeNext 7 = some 31 ∧ s.core.partActive decodeCon.sub = true ∧ s.core.vdeDead 7 31 = false := by decide +kernel
theorem test_wit_decoded : let s := decoding { units := [released] }
    (s.core.vctx 7 31).units = [released] ∧ released.released = some 0 ∧ (s.core.vdeBuf decodeCon (s.core.vctx 7 31)).isSome = true := by decide +kernel

/-! ### Heads and links -/

/-- A head of 80 × 48 in a raster of 100 × 60, strips of 16 lines, at 6 MHz; mode 0 or locked. -/
def headCon (mode : W32) : Contract := con 4 64 kHEAD 15 [6000, 0x0064003C, 0x00500030, mode * 4096 + 132, 0]
/-- Head 15 with that contract, in the raster at a line, latched unless said otherwise. -/
def raster (line : Nat) (f : Head → Head := id) (mode : W32 := 0) : State := prog {} (fun c => { (c.wr (rg .HD_STATUS 15) (w32 (0x40000000 + line))).wr (rg .HD_CTRL 15) 1 with
  adm := { c.adm with live := [headCon mode] }, heads := [(15, f { con := some (headCon mode), unlatched := false })] })
theorem test_wit_raster_start : let s := prog {} (fun c => { c.wr (rg .HD_CTRL 15) 1 with adm := { c.adm with live := [headCon 1] }, heads := [(15, { bothAt := some 0 })] })
    (s.core.head 15).bothAt = some 0 ∧ s.core.headCon 15 = some (headCon 1) ∧ s.core.scanning 15 = false ∧ s.core.rdB (rg .HD_CTRL 15) 0 = true ∧ (headCon 1).hMode = 1 := by decide +kernel
theorem test_wit_line : ((raster 10).core.head 15).con = some (headCon 0) ∧ (raster 10).core.scanning 15 = true ∧ ((raster 10).core.nextLine 15 (headCon 0)).1 = 11 ∧ (headCon 0).vActive = 48 := by decide +kernel
theorem test_wit_line_late : ((raster 10).core.head 15).unlatched = false ∧ ((raster 10).core.head 15).under = none ∧ ((raster 10 (fun x => { x with under := some 3 })).core.head 15).under.isSome = true ∧
    (∀ j, j < 32 → (kget {} ((raster 10).core.head 15).latched j).part = false) := by decide +kernel
theorem test_wit_blanking : ((raster 47).core.nextLine 15 (headCon 0)).1 = 48 ∧ ((raster 47).core.nextLine 15 (headCon 0)).2.2 = false ∧ (raster 47).core.rdB (rg .HD_STATUS 15) 28 = false ∧
    (raster 47).core.headCon 15 = some (headCon 0) := by decide +kernel
theorem test_wit_blanking_ends : let s := on (fun c => { (raster 47).core with adm := c.adm })
    s.core.headCon 15 = none ∧ (s.core.nextLine 15 (headCon 0)).1 = 48 := by decide +kernel
theorem test_wit_latch : (raster 44).core.headLine 15 = (headCon 0).vTotal - (headCon 0).hStrip ∧ (headCon 0).hStrip = 16 ∧
    ((raster 44).core.head 15).line0 ≠ ((raster 44).core.head 15).lineAt + (raster 44).core.linesPs (headCon 0) 16 := by decide +kernel
/-- The same with one layer on slot 1023. -/
def layered : State := on (fun _ => { (raster 44 (fun x => { x with lays := [(31, some (con 6 64 kLAYER 15 [0x1F00, 0, 0, 1023]))] })).core with slots := [(1023, { held := stamped 64 })] })
theorem test_wit_latch_layer : layered.core.headSources 15 (headCon 0) = [(31, 1023)] ∧ layered.core.snapOf 15 1023 = none ∧ (layered.core.slot 1023).held.stamp ≠ [] ∧
    stampOk (layered.core.slot 1023).held.stamp = true ∧ isDirect (headCon 0) = false ∧
    layered.core.inBanks (layered.core.owner 1 15) (snapF layered.core.var layered.core.regs (rg .HD_COMP_RING 15) 24 7 * 128) (2 * (headCon 0).hActive * (headCon 0).hStrip * 4) = true := by decide +kernel
theorem test_wit_latch_ring : let s := on (fun _ => (raster 44).core.setOwner 1 15 { granted := true, part := 2 })
    s.core.inBanks (s.core.owner 1 15) (snapF s.core.var s.core.regs (rg .HD_COMP_RING 15) 24 7 * 128) (2 * (headCon 0).hActive * (headCon 0).hStrip * 4) = false := by decide +kernel
theorem test_wit_strip : let s := raster 48 (fun x => { x with due := some 2 })
    (s.core.head 15).due = some 2 ∧ 2 < stripCount (headCon 0) ∧ (∀ j, j < 32 → s.core.mkView 15 (headCon 0) 2 j = none) ∧ (s.core.head 15).ringBad = false := by decide +kernel
theorem test_wit_strip_ring : let s := raster 48 (fun x => { x with due := some 2 })
    s.core.inBanks (s.core.owner 1 15) (snapF s.core.var (s.core.head 15).act (rg .HD_COMP_RING 15) 24 7 * 128) (2 * (headCon 0).hActive * (headCon 0).hStrip * 4) = true ∧
    isDirect (headCon 0) = false ∧ (∀ d, d < 10 → 6 ≤ d → s.core.domOn d = true) ∧ s.core.flips = [] ∧ s.core.poison = [] := by decide +kernel
theorem test_wit_untapped : ((raster 10).core.adm.live.any (fun y => y.kind = kENCODE)) = false ∧ (raster 10).core.encs = [] ∧ (raster 10).core.dmc.reqs = [] ∧
    (raster 48).core.headLine 15 ≠ 44 := by decide +kernel
theorem test_wit_scanout : let s := raster 59 (fun x => { x with next := some { k := 0, lines := 16 } })
    (s.core.nextLine 15 (headCon 0)).1 = 0 * (headCon 0).hStrip ∧ (s.core.nextLine 15 (headCon 0)).2.2 = false ∧ (s.core.head 15).next = some { k := 0, lines := 16 } ∧ 0 < stripCount (headCon 0) := by decide +kernel
theorem test_wit_scanout_late : ((raster 59).core.head 15).next = none ∧ ((raster 31).core.nextLine 15 (headCon 0)).1 = 2 * (headCon 0).hStrip := by decide +kernel
theorem test_wit_frame_done : ((raster 48 (fun x => { x with doneDue := true })).core.head 15).doneDue = true := by decide +kernel
theorem test_wit_engine : 63 < State.reset.core.counts.le := by decide +kernel
theorem test_wit_lost_pixel : let v : LayView := { slot := 29, x := 0, y := 0, w := 8, h := 8, mode := 0, galpha := 255, ox := 0, oy := 0, ow := 0, oh := 0, state := 4, label := [] }
    v ∈ [v] ∧ v.slot < 30 ∧ inRegion [v] v 7 7 = true ∧ v.state = 4 := by decide +kernel
/-- Transmitter 7, on, its link in a state. -/
def linkOf (v : W32) (x : Dpt := {}) : State := on (fun c => { (c.wr (rg .DPT_CTRL 7) 1).wr (rg .DPT_STATUS 7) v with dpts := [(7, x)] })
theorem test_wit_link : (linkOf 0).core.dptPresent 7 = true ∧ (linkOf 0).core.rdB (rg .DPT_CTRL 7) 0 = true := by decide +kernel
theorem test_wit_link_loss : (linkOf 0xFFFFFFFF).core.trained 7 = true := by decide +kernel
theorem test_wit_training : let s := linkOf 0 { training := true }
    (s.core.dpt 7).training = true ∧ s.core.rdF (rg .DPT_LINK 7) 3 0 = 10 ∧ s.core.rdF (rg .DPT_LINK 7) 6 4 = 4 ∧ linkMbps 10 ≠ 0 ∧ linkMbps 11 = 0 := by decide +kernel
theorem test_wit_aux : ((linkOf 0 { aux := some 0x90000000, retries := 6 }).core.dpt 7).aux = some 0x90000000 ∧ fld (0x90000000 : W32) 31 28 % 2 = 1 ∧
    ((linkOf 0 { aux := some 0x80000000, retries := 7 }).core.dpt 7).retries = 7 := by decide +kernel
/-- Transmitter 7 with readback of stream 1: value 7, then 5, as the last frames. -/
def readback : State := on (fun c => { (c.wr (rg .DPT_SINKCRC 7) 0x80000201) with dpts := [(7, { sinkCrc := true, on := [(1, true)] })], heads := [(15, { crcs := [[0, 0, 7], [0, 0, 5], [0, 0, 3]], auxBad := 2 })] })
theorem test_wit_sinkcrc : let cfg := readback.core.rd (rg .DPT_SINKCRC 7)
    bit cfg 31 = true ∧ (readback.core.dpt 7).sinkCrc = true ∧ kget false (readback.core.dpt 7).on 1 = true ∧ readback.core.rdB (rg2 .DPT_STREAM 7 1) 30 = false ∧
    [0, 0, 5] ∈ (readback.core.head 15).crcs.take (max 1 (fld cfg 11 8)) ∧ [0, 0, 3] ∉ (readback.core.head 15).crcs.take (max 1 (fld cfg 11 8)) := by decide +kernel


/-! ### Encoders, the witness and the cave -/

/-- A stream of encoder 3 from head 0: 128 × 128 at 25 pictures a second, row bytes up to 60,000. -/
def encodeCon (remote : Bool) : Contract := con 5 64 kENCODE 3 [0, 0x00800080, 25000, if remote then 0x20 else 0, 60000, 7]
def coding (q : EncStream) (remote : Bool := false) : State := prog {} (fun c => { (c.setEncState 3 7 1).wr (rg0 .WIT_CTRL) 0x80000000 with
  adm := { c.adm with live := [encodeCon remote] }, encs := [(31, q)] })
def coded : EncPic := { frame := 3, t0 := 0, idr := true, ready := [{ row := 0, deadline := 9 }], con := encodeCon false, lines := 128 }
theorem test_wit_encoder : let s := coding { pics := [coded] }
    s.core.encCon 3 7 = some (encodeCon false) ∧ s.core.encState 3 7 = 1 ∧ encRemote (encodeCon false) = false ∧ encRows (encodeCon false) = 2 ∧ coded.made + coded.ready.length < 2 ∧
    s.core.encNext 3 = some (7, { row := 0, deadline := 9 }) ∧ (s.core.enc 3 7).pics = [coded] ∧ 3 < s.core.counts.vee ∧ s.core.witOn = true := by decide +kernel
theorem test_wit_encoder_next_row : encRemote coded.con = false ∧ coded.made + coded.ready.length = 1 ∧ 1 < encRows coded.con ∧ min (coded.con.f 5 15 0) (64 * (1 + 1)) ≤ coded.lines ∧
    (coding { pics := [coded] }).core.dmc.reqs = [] ∧ 0 < encRows (encodeCon true) := by decide +kernel
theorem test_wit_encoder_last_row : let p : EncPic := { coded with made := 1 }
    p.made + 1 = encRows (encodeCon false) ∧ coded.made + 1 ≠ encRows (encodeCon false) := by decide +kernel
theorem test_wit_encoder_remote : let s := coding { token := true } true
    s.core.encCon 3 7 = some (encodeCon true) ∧ encRemote (encodeCon true) = true ∧ (s.core.enc 3 7).token = true ∧ s.core.encState 3 7 ≠ 3 := by decide +kernel
/-- A record waiting for namespace 63, a staging ring of some MiB in bank 0. -/
def recording (mib : W32) (w : Wit := {}) : State := on (fun c => { c.wr (rg0 .WIT_STAGE_SIZE) mib with wit := { w with queue := [(63, { kind := 5, stream := 0, flags := 0, time := 0, payload := [1] })] } })
theorem test_wit_record : let s := recording 1
    s.core.wit.queue.length = 1 ∧ s.core.staged + 4096 ≤ s.core.stageSize ∧ (recording 0).core.stageSize < (recording 0).core.staged + 1 := by decide +kernel
theorem test_wit_segment_close : let s := recording 1 { segs := [(63, { ns := 63 })] }
    s.core.wit.segs.find? (fun p => p.1 = 63) = some (63, { ns := 63 }) := by decide +kernel
theorem test_wit_handoff : let s := recording 1 { closed := [{ ns := 63, key := 3 }], keys := [(3, 8)], signKey := 9 }
    s.core.wit.closed = [{ ns := 63, key := 3 }] ∧ kget 0 s.core.wit.keys 3 ≠ 0 ∧ s.core.wit.signKey ≠ 0 ∧ kget 0 (recording 1 { closed := [{ ns := 63, key := 3 }] }).core.wit.keys 3 = 0 := by decide +kernel
theorem test_wit_segment_full : ∀ n : Nat, n ≤ (List.replicate n (0 : Byte)).length := fun n => Nat.le_of_eq (List.length_replicate (n := n)).symm
/-- A staging ring of 1 MiB in bank 0 that takes a sealed segment in one piece. -/
theorem test_wit_handoff_stage : let s := recording 1
    s.core.stagePlace 500 = [(0, 500)] ∧ (s.core.check s.core.witClient.tag false true 0 500).1 = .ok ∧ s.core.memOn 0 = true ∧ s.core.flips = [] ∧ s.core.poison = [] ∧ s.core.dmc.reqs = [] ∧
    500 ≤ s.core.stageSize ∧ (∀ i, i < 16 → s.core.chState i ≠ 5) := by decide +kernel
theorem test_wit_cap : ([3, 4] : List Nat).length ≤ 2 ∧ 100 * (0 + 2 * 96) ≤ 102 * 60000 := by decide
/-- Segment 1 of the device namespace: two bytes at the start of superblock 4. -/
def stored : CSeg := { ns := 0, number := 1, len := 2, spans := [(4, 0, 2)], done := true }
/-- A formatted cave of three active members, superblock 4 open in the device namespace, one segment waiting for its commit, one done. -/
def caved (f : Cave → Cave := id) : State := on (fun c =>
  let c := (List.range 3).foldl (fun (c : Core) m => (c.setF (rg .CAVE_MEMBER_STATUS m) 31 28 1).wr (rg .CAVE_MEMBER_CFG m) 0x80000000) ((c.wr (rg0 .CAVE_CTRL) 1).wr (rg0 .CAVE_STATUS) 0x80000000)
  { c.wr (rg0 .CAVE_NS0_GIB) 1 with
    cave := f { members := (List.range 3).map (fun m => (m, { dies := 1, blocks := 4, blkBytes := 16384, endurance := 100 }))
                blks := (List.range 3).map (fun m => (blkKey m 0, { sb := some 4 }))
                supers := [(4, { ns := 0, units := [(0, 0), (1, 0), (2, 0)], cap := 32768, data := [1, 2, 3], due := true })], nextSb := 5, formatted := true
                segs := [stored, { stored with number := 2, len := 1, spans := [(4, 2, 1)], done := false }] }
    wit := { c.wit with offered := [{ ns := 0, number := 3, bytes := [7, 8, 9] }] } })
theorem test_wit_cave : let s := caved
    s.core.caveTakes = true ∧ (s.core.openOf 0).isSome = true ∧ s.core.wit.offered.length = 1 ∧ (s.core.blk 2 0).sb = some 4 ∧ s.core.memState 2 = 1 ∧
    (s.core.cave.segs.any (fun y => !y.done && y.uses 4)) = true ∧ (s.core.cave.segs.find? (fun y => !y.done && decide (y.ns < 64))).isSome = true ∧
    s.core.findSeg 0 1 = some stored ∧ s.core.missing 4 (s.core.super 4) [2] = 1 ∧ s.core.missing 4 (s.core.super 4) [1, 2] = 2 := by decide +kernel
theorem test_wit_cave_space : ((caved.core.cave.segs.filter (fun y => y.ns = 0)).map (fun y => y.len)).sum + 3 ≤ caved.core.nsCap 0 ∧ (caved.core.super 4).data.length + 3 ≤ (caved.core.super 4).cap ∧
    caved.core.cave.segs.any (fun g => g.uses 4) = true ∧ (caved.core.openOf 0).map (fun p => p.1) = some 4 ∧ State.reset.core.caveTakes = false := by decide +kernel
/-- The same with the three bytes still in the staging ring at address 64. -/
theorem test_wit_cave_stage : let s := on (fun _ => caved.core)
    (∀ k, k < 3 → s.core.memOn (64 + k) = true) ∧ (s.core.check s.core.caveClient.tag false false 64 3).1 = .ok ∧ s.core.flips = [] ∧ s.core.poison = [] ∧ s.core.dmc.reqs = [] := by decide +kernel
theorem test_wit_cave_refresh : let s := on (fun _ => (caved (fun v => { v with supers := v.supers.map (fun p => (p.1, { p.2 with full := true })) })).core.setF (rg0 .CAVE_STATUS) 21 17 3)
    (s.core.super 4).due = true ∧ (s.core.super 4).full = true ∧ s.core.missing 4 (s.core.super 4) [] = 0 ∧ (s.core.openSuper 0).map (fun r => (r.2, (r.1.super r.2).cap)) = some (5, 32768) ∧
    (∀ g ∈ s.core.cave.segs, ∀ p ∈ g.spans, p.1 = 4 → 0 < p.2.2 ∧ p.2.1 + p.2.2 ≤ 3) ∧ (∀ u ∈ (s.core.super 4).units, (s.core.blk u.1 u.2).weak = false) := by decide +kernel
theorem test_wit_affinage : let s := caved
    (s.core.blk 2 0).sb = some 4 ∧ s.core.memState 2 = 1 ∧ kget 0 s.core.cave.patrol (blkKey 2 0) = 0 ∧ (s.core.super 4).dataUnits = 2 ∧
    (let d := on (fun _ => caved.core.setF (rg .CAVE_MEMBER_STATUS 1) 31 28 4); 1 < d.core.missing 4 (d.core.super 4) [2]) := by decide +kernel
theorem test_wit_member : let s := on (fun c => (c.setF (rg .CAVE_MEMBER_STATUS 31) 31 28 2).setF (rg .CAVE_MEMBER_STATUS 30) 31 28 5)
    s.core.memState 31 = 2 ∧ s.core.memState 30 = 5 := by decide +kernel
theorem test_wit_rebuild : (caved (fun v => { v with rebuild := true })).core.cave.rebuild = true ∧ (∀ p ∈ caved.core.cave.supers, caved.core.missing p.1 p.2 [] = 0) ∧
    (let s := on (fun _ => (caved.core.setF (rg .CAVE_MEMBER_STATUS 1) 31 28 4).setF (rg .CAVE_MEMBER_STATUS 2) 31 28 4); 2 ≤ s.core.missing 4 (s.core.super 4) []) := by decide +kernel

/-! ### Audio -/

/-- Output 0 of domain A, one AUDIO contract for 2 inputs and 2 outputs at 48 kHz. -/
def audioCon : Contract := con 6 64 kAUDIO 0 [48000, 0x0202FF00, 0xFF00, 0]
def audible (a : Aud := {}) (f : Core → Core := id) : State := on (fun c => f { (c.wr (rg .AUD_DOM 0) 0x8000BB80).wr (rg .TKG_AUDIO_CFG 0) 48000 with
  aud := { a with doms := [(0, { pos := 32 })] }, adm := { c.adm with live := [audioCon] } })
theorem test_wit_mix : let c := audible.core
    (c.audOut 63).down = false ∧ (c.audOut 63).waking = false ∧ c.rdB (rg .AUD_OUT_GAIN 63) 17 = false ∧ c.rdB (rg .AUD_OUT_SIL 63) 31 = false ∧ (∀ v, v < 4 → c.voiceOn v 63 = false) ∧
    (-2147483648 * 16384 : Int) % 268435456 = 0 := by decide +kernel
theorem test_wit_sample : audible.core.audOn 0 = true ∧ (audible.core.audDom 0).pos % 16 = 0 ∧ sounding.core.audOn 0 = true ∧ (sounding.core.audDom 0).pos % 16 ≠ 0 := by decide +kernel
theorem test_wit_tdm : let s := audible {} (fun c => c.wr (rg .AUD_TDM_CFG 7) 0x80020000)
    s.core.rdB (rg .AUD_TDM_CFG 7) 31 = true ∧ s.core.audOn (s.core.tdmDom 7) = true ∧ bit (s.core.rd (rg .AUD_TDM_CFG 7)) 30 = false := by decide +kernel
/-- Network stream 7 of port 3 receives one channel of 16 bits. -/
def streamed : State := audible {} (fun c => ((c.wr (rg .NET_PORT_CTRL 3) 1).wr (rg2 .AUD_NS_CFG 3 7) 0x80000000).wr (rg2 .AUD_NS_UDP 3 7) 0x00008CA0)
theorem test_wit_audio_packet : streamed.core.rdB (rg .NET_PORT_CTRL 3) 0 = true ∧ 3 < streamed.core.counts.net ∧ streamed.core.audOn 0 = true ∧ streamed.core.rdB (rg2 .AUD_NS_CFG 3 7) 31 = true ∧
    (∀ j, j < 8 → j ≠ 7 → streamed.core.rdB (rg2 .AUD_NS_CFG 3 j) 31 = false) ∧ fld (streamed.core.rd (rg2 .AUD_NS_UDP 3 7)) 15 0 = 36000 ∧ fld (streamed.core.rd (rg2 .AUD_NS_CFG 3 7)) 26 22 + 1 = 1 ∧
    (32 + fld (streamed.core.rd (rg2 .AUD_NS_CFG 3 7)) 14 0) % 4294967296 = ((streamed.core.audDom 0).pos + 0) % 4294967296 ∧ (∀ k, k < 8 → streamed.core.rdB (rg2 .AUD_NS_CFG 2 k) 31 = false) := by decide +kernel
/-- TDM port 7 with a frame in its queue and the next one's position known. -/
theorem test_wit_tdm_slip : let s := audible { rx := [(7, [(31, [1])])], rxNext := [(7, 32)] } (fun c => c.wr (rg .AUD_TDM_CFG 7) 0x80020000)
    kget [] s.core.aud.rx 7 ≠ [] ∧ s.core.aud.rxNext.find? (fun p => p.1 = 7) = some (7, 32) ∧ ((3 : Int) < -2 ∨ (2 : Int) < 3) := by decide +kernel
theorem test_wit_audio_tx : let s := audible { } (fun c => c.wr (rg2 .AUD_NS_CFG 3 15) 0xA0000000)
    bit (s.core.rd (rg2 .AUD_NS_CFG 3 15)) 31 = true ∧ 0 < s.core.ptime (s.core.rd (rg2 .AUD_NS_CFG 3 15)) ∧ 0 + s.core.ptime (s.core.rd (rg2 .AUD_NS_CFG 3 15)) ≤ (s.core.audDom 0).pos ∧
    s.core.outCon 0 = some audioCon ∧ s.core.ownerStopped audioCon.sub = false := by decide +kernel
theorem test_wit_bridge : (10000 : Nat) < (10001 : Int).natAbs ∧ (-10000 : Int).natAbs ≤ 10000 := by decide
/-- Output 1 on pin 15, silent longer than its hold of 1 ms. -/
def silent : State := audible { outs := [(1, { quiet := 48 })] } (fun c => c.wr (rg .AUD_OUT_SIL 1) 0xCF000001)
theorem test_wit_silence : silent.core.outCon 1 = some audioCon ∧ silent.core.rdB (rg .AUD_OUT_SIL 1) 31 = true ∧ (silent.core.audOut 1).down = false ∧ silent.core.silNa 1 = false ∧
    ceilDiv (max 1 (silent.core.rdF (rg .AUD_OUT_SIL 1) 15 0) * silent.core.audRate audioCon.unit) 1000 ≤ (silent.core.audOut 1).quiet ∧ silent.core.pinOf 1 = some 15 := by decide +kernel
theorem test_wit_amp : (audible { pins := [(15, { asserted := true, wakeAt := 9 })] }).core.audPin 15 = { asserted := true, wakeAt := 9 } := by decide +kernel
theorem test_wit_synthesiser : let s := on (fun c => c.wr (rg .TKG_AUDIO_CFG 1) 96000)
    s.core.awake = true ∧ s.core.rdN (rg .TKG_AUDIO_CFG 1) ≠ 0 ∧ s.core.rdB (rg .AUD_DOM 1) 30 ≠ true := by decide +kernel

/-! ### Touch and haptics -/

/-- Touch engine `n` runs, on a geometry of two sense and two drive lines. -/
def touching (n : Nat) (x : Touch) (f : Core → Core := id) : State := on (fun c => f { (c.wr (rg .TCH_STATUS n) 0x20000000) with var := { part := .T16C, dieStep := 0 }, tchs := [(n, { x with geom := 0x0202, seq := 9 })] })
theorem test_wit_baseline : let x : Touch := { geom := 0x0202, touched := [(3, true)] }
    kget false x.touched 3 = true ∧ tchSense x * tchDrive x ≤ 4 ∧ kget false x.touched 0 = false ∧ (256 * (([8] : List Nat).getD 0 0 : Int) - kget 0 x.base 0) % ((2 ^ 4 : Nat) : Int) = 0 := by decide +kernel
theorem test_wit_report : let s := touching 3 {} (fun c => (c.wr (rg .TCH_RING_CFG 3) 2).setOwner 8 0 { granted := true } |>.setOwner 9 3 { granted := true })
    s.core.rdF (rg .TCH_RING_CFG 3) 7 0 ≠ 0 ∧ s.core.inBanks (s.core.owner 9 3) (s.core.rdF (rg .TCH_RING_BASE 3) 24 7 * 128) (2 * 128) = true ∧
    (s.core.rdN (rg .TCH_RING_WPTR 3) + 1) % 2 ≠ s.core.rdF (rg .TCH_RING_RPTR 3) 7 0 := by decide +kernel
theorem test_wit_report_full : let s := touching 3 {} (fun c => c.wr (rg .TCH_RING_RPTR 3) 1)
    (s.core.rdN (rg .TCH_RING_WPTR 3) + 1) % 2 = s.core.rdF (rg .TCH_RING_RPTR 3) 7 0 := by decide +kernel
theorem test_wit_touch_tick : (touching 3 {}).core.tchOn 3 = true ∧ ((touching 3 { scanning := true }).core.tch 3).scanning = true := by decide +kernel
theorem test_wit_scan : let s := touching 7 { armed := true } (fun c => c.wr (rg .TCH_CFG 7) 0x80000078)
    fld (s.core.rd (rg .TCH_CFG 7)) 31 30 = 2 ∧ (s.core.tch 7).armed = true ∧ s.core.ownerStopped (winOf (s.core.owner 9 7)) = false := by decide +kernel
theorem test_wit_scan_stopped : let s := touching 7 { armed := true } (fun c => (c.wr (rg .TCH_CFG 7) 0x80000078).setOwner 9 7 { granted := true, part := 2 } |>.wr (rg .PART_STATE 2) 0x10000000)
    s.core.ownerStopped (winOf (s.core.owner 9 7)) = true := by decide +kernel
theorem test_wit_free_mode : let s := touching 7 {} (fun c => c.wr (rg .TCH_CFG 7) 0x40000078)
    fld (s.core.rd (rg .TCH_CFG 7)) 31 30 ≤ 1 ∧ s.core.rdB (rg .TCH_STATUS 7) 28 = false ∧ s.core.tchWindow (s.core.rd (rg .TCH_CFG 7)) (s.core.rd (rg .TCH_PULSE 7)) = false := by decide +kernel
theorem test_wit_scan_end : linked 7 = true ∧ ((touching 7 { scanning := true, spoiled := true }).core.tch 7).spoiled = true ∧ ((touching 3 { scanning := true, testScan := true }).core.tch 3).testScan = true ∧
    linked 3 = false ∧ ((touching 3 { scanning := true, learn := 1 }).core.tch 3).learn = 1 ∧ (touching 3 {}).core.tchOn 3 = true ∧ (touching 7 {}).core.tchOn 7 = true := by decide +kernel
theorem test_wit_tsl : ((touching 7 { tsl := some 0x90000000 }).core.tch 7).tsl = some 0x90000000 ∧ fld (0x90000000 : W32) 31 28 = 9 := by decide +kernel
theorem test_wit_long : ((touching 3 { contacts := [{ id := 0, px := 0, py := 0, x16 := 0, y16 := 0, peak := 9, since := 0 }] }).core.tch 3).contacts.any (fun k => !k.long) = true := by decide +kernel
/-- Touch engine 7 linked to head 15, which offers line windows of 2 µs. -/
def lineTouched (x : Touch) : State := on (fun _ =>
  let c := (raster 10 (fun y => { y with winLine := 2000 })).core
  { (c.wr (rg .TCH_STATUS 7) 0x20000000).wr (rg .TCH_CFG 7) 0x3C000078 |>.wr (rg .TCH_PULSE 7) 500 with tchs := [(7, { x with geom := 0x0202 })] })
theorem test_wit_scan_window : let s := lineTouched { armed := true }
    let cfg := s.core.rd (rg .TCH_CFG 7)
    s.core.tchOn 7 = true ∧ s.core.watching 7 = none ∧ fld cfg 31 30 = 0 ∧ s.core.rdB (rg .TCH_STATUS 7) 28 = false ∧ s.core.tchWindow cfg (s.core.rd (rg .TCH_PULSE 7)) = true ∧
    (s.core.tch 7).armed = true ∧ (s.core.tch 7).scanning = false ∧ s.core.ownerStopped (winOf (s.core.owner 9 7)) = false := by decide +kernel
theorem test_wit_fallback : let s := touching 7 { scanning := true, cfg := 0x3C000078, perWin := 4 } (fun c => c.wr (rg .TCH_CFG 7) 0x3C000078)
    let g := (s.core.tch 7).cfg
    fld g 31 30 ≤ 1 ∧ s.core.rdB (rg .TCH_STATUS 7) 28 = false ∧ s.core.tchLen g = 0 ∧ (touching 7 { perWin := 0 }).core.tchOn 7 = true := by decide +kernel
/-- Engine 3 in WATCH, scanning, its baselines still to be learned or its gesture recognised. -/
def watching (x : Touch) (hit : Bool) : State := on (fun c => { (c.wr (rg .TCH_WAKE 3) 0x80000000).wr (rg0 .PWR_WAKE_EN2) 8 with
  pwr := { c.pwr with asleep := 1 }, var := { part := .T16C, dieStep := 0 }, tchs := [(3, { x with watch := some { hit := hit } })] })
theorem test_wit_watch : (watching { armed := true } false).core.watching 3 = some {} ∧ ((watching { scanning := true } false).core.tch 3).scanning = true ∧ ({} : TchWatch).learn ≠ 0 ∧
    ((watching { armed := true } false).core.tch 3).armed = true := by decide +kernel
theorem test_wit_gesture : let s := watching {} true
    s.core.watching 3 = some { hit := true } ∧ s.core.pwr.asleep = 1 ∧ touchPresent s.core.counts 3 = true ∧ s.core.rdB (rg .TCH_WAKE 3) 31 = true ∧ s.core.rdB (rg0 .PWR_WAKE_EN2) 3 = true := by decide +kernel
/-- An effect with segments of 3, 5 and 2 units. -/
def buzz : HEff := { e := 1, w0 := 0x20000005, w1 := 0x00080010, w2 := 0x00030002, w3 := 0 }
def buzzing (h : Hpt) (seg : Nat) : State := on (fun c => { c.setF (rg .HPT_STATUS 3) 29 28 seg with hpts := [(3, h)] })
theorem test_wit_enable : ((buzzing { eff := some buzz, en := 1 } 0).core.hpt 3).en = 1 ∧ buzz.next 1 = 1 ∧ bit buzz.w0 29 = true := by decide +kernel
theorem test_wit_segment : (buzzing { eff := some buzz, en := 2 } 3).core.hptSeg 3 = 3 ∧ buzz.next 2 = 2 ∧ buzz.next 3 = 3 ∧ buzz.len 3 ≠ 0 := by decide +kernel
theorem test_wit_carrier : (buzzing { eff := some buzz, en := 2, leave := true } 1).core.hptOn 3 = true ∧ ((buzzing { cut := some buzz, en := 2 } 0).core.hpt 3).cut = some buzz := by decide +kernel
theorem test_wit_carrier_drive : let s := buzzing { eff := some buzz, en := 2 } 2
    s.core.hptOn 3 = true ∧ (s.core.hpt 3).cut = none ∧ (s.core.hpt 3).leave = false ∧ s.core.hptSeg 3 = 2 ∧ buzz.len 3 ≠ 0 ∧ ((buzzing { en := 2 } 0).core.hpt 3).eff = none ∧
    (buzzing { en := 2 } 0).core.hptOn 3 = true := by decide +kernel
theorem test_wit_haptic_open : let s := buzzing { eff := some buzz, en := 2, till := 2000000000, pz := false } 2
    (s.core.hpt 3).pz = false ∧ s.core.hptSeg 3 = 2 ∧ (s.core.hpt 3).from_ + 2000000000 ≤ (s.core.hpt 3).till ∧ ((buzzing { eff := some buzz, en := 2, pz := true } 2).core.hpt 3).pz = true := by decide +kernel
theorem test_haptic_pins : (buzzing { eff := some buzz, en := 2, pz := false, drive := -65535 } 2).core.hptPins 3 = (0, dutyOne) ∧
    (buzzing { eff := some buzz, en := 2, drive := 0 } 2).core.hptPins 3 = (dutyOne / 2, 0) ∧ (buzzing { en := 2 } 0).core.hptPins 3 = (0, 0) := by decide +kernel
theorem test_wit_hold : ((buzzing { en := 2 } 0).core.hpt 3).eff = none ∧ ((buzzing { en := 2 } 0).core.hpt 3).en = 2 := by decide +kernel
theorem test_wit_haptic_fault : let h := (buzzing { eff := some buzz, en := 2, pz := false } 2).core.hpt 3
    h.eff.isSome = true ∧ h.pz = false ∧ ((buzzing { eff := some buzz, en := 2 } 2).core.hpt 3).pz = true := by decide +kernel
theorem test_wit_haptic_test : ((buzzing { test := some 5 } 0).core.hpt 3).test = some 5 := by decide +kernel


/-! ### Host queues, messages, functions -/

/-- Queue pair 3 of function 63: two entries each way, eight starts a tick, its rings in bank 0; the link up, the function in D0 and mastering. -/
def queued (x : HQueue := {}) (f : Core → Core := id) : State := on (fun c => f { ((c.wr (rg0 .HOST_LINK) 0x90000000).wr (rg .HOST_FN 63) 0x18000000).wr (rg2 .HOST_Q_CFG 63 3) 0x80000800 with
  hostIf := { c.hostIf with queues := [(255, x)] } })
theorem test_wit_queue_fetch : let s := queued { tail := 1 }
    let cfg := s.core.rd (rg2 .HOST_Q_CFG 63 3)
    s.core.fnMaster 63 = true ∧ s.core.rdB (rg0 .HOST_LINK) 31 = true ∧ bit cfg 31 = true ∧ (s.core.hq 63 3).cur = none ∧ (s.core.hq 63 3).started < max 1 (fld cfg 19 8) ∧
    s.core.rdF (rg2 .HOST_Q_STATUS 63 3) 11 0 ≠ (s.core.hq 63 3).tail % qSize (fld cfg 3 0) ∧ (0 + 1) % qSize (fld cfg 7 4) ≠ (s.core.hq 63 3).cqHead % qSize (fld cfg 7 4) ∧
    kget false s.core.hostIf.toD3 63 = false ∧ sqReserved (s.core.bytes hostBase 128) = true ∧ leNat ((s.core.bytes hostBase 128).take 1) = 0 := by decide +kernel
theorem test_wit_queue_full : let s := queued { tail := 1, cqHead := 1 }
    (0 + 1) % qSize (fld (s.core.rd (rg2 .HOST_Q_CFG 63 3)) 7 4) = (s.core.hq 63 3).cqHead % qSize (fld (s.core.rd (rg2 .HOST_Q_CFG 63 3)) 7 4) := by decide +kernel
def held6 (op : Nat) (pay : List Byte := []) (wait : Bool := false) : State := queued { started := 1, cur := some { op := op, wait := wait, irq := false, cid := 9, pay := pay } }
theorem test_wit_queue_done : (held6 0).core.rdF (rg2 .HOST_Q_STATUS 63 3) 11 0 = ((held6 0).core.hq 63 3).tail % qSize (fld ((held6 0).core.rd (rg2 .HOST_Q_CFG 63 3)) 3 0) ∧
    kget false (held6 0).core.hostIf.toD3 63 = false := by decide +kernel
theorem test_wit_queue_commands : ∀ op, op < 7 → ((held6 op).core.hqCur 63 3 op).isSome = true ∧ (held6 op).core.rdF (rg2 .HOST_Q_STATUS 63 3) 11 0 = (((held6 op).core.hq 63 3).tail) % 2 := by decide +kernel
theorem test_wit_queue_commit : let s := held6 2
    (s.core.sealDraft (s.core.tag (.host 63))).2.toNat < 9223372036854775808 := by decide +kernel
theorem test_wit_queue_commit_full : let s := on (fun _ => (({ (held6 2).core with jnl := { (held6 2).core.jnl with nwBusy := true } } : Core)).setDraft 63 { ops := [.release 1] })
    9223372036854775808 ≤ (s.core.sealDraft (s.core.tag (.host 63))).2.toNat := by
  have h : ∀ n : Nat, n < 4294967296 → 9223372036854775808 ≤ (w64 (2 ^ 63 + n)).toNat := fun n hn => by simp only [w64, BitVec.toNat_ofNat]; omega
  exact h _ (BitVec.isLt _)
theorem test_wit_queue_epoch : ((held6 5).core.rd (rg0 .ADM_EPOCH) - 0).toNat < 2147483648 ∧ 2147483648 ≤ ((held6 5).core.rd (rg0 .ADM_EPOCH) - 1).toNat := by decide +kernel
/-- Function 0 asks for segment 1 of the device namespace, with room for 2 bytes at host address 0x1000. -/
theorem test_wit_queue_segment : caved.core.findSeg 0 1 = some stored ∧ (caved.core.caveRead stored false []).2 = some [1, 2] ∧ (caved.core.caveRead stored false [1, 2]).2 = none ∧ ([1, 2] : List Byte).length ≤ 2 ∧
    hostBase ≤ hostBase + 0x1000 ∧ hostBase + 0x1000 + 2 ≤ hostBase + 0x2000 := by decide +kernel
/-- Function 63 with the last vector in its pool, two events of it waiting for 10 µs. -/
def messaging (mask : Bool := false) (f : Core → Core := id) : State := queued {} (fun c => f { (((c.setOwner 7 2047 { granted := true, part := 63 }).wr (rg .HOST_MOD 2047) 0x0002000A).setB (rg .HOST_FN 63) 27 true) with
  parts := [(63, { msixFirst := 2047 })], hostIf := { c.hostIf with table := if mask then [] else [((2048 * 63 + 0) * 4 + 3, 1)] } })
theorem test_wit_message : let s := messaging
    (s.core.owner 7 2047).part = 63 ∧ 2047 - s.core.vecFirst 63 = 0 ∧ s.core.rdF (rg .HOST_MOD 2047) 15 0 ≠ 0 ∧ s.core.rdF (rg .HOST_MOD 2047) 23 16 ≠ 0 ∧ kget false s.core.hostIf.held 2047 = false ∧
    kget false s.core.hostIf.pba (2048 * 63 + 0) = false ∧ s.core.vecMasked 63 0 = false ∧ (messaging true).core.vecMasked 63 0 = true ∧ s.core.linkState = 1 ∧ s.core.fnMaster 63 = true ∧
    (messaging false (fun c => c.wr (rg0 .HOST_LINK) 0xA0000000)).core.linkState = 2 := by decide +kernel
theorem test_wit_unmask : let s := messaging true (fun c => { c with hostIf := { c.hostIf with pba := [(2048 * 63 + 0, true)] } })
    s.core.vecIn 63 2047 = true ∧ s.core.vecIn 63 2046 = false ∧ kget false s.core.hostIf.pba (2048 * 63 + 0) = true ∧ s.core.rdB (rg .HOST_FN 63) 27 = true := by decide +kernel
theorem test_wit_link_states : (messaging false (fun c => c.wr (rg0 .HOST_LINK) 0xA0000000)).core.hostIf.held = [] ∧ (on (fun c => { c with boot := { c.boot with released := true } })).core.boot.released = true ∧
    State.reset.core.boot.released = false ∧ (4 : Nat) ≤ 4 := by decide +kernel
theorem test_wit_functions : let s := queued { cur := some { op := 5, wait := false, irq := false, cid := 9, pay := [], till := some 7 } }
    s.core.fnState 63 = 0 ∧ (s.core.hq 63 3).cur.isSome = true ∧ (∀ k, k < 4 → k ≠ 3 → (s.core.hq 63 k).cur = none) ∧ (∀ k, k < 4 → (s.core.hq 62 k).cur = none) ∧ s.core.fnState 62 = 0 := by decide +kernel

/-! ### Wheels -/

def stamp0 : List W32 := (stamped 0).stamp
def frame (cls : Nat) : RFrame := { cls := cls, dst := 5, src := 7, hops := 0, stream := 2, seq := 9 }
/-- Member 5 with both ports up and no neighbours yet. -/
def wheeled (f : Core → Core := id) : State := on (fun c => f ((((c.setF (rg0 .RGL_ID) 7 0 5).wr (rg .RGL_PORT_STATUS 0) 1).wr (rg .RGL_PORT_STATUS 1) 1).wr (rg .RGL_PORT_CTRL 1) 1))
theorem test_wit_frame : let s := wheeled
    1 < s.core.counts.rogar ∧ s.core.portUp 1 = true ∧ (frame 2).crcOk = true ∧ (frame 1).dst = s.core.wheelNo ∧ (s.core.walk 1).mis = false ∧ (s.core.walk 1).other = false ∧
    ({ frame 3 with dst := 6 } : RFrame).dst ≠ s.core.wheelNo ∧ s.core.portUp (1 - 1) = true := by decide +kernel
/-- Import 15 for slot 1023, whose source is slot 0 of an origin with first stamp word 1. -/
def rogarSource : Contract := con 9 64 kSOURCE 1023 [10000, 4096, 20000, 3, 0, 1, 1]
def importing (m : RglImp := {}) : State := wheeled (fun c => { (c.wr (rg .RGL_IMP_CFG 15) 0x800003FF).setF (rg .SYS_SRC_STATE 1023) 31 30 1 with
  adm := { c.adm with live := [rogarSource] }, rgl := { c.rgl with imps := [(15, m)] } })
theorem test_wit_header : let s := importing
    let hdr : StripHdr := { stamp := stamp0, frame := 3, k := 1 }
    s.core.rdB (rg .RGL_IMP_CFG 15) 31 = true ∧ (∀ j, j < 16 → j ≠ 15 → s.core.rdB (rg .RGL_IMP_CFG j) 31 = false) ∧ s.core.rdF (rg .RGL_IMP_CFG 15) 9 0 = 1023 ∧ s.core.slotSrc 1023 = some rogarSource ∧
    rogarSource.f 7 3 0 = 3 ∧ rogarSource.w 9 = stampW hdr.stamp 0 ∧ (s.core.rglImp 15).missed ≠ some (hdr.frame, hdr.k) ∧ stampOk hdr.stamp = true ∧ s.core.slotState 1023 ≠ 0 ∧
    s.core.rateOk s.core.wheelNo = true ∧ s.core.rateOk (frame 3).src = true ∧ s.core.partActive rogarSource.sub = true ∧ (frame 3).dst = s.core.wheelNo ∧ ({ frame 3 with hdr := some hdr } : RFrame).cls = 3 := by decide +kernel
theorem test_wit_port_open : let s := wheeled
    s.core.linkShut 1 = false ∧ s.core.linkShut 0 = false ∧ kget [] s.core.rgl.txq 1 = [] ∧ kget 0 s.core.rgl.txAt 1 ≤ s.core.now ∧
    (wheeled (fun c => c.setF (rg0 .RGL_WHEEL_STATUS) 31 27 1)).core.linkShut 1 = true := by decide +kernel
theorem test_wit_resend : (wheeled (fun c => { c with rgl := { c.rgl with unacked := [(1, 2, frame 1)] } })).core.rgl.unacked = [(1, 2, frame 1)] ∧ (2 < 3 ∧ 3 ≤ 3) := by decide +kernel
theorem test_wit_ports : let s := wheeled (fun c => c.wr (rg .RGL_PORT_STATUS 1) 0)
    1 < s.core.counts.rogar ∧ s.core.rdB (rg .RGL_PORT_CTRL 1) 0 = true ∧ s.core.portUp 1 = false ∧ importing.core.portUp 1 = true ∧ rogarSource ∈ importing.core.adm.live ∧
    rogarSource.kind = kSOURCE ∧ rogarSource.f 10 0 0 = 1 := by decide +kernel
theorem test_wit_discovery : wheeled.core.counts.rogar ≠ 0 ∧ ([] : List WheelNode).length ≤ 255 ∧
    ([{ wheel := 0, member := 0, root := true, ports := 2, num := 60, den := 1, entry := 1 }] : List WheelNode).length ≤ 255 := by decide +kernel
/-- Export 15 of slot 1023 from head 15 to member 7, whose layer 31 shows 8 × 48 pixels of it at the top left. -/
def exporting (line : Nat) (e : RglExp := {}) : State := on (fun _ =>
  let c := (raster line id 1).core
  let c := (((c.wr (rg .RGL_EXP_CTRL 15) 0xCF0703FF).wr (rg .RGL_EXP_RECT_SIZE 15) 0x00300008).wr (rg .RGL_EXP_DST 15) 0x00300000).wr (rg .RGL_PORT_STATUS 0) 1
  { c with adm := { c.adm with live := [headCon 1, guestSource, con 6 64 kLAYER 15 [0x1F00, 0, 0, 1023]] }, slots := [(1023, { held := stamped 0 })], rgl := { c.rgl with exps := [(15, e)] } })
theorem test_wit_snapshot : let s := exporting 28
    (s.core.head 15).con = some (headCon 1) ∧ bit (s.core.rd (rg .RGL_EXP_CTRL 15)) 30 = true ∧ fld (s.core.rd (rg .RGL_EXP_CTRL 15)) 27 24 = 15 ∧ s.core.scanning 15 = true ∧
    s.core.headLine 15 + 2 * (headCon 1).hStrip = (headCon 1).vTotal ∧ (s.core.slot (fld (s.core.rd (rg .RGL_EXP_CTRL 15)) 9 0)).held.stamp ≠ [] ∧
    stampOk (s.core.slot (fld (s.core.rd (rg .RGL_EXP_CTRL 15)) 9 0)).held.stamp = true := by decide +kernel
theorem test_wit_strip_send : let s := exporting 28 { snap := stamped 0, nextK := 2 }
    s.core.expRef 15 = some (headCon 1, 31, con 6 64 kLAYER 15 [0x1F00, 0, 0, 1023]) ∧ (s.core.rglExp 15).snap.stamp ≠ [] ∧ (s.core.rglExp 15).nextK = 2 ∧ 2 < stripCount (headCon 1) ∧
    s.core.portUp (s.core.rglExp 15).port = true ∧ stripSpan 2 16 (s.core.expDst 15).1 (s.core.expDst 15).2 (s.core.expRect 15).2.2.2 = some (32, 47) ∧ s.core.slotSrc 1023 = some guestSource ∧
    (s.core.check (ownerOf guestSource.sub) false false 0 1).1 = .ok ∧ stripSpan 0 16 16 32 32 = none := by decide +kernel
/-- What that strip reads of the surface: 16 lines of 8 pixels of 4 bytes, from bank 0. -/
theorem test_wit_strip_read : let s := exporting 28 { snap := stamped 0, nextK := 2 }
    let f (r : Fam) (hi lo : Nat) : Nat := snapF s.core.var (s.core.head 15).act (rg2 r 15 31) hi lo
    let ranges := expRanges 0 (s.core.expRect 15).1 (s.core.expRect 15).2.1 (s.core.expRect 15).2.2.1 32 47
      (planesOf ((con 6 64 kLAYER 15 [0x1F00, 0, 0, 1023]).f 4 7 0) (f .LAYER_PITCH0 19 0) (f .LAYER_PITCH1 19 0) (f .LAYER_PLANE1 31 0) (f .LAYER_PLANE2 31 0))
    (∀ q ∈ ranges, (s.core.check (ownerOf guestSource.sub) false false q.1 q.2).1 = .ok ∧ s.core.memOn q.1 = true ∧ q.2 ≤ 32 * 8) ∧ s.core.flips = [] ∧ s.core.poison = [] ∧ s.core.dmc.reqs = [] ∧
    s.core.linkShut (s.core.rglExp 15).port = false ∧ kget [] s.core.rgl.txq (s.core.rglExp 15).port = [] ∧ (∀ i, i < 16 → s.core.chState i ≠ 5) := by decide +kernel
theorem test_wit_strip_missing : let s := on (fun _ => { ((raster 10).core.wr (rg .RGL_IMP_CFG 15) 0x800003FF) with
      adm := { (raster 10).core.adm with live := [headCon 0, con 6 64 kLAYER 15 [0x1F00, 0, 0, 1023]] }, rgl := { (raster 10).core.rgl with imps := [(15, { count := 255 })] } })
    s.core.rdB (rg .RGL_IMP_CFG 15) 31 = true ∧ s.core.impHead 1023 = some (headCon 0, con 6 64 kLAYER 15 [0x1F00, 0, 0, 1023]) ∧ s.core.rogarStrip (headCon 0) 1023 2 = none ∧
    ((s.core.rglImp 15).count + 1) % 256 = 0 := by decide +kernel
theorem test_wit_net_link : 3 < State.reset.core.counts.net ∧ State.reset.core.awake = true ∧ netSource.f 7 3 0 = 1 ∧ netSource.f 9 1 0 = 3 ∧ netting.core.slotState 6 ≠ 0 := by decide +kernel

/-! ### Power, resets, the journal -/

theorem test_wit_power_good : State.reset.core.awake = true ∧ State.reset.core.domPresent 23 = true ∧ State.reset.core.rdF (rg .PWR_DOM_STATE 23) 31 29 = 0 := by decide +kernel
/-- A request for level 5, 200 µs before boundary 0, in the apply phase, its voltage acknowledged. -/
def levelled (volt : Nat) : State := on (fun c => { c with tkg := { c.tkg with inApply := true, origin := 300000, starts := [(0, 300000)] }, pwr := { c.pwr with asks := [(100000, 5)], volt := volt } })
theorem test_wit_level : let s := levelled 5
    let b := s.core.psOf s.core.strobeNs / 1000
    s.core.awake = true ∧ s.core.tkg.inApply = true ∧ (s.core.pwr.asks.filter (fun x => decide (x.1 + 200000 ≤ b))).getLast? = some (100000, 5) ∧ s.core.level < 5 ∧ 5 ≤ s.core.pwr.volt ∧
    s.core.pwr.voltAt + 20000 ≤ b ∧ (levelled 4).core.pwr.volt < 5 := by decide +kernel
theorem test_wit_regulator : (levelled 4).core.levelRaises = some 5 ∧ (levelled 4).core.pwr.asks = [(100000, 5)] := by decide +kernel
theorem test_wit_thermal : let c := State.reset.core
    c.pwr.tripped = false ∧ (((c.tripAt * 16 : Nat) : Int) ≤ 2080) ∧ ((100 : Int) < ((fld (c.rd (rg0 .PWR_THERM)) 15 8 * 16 : Nat) : Int) - 80) ∧
    ((fld (c.rd (rg0 .PWR_THERM)) 15 8 * 16 : Nat) : Int) < ((c.tripAt * 16 : Nat) : Int) ∧ c.pwr.capAt = none ∧ c.worstRefresh ≤ 1 ∧ 7 < 8 := by decide +kernel
theorem test_wit_thermal_cap : let s := on (fun c => { c.setF (rg0 .PWR_STATUS) 6 4 6 with pwr := { c.pwr with coolAt := some 0 } })
    s.core.pwr.coolAt = some 0 ∧ 0 < s.core.rdF (rg0 .PWR_STATUS) 6 4 ∧ s.core.rdF (rg0 .PWR_STATUS) 6 4 < 7 := by decide +kernel
theorem test_wit_wake_up : let s := on (fun c => { (c.wr (rg0 .PWR_WAKE_EN2) 0x300).wr (rg0 .PWR_WAKE_TIMER) 1 with pwr := { c.pwr with asleep := 2 } })
    s.core.pwr.asleep = 2 ∧ s.core.pwr.wake = none ∧ s.core.rdB (rg0 .PWR_WAKE_EN2) 8 = true ∧ s.core.rdB (rg0 .PWR_WAKE_EN2) 9 = true ∧ s.core.rdN (rg0 .PWR_WAKE_TIMER) ≠ 0 := by decide +kernel
theorem test_wit_wake_held : let s := on (fun c => { c with pwr := { c.pwr with asleep := 1, wake := some (1, 31), sleptAt := 5 }, tchs := [(3, { watch := some {} })] })
    s.core.pwr.asleep = 1 ∧ s.core.pwr.wake = some (1, 31) ∧ s.core.pwr.tripped = false ∧ (s.core.tch 3).watch.isSome = true := by decide +kernel
theorem test_wit_power_on : (on (fun c => { c with pwr := { c.pwr with asleep := 3 } })).core.pwr.asleep = 3 ∧ State.reset.core.pwr.asleep ≠ 3 := by decide +kernel
theorem test_wit_domain_request : let s := on (fun c => (c.wr (rg0 .PWR_CFG) 1).wr (rg .PWR_DOM_SEL 127) 0x00800002)
    s.core.rdB (rg0 .PWR_CFG) 0 = true ∧ State.reset.core.rdB (rg0 .PWR_CFG) 0 = false ∧ s.core.rd (rg .PWR_DOM_SEL (64 + 63)) ≠ 0 ∧ State.reset.core.rd (rg .PWR_DOM_SEL 127) = 0 ∧ s.core.wakePending = none := by decide +kernel
theorem test_wit_no_copy : mfValid 128 [] = false ∧ State.reset.core.boot.copyA = [] ∧ State.reset.core.boot.copyB = [] := ⟨by rfl, by rfl, by rfl⟩
theorem test_wit_wake_from_off : let s := on (fun c => { c with pwr := { c.pwr with asleep := 3, wake := some (5, 0) } })
    s.core.pwr.asleep = 3 ∧ s.core.pwr.wake = some (5, 0) ∧ mfValid s.core.fuseRb s.core.boot.copyA = false := ⟨by rfl, by rfl, by rfl⟩
theorem test_wit_reset_right : (two 0 0).core.isSecure ((two 0 0).core.tag sec) = true ∧ (two 0 0).core.isSecure ((two 0 0).core.tag (.host 5)) = false ∧ (two 0 0).core.awake = true ∧
    (prog {} (fun c => { c with boot := { c.boot with recovery := true } })).core.boot.recovery = true := by decide +kernel
theorem test_wit_confirm : let s := prog {} (fun c => ({ c with boot := { c.boot with source := 1, copy := [0, 0, 0, 0, 0, 0, 0, 0], copyB := [0, 0, 0, 0, 0, 0, 0, 0] } }).setB (rg0 .SYS_BOOT_STATUS) 28 true)
    s.core.boot.source < 2 ∧ s.core.boot.copy ≠ [] ∧ 8 ≤ (s.core.boot.flash s.core.boot.source).length ∧ s.core.rdB (rg0 .SYS_BOOT_STATUS) 28 = true := by decide +kernel
theorem test_wit_warm : (on (fun c => { c with boot := { c.boot with warmDue := true } })).core.boot.warmDue = true := by rfl
theorem test_wit_unit_reset : (two 0 0).core.kindPresent 3 0 = true ∧ (two 0 0).core.kindPresent 1 15 = true ∧ sameOwner ((two 0 0).core.owner 3 0) ((two 0 0).core.tag sec) = true ∧
    (two 0 0).core.kindPresent 9 0 = false ∧ ((two 0 0).core.seq 0).live.isSome = true ∧ (moving 1).core.dmaState 127 = 1 ∧ (touching 7 {}).core.rdB (rg .TCH_STATUS 7) 29 = true ∧
    ([1, 2, 3, 4, 5, 9, 10] : List Nat).contains 255 = false := by decide +kernel
theorem test_wit_debug : let s := prog { dbg := true } (fun c => c.wr (rg0 .POT_DBG_EN) 8)
    s.core.dbgMay 0 = true ∧ (s.core.seq 0).dbg = true ∧ (s.core.seq 0).mode = .running ∧ (s.core.seq 0).level = 0 := by decide +kernel
theorem test_wit_debug_shut : (two 0 0).core.dbgMay 0 = false ∧ (two 0 0).core.awake = true := by decide +kernel
theorem test_wit_spill : let s := on (fun c => c.wr (rg0 .JNL_WSEQ) 200)
    s.core.jfill = 200 ∧ s.core.jnl.inFlight = 0 ∧ s.core.caveTakes = false ∧ caved.core.caveTakes = true := by decide +kernel
theorem test_wit_block_commit : let s := on (fun c => { c.wr (rg0 .JNL_WSEQ) 200 with jnl := { c.jnl with inFlight := 128 } })
    s.core.jnl.inFlight ≠ 0 ∧ gives s .journalBlockCommit (fun t => decide (t.core.jfill < 64512)) = true := by decide +kernel


/-! ### Well-formed commands

Each ill-formed command breaks one check of `Instr.wf` and is refused by it; the well-formed ones differ from them in that operand
alone. -/

def noPic : PicInfo := ⟨0, true, false, none, false, [], [], [], false, false, false, false, 64, 64, 8, 1, 40, 1, [], none, [], none⟩
theorem test_ill_formed_1 : ([.registerWrite (.host 64) 0x20000004 1, .registerWrite sec 0x20000002 1, .registerWrite sec 0x1FFFFFFC 1, .registerWrite sec 0x22000000 1, .hostBarAccess 64 0 true 1 1 1, .hostBarAccess 1 3 true 1 1 1, .hostBarAccess 1 0 true 1 0 1, .hostBarAccess 1 0 true 1 9 1, .pairedWrite (.host 64) 0x20000004 1, .pairedWrite sec 0x20000002 1, .pairedWrite sec 0x1FFFFFFC 1, .pairedWrite sec 0x22000000 1, .pairTimeout 0x20000002, .pairTimeout 0x1FFFFFFC, .pairTimeout 0x22000000, .tickWindowClose 0xF, .tickWindowClose 0x1, .tickWindowClose 0x23, .headTick 16, .audioTick 3, .tkgSourceSelect (.host 64) 1, .timeInfo 3, .contractAdd (.host 64) 1, .contractRelease (.host 64) 1, .contractReplace (.host 64) 1, .pwCommit (.host 64), .pwDiscard (.host 64) 1, .pwDiscard sec 65, .plFloorWrite (.host 64) 1, .plFloorWrite sec 8, .add 64 1 1 1 1, .add 1 8 1 1 1, .add 1 1 32 1 1, .add 1 1 1 32 1, .add 1 1 1 1 32, .sub 64 1 1 1 1, .sub 1 8 1 1 1, .sub 1 1 32 1 1, .sub 1 1 1 32 1, .sub 1 1 1 1 32, .andR 64 1 1 1 1, .andR 1 8 1 1 1, .andR 1 1 32 1 1, .andR 1 1 1 32 1, .andR 1 1 1 1 32, .orR 64 1 1 1 1, .orR 1 8 1 1 1, .orR 1 1 32 1 1, .orR 1 1 1 32 1, .orR 1 1 1 1 32, .xorR 64 1 1 1 1, .xorR 1 8 1 1 1, .xorR 1 1 32 1 1, .xorR 1 1 1 32 1, .xorR 1 1 1 1 32, .andn 64 1 1 1 1, .andn 1 8 1 1 1, .andn 1 1 32 1 1, .andn 1 1 1 32 1, .andn 1 1 1 1 32] : List Instr).all (fun i => !i.wf) = true := by decide +kernel
theorem test_ill_formed_2 : ([.shl 64 1 1 1 1, .shl 1 8 1 1 1, .shl 1 1 32 1 1, .shl 1 1 1 32 1, .shl 1 1 1 1 32, .shr 64 1 1 1 1, .shr 1 8 1 1 1, .shr 1 1 32 1 1, .shr 1 1 1 32 1, .shr 1 1 1 1 32, .sar 64 1 1 1 1, .sar 1 8 1 1 1, .sar 1 1 32 1 1, .sar 1 1 1 32 1, .sar 1 1 1 1 32, .rol 64 1 1 1 1, .rol 1 8 1 1 1, .rol 1 1 32 1 1, .rol 1 1 1 32 1, .rol 1 1 1 1 32, .min 64 1 1 1 1, .min 1 8 1 1 1, .min 1 1 32 1 1, .min 1 1 1 32 1, .min 1 1 1 1 32, .max 64 1 1 1 1, .max 1 8 1 1 1, .max 1 1 32 1 1, .max 1 1 1 32 1, .max 1 1 1 1 32, .minu 64 1 1 1 1, .minu 1 8 1 1 1, .minu 1 1 32 1 1, .minu 1 1 1 32 1, .minu 1 1 1 1 32, .maxu 64 1 1 1 1, .maxu 1 8 1 1 1, .maxu 1 1 32 1 1, .maxu 1 1 1 32 1, .maxu 1 1 1 1 32, .clz 64 1 1 1, .clz 1 8 1 1, .clz 1 1 32 1, .clz 1 1 1 32, .popc 64 1 1 1, .popc 1 8 1 1, .popc 1 1 32 1, .popc 1 1 1 32, .cmp 64 1 .lt 1 1 1, .cmp 1 8 .lt 1 1 1, .cmp 1 1 .lt 32 1 1, .cmp 1 1 .lt 1 32 1, .cmp 1 1 .lt 1 1 32, .cmp 1 1 .lt 0 1 1, .cmp 1 1 .lt 8 1 1, .pand 64 1 1 1 1, .pand 1 8 1 1 1, .pand 1 1 32 1 1, .pand 1 1 1 32 1, .pand 1 1 1 1 32] : List Instr).all (fun i => !i.wf) = true := by decide +kernel
theorem test_ill_formed_3 : ([.pand 1 1 0 1 1, .pand 1 1 8 1 1, .pand 1 1 1 8 1, .pand 1 1 1 1 8, .por 64 1 1 1 1, .por 1 8 1 1 1, .por 1 1 32 1 1, .por 1 1 1 32 1, .por 1 1 1 1 32, .por 1 1 0 1 1, .por 1 1 8 1 1, .por 1 1 1 8 1, .por 1 1 1 1 8, .pxor 64 1 1 1 1, .pxor 1 8 1 1 1, .pxor 1 1 32 1 1, .pxor 1 1 1 32 1, .pxor 1 1 1 1 32, .pxor 1 1 0 1 1, .pxor 1 1 8 1 1, .pxor 1 1 1 8 1, .pxor 1 1 1 1 8, .pandn 64 1 1 1 1, .pandn 1 8 1 1 1, .pandn 1 1 32 1 1, .pandn 1 1 1 32 1, .pandn 1 1 1 1 32, .pandn 1 1 0 1 1, .pandn 1 1 8 1 1, .pandn 1 1 1 8 1, .pandn 1 1 1 1 8, .mul 64 1 1 1 1, .mul 1 8 1 1 1, .mul 1 1 32 1 1, .mul 1 1 1 32 1, .mul 1 1 1 1 32, .mulh 64 1 1 1 1, .mulh 1 8 1 1 1, .mulh 1 1 32 1 1, .mulh 1 1 1 32 1, .mulh 1 1 1 1 32, .mulhu 64 1 1 1 1, .mulhu 1 8 1 1 1, .mulhu 1 1 32 1 1, .mulhu 1 1 1 32 1, .mulhu 1 1 1 1 32, .div 64 1 1 1 1, .div 1 8 1 1 1, .div 1 1 32 1 1, .div 1 1 1 32 1, .div 1 1 1 1 32, .divu 64 1 1 1 1, .divu 1 8 1 1 1, .divu 1 1 32 1 1, .divu 1 1 1 32 1, .divu 1 1 1 1 32, .rem 64 1 1 1 1, .rem 1 8 1 1 1, .rem 1 1 32 1 1, .rem 1 1 1 32 1] : List Instr).all (fun i => !i.wf) = true := by decide +kernel
theorem test_ill_formed_4 : ([.rem 1 1 1 1 32, .remu 64 1 1 1 1, .remu 1 8 1 1 1, .remu 1 1 32 1 1, .remu 1 1 1 32 1, .remu 1 1 1 1 32, .mfs 64 1 1 1, .mfs 1 8 1 1, .mfs 1 1 32 1, .mfs 1 1 1 16, .mts 64 1 6 1, .mts 1 8 6 1, .mts 1 1 6 32, .mts 1 1 3 1, .addi 64 1 1 1, .addi 1 32 1 1, .addi 1 1 32 1, .andi 64 1 1 1, .andi 1 32 1 1, .andi 1 1 32 1, .ori 64 1 1 1, .ori 1 32 1 1, .ori 1 1 32 1, .xori 64 1 1 1, .xori 1 32 1 1, .xori 1 1 32 1, .shli 64 1 1 1, .shli 1 32 1 1, .shli 1 1 32 1, .shli 1 1 1 64, .shri 64 1 1 1, .shri 1 32 1 1, .shri 1 1 32 1, .shri 1 1 1 64, .sari 64 1 1 1, .sari 1 32 1 1, .sari 1 1 32 1, .sari 1 1 1 64, .seth 64 1 1 1, .seth 1 32 1 1, .seth 1 1 4 1, .cmpi 64 .lt 1 1 1, .cmpi 1 .lt 32 1 1, .cmpi 1 .lt 1 32 1, .cmpi 1 .lt 0 1 1, .cmpi 1 .lt 8 1 1, .cmpi 1 .ge 1 1 1, .cmpi 1 .geu 1 1 1, .ld 64 1 1 1 1, .ld 1 8 1 1 1, .ld 1 1 32 1 1, .ld 1 1 1 32 1, .lw 64 1 1 1 1, .lw 1 8 1 1 1, .lw 1 1 32 1 1, .lw 1 1 1 32 1, .lws 64 1 1 1 1, .lws 1 8 1 1 1, .lws 1 1 32 1 1, .lws 1 1 1 32 1] : List Instr).all (fun i => !i.wf) = true := by decide +kernel
theorem test_ill_formed_5 : ([.lh 64 1 1 1 1, .lh 1 8 1 1 1, .lh 1 1 32 1 1, .lh 1 1 1 32 1, .lhs 64 1 1 1 1, .lhs 1 8 1 1 1, .lhs 1 1 32 1 1, .lhs 1 1 1 32 1, .lb 64 1 1 1 1, .lb 1 8 1 1 1, .lb 1 1 32 1 1, .lb 1 1 1 32 1, .lbs 64 1 1 1 1, .lbs 1 8 1 1 1, .lbs 1 1 32 1 1, .lbs 1 1 1 32 1, .st 64 1 1 1 1, .st 1 8 1 1 1, .st 1 1 32 1 1, .st 1 1 1 32 1, .stw 64 1 1 1 1, .stw 1 8 1 1 1, .stw 1 1 32 1 1, .stw 1 1 1 32 1, .sth 64 1 1 1 1, .sth 1 8 1 1 1, .sth 1 1 32 1 1, .sth 1 1 1 32 1, .stb 64 1 1 1 1, .stb 1 8 1 1 1, .stb 1 1 32 1 1, .stb 1 1 1 32 1, .ldc 64 1 1 1 1, .ldc 1 8 1 1 1, .ldc 1 1 32 1 1, .ldc 1 1 1 32 1, .stc 64 1 1 1 1, .stc 1 8 1 1 1, .stc 1 1 32 1 1, .stc 1 1 1 32 1, .twr 64 1 1 1 1, .twr 1 8 1 1 1, .twr 1 1 32 1 1, .twr 1 1 1 32 1, .sig 64 1 1, .sig 1 8 1, .sig 1 1 64, .br 64 1 1, .br 1 8 1, .br 1 1 0x400000, .br 1 1 0, .brn 64 1 1, .brn 1 8 1, .brn 1 0 1, .brn 1 1 0x400000, .brn 1 1 0, .call 64 1 1, .call 1 8 1, .call 1 1 0, .ret 64 1] : List Instr).all (fun i => !i.wf) = true := by decide +kernel
theorem test_ill_formed_6 : ([.ret 1 8, .loop 64 1 1 1, .loop 1 32 1 1, .loop 1 1 0 1, .loop 1 1 32 1, .loop 1 1 1 0, .loop 1 1 1 65536, .jtab 64 1 1, .jtab 1 32 1, .jtab 1 1 0, .jtab 1 1 1025, .waitt 64 1, .waitt 1 8, .waits 64 1 1, .waits 1 8 1, .waits 1 1 32, .rennet 64 1 1, .rennet 1 8 1, .rennet 1 1 32, .evret 64, .wret 64, .drain 64 1, .drain 1 8, .drainComplete 64, .fence 64 1, .fence 1 8, .wcall 64 1, .wcall 1 64, .eventRaise 1024, .eventEntry 64, .hostSourceMessage 64, .evrDone (.host 64) 1 1, .evrDone sec 32 1, .evrRearm (.host 64) 1 1, .evrRearm sec 32 1, .evrPendWrite (.host 64) 1 1, .evrPendWrite sec 32 1, .pinRawEdge 32, .pinFilteredTransition 32 true, .pinLatchCapture 32 true, .create (.host 64) 1, .create sec 64, .destroy (.host 64) 1, .destroy sec 64, .partitionReset (.host 64) 1, .partitionReset sec 64, .run (.host 64) 1, .run sec 64, .claim (.host 64), .claimRelease (.host 64), .potRewriteDone 64, .potEdit (.host 64), .faultLatchClear (.host 64), .dramRequest 32 true 1 true 1 1 [], .dramRequest 1 true 64 true 1 1 [], .ssAccess 1 true 64 true 1 1 [], .retrainStart 16 true, .rowActivation 16 1 1 1, .rowActivation 1 1 1 32, .refreshRateChange 16 1] : List Instr).all (fun i => !i.wf) = true := by decide +kernel
theorem test_ill_formed_7 : ([.channelPowerDown 16 true, .dmaStart (.host 64) 1, .dmaStart sec 128, .dmaStop (.host 64) 1, .dmaStop sec 128, .dmaStopped 128, .dmaHalfPoint 128, .dmaEnd 128, .dmaError 128 1, .dmaError 1 16, .crcConfigWrite (.host 64) 1 1, .crcConfigWrite sec 128 1, .crcRestart (.host 64) 1, .crcRestart sec 128, .crcAliveReset (.host 64) 1, .crcAliveReset sec 128, .crcFeed (.host 64) 1 1 1, .crcFeed sec 128 1 1, .crcFeed sec 1 3 1, .crcCheck (.host 64) 1 1, .crcCheck sec 128 1, .csiFrameStart 8 1, .csiFrameStart 1 16, .csiLine 8 1 1 true true [], .csiLine 1 16 1 true true [], .csiLine 1 1 64 true true [], .csiFrameEnd 8 1, .csiFrameEnd 1 16, .csiLinkFailure 8, .rtpPacket 4 1 1 1 1 true true 1 [], .rtpPacket 1 65536 1 1 1 true true 1 [], .rtpPacket 1 1 1 65536 1 true true 1 [], .rtpPacket 1 1 1 1 4294967296 true true 1 [], .rtcpSenderReport 4 1 1 1 1, .rtcpSenderReport 1 65536 1 1 1, .rtcpSenderReport 1 1 1 4294967296 1, .publishGuest (.host 64) 1, .publishGuest sec 1024, .publishDerived (.host 64) 1 1, .publishDerived sec 1024 1, .publishDerived sec 1 1024, .publishReplay (.host 64) 1, .publishReplay sec 1024, .publishSynthetic (.host 64) 1, .publishSynthetic sec 1024, .sourceLossDeadline 1024, .vdeWptrWrite (.host 64) 1 1 1, .vdeWptrWrite sec 8 1 1, .vdeWptrWrite sec 1 32 1, .pictureTokenRefill 8 1, .pictureTokenRefill 1 32, .pictureDecoded 8 1 noPic, .pictureDecoded 1 32 noPic, .vdeCancel (.host 64) 1 1, .vdeCancel sec 8 1, .vdeCancel sec 1 32, .latchInstant 16, .stripCompositionStart 16 1, .stripScanoutStart 16 1 true, .layerWrite (.host 64) 1 1 1 1] : List Instr).all (fun i => !i.wf) = true := by decide +kernel
theorem test_ill_formed_8 : ([.layerWrite sec 16 1 1 1, .layerWrite sec 1 32 1 1, .layerWrite sec 1 1 64 1, .engineFault 64 true, .headLineStart 16 true true 1, .headLineStart 1 true true 3, .headEnable (.host 64) 1 true, .headEnable sec 16 true, .rasterStart 16, .syncWrite (.host 64) 1 true 1, .syncWrite sec 16 true 1, .adaptGo (.host 64) 1, .adaptGo sec 16, .frameDone 16, .linkTrain 8 1, .linkTrainingDone 8 1 1 true true 1 1 true true, .hpdLoss 8, .irqHpd 8 true, .linkLoss 8, .auxNativeWrite (.host 64) 1 1 1, .auxNativeWrite sec 8 1 1, .auxNativeWrite sec 1 1048576 1, .auxNativeWrite sec 1 1 0, .auxNativeWrite sec 1 1 17, .auxNativeRead (.host 64) 1 1 1, .auxNativeRead sec 8 1 1, .auxNativeRead sec 1 1048576 1, .auxNativeRead sec 1 1 0, .auxNativeRead sec 1 1 17, .auxI2cWrite (.host 64) 1 1 1, .auxI2cWrite sec 8 1 1, .auxI2cWrite sec 1 1048576 1, .auxI2cWrite sec 1 1 0, .auxI2cWrite sec 1 1 17, .auxI2cRead (.host 64) 1 1 1, .auxI2cRead sec 8 1 1, .auxI2cRead sec 1 1048576 1, .auxI2cRead sec 1 1 0, .auxI2cRead sec 1 1 17, .auxReply 8 1 [], .auxDeferRetry 8, .sinkCrcResult 8 1 true 1, .sinkCrcResult 1 2 true 1, .encodeTokenRefill 4 1, .encodeTokenRefill 1 8, .ctuRowReady 4 1 1 1 1 1 1, .ctuRowReady 1 8 1 1 1 1 1, .ctuRowCoded 4 1 1 [] [], .ctuRowCoded 1 8 1 [] [],  .rowDeadline 4 1 1 [], .rowDeadline 1 8 1 [], .encoderFault 4, .segmentClose 64 true, .holdSet (.host 64) 1, .holdSet sec 1024, .holdRelease (.host 64) 1, .holdRelease sec 1024, .programFailure 32 1, .caveRead 65 1 true []] : List Instr).all (fun i => !i.wf) = true := by decide +kernel
theorem test_ill_formed_9 : ([.affinageRead 32 1 1 1 true true, .remove (.host 64) 1, .remove sec 32, .forceRemove (.host 64) 1, .forceRemove sec 32, .insert (.host 64) 1, .insert sec 32, .memberDrained 32, .memberTimeout 32, .caveFormat (.host 64) [], .mixSample 3, .tdmFrame 8 0 [], .tdmFsTimeout 8, .tdmConfigWrite (.host 64) 1 1, .tdmConfigWrite sec 8 1, .audioPacket 4 1 1 1 1 1 [], .audioPacket 1 65536 1 1 1 1 [], .audioPacket 1 1 1 128 1 1 [], .audioPacket 1 1 1 1 4294967296 1 [], .audioPacketTx 4 1, .audioPacketTx 1 16, .nsConfigWrite (.host 64) 1 1 1, .nsConfigWrite sec 4 1 1, .nsConfigWrite sec 1 16 1, .inConfigWrite (.host 64) 1 1, .inConfigWrite sec 128 1, .bridgeRatioFault 4 0, .silenceHoldExpiry 64, .ampWakeDone 16, .chimeStart (.host 64) 1, .chimeStart sec 4, .chimeStop (.host 64) 1, .chimeStop sec 4, .meterRead (.host 64) 1, .meterRead sec 64, .touchRateTick 8, .scanStart 8, .scanEnd 8 [] [], .freeModeFallback 8, .tslStepFrame 8 1 true [], .tslWrite (.host 64) 1 1 1, .tslWrite sec 8 1 1, .tslWrite sec 1 0 1, .tslWrite sec 1 5 1, .tslWrite sec 1 1 65536, .tslRead (.host 64) 1 1 1, .tslRead sec 8 1 1, .tslRead sec 1 0 1, .tslRead sec 1 5 1, .tslRead sec 1 1 65536, .tslReply 8 true [], .tslTimeout 8, .touchStart (.host 64) 1, .touchStart sec 8, .touchStop (.host 64) 1, .touchStop sec 8, .rebase (.host 64) 1, .rebase sec 8, .touchSelftest (.host 64) 1, .touchSelftest sec 8] : List Instr).all (fun i => !i.wf) = true := by decide +kernel
theorem test_ill_formed_10 : ([.longHold 8, .wakeGesture 8, .hptGo (.host 64) 1 1, .hptGo sec 8 1, .carrierPeriod 8, .effectSegmentEnd 8, .enableHoldExpiry 8, .enableDelayDone 8, .hapticFault 8 1, .hapticSelftest (.host 64) 1, .hapticSelftest sec 8, .hapticSelftestEnd 8 1, .hapticDisable (.host 64) 1, .hapticDisable sec 8, .sqTailWrite 64 1 1, .sqTailWrite 1 4 1, .cqHeadWrite 64 1 1, .cqHeadWrite 1 4 1, .nop 64 1, .nop 1 4, .contract 64 1, .contract 1 4, .commit 64 1, .commit 1 4, .discard 64 1, .discard 1 4, .submit 64 1, .submit 1 4, .waitEpoch 64 1, .waitEpoch 1 4, .readSeg 64 1 true [] true, .readSeg 1 4 true [] true, .moderationTimer 2048, .msixUnmask 64 1, .msixUnmask 1 2048, .d3hotEntry 64, .flr 64, .linkFrame 2 (frame 0), .portUp 2 1, .portDown 2, .exportEnable (.host 64) 1 1 true, .exportEnable sec 16 1 true, .exportSnapshot 16, .stripSend 16 1, .stripMissing 16 1, .thermalSample 8 0, .domainRequest 64, .powerGoodLoss 24, .chip (.host 64) [] 1, .recover (.host 64) [] 1, .confirm (.host 64), .rollbackCommit (.host 64), .headReset (.host 64) 1, .headReset sec 16, .unitReset (.host 64) 1 1, .unitReset sec 256 1, .unitReset sec 1 2048, .debugHalt ⟨64, []⟩, .debugResume ⟨64, true⟩, .netLinkChange 4 true] : List Instr).all (fun i => !i.wf) = true := by decide +kernel
theorem test_ill_formed_11 : ([.functionD0Entry 64 true, .aspmL1Entry 3, .refreshWindowEnd 16, .loReadLatch (.host 64) 0x20000004, .loReadLatch sec 0x20000002, .loReadLatch sec 0x1FFFFFFC, .loReadLatch sec 0x22000000, .pwCommit (.seq 64), .pwCommit (.dma 128)] : List Instr).all (fun i => !i.wf) = true := by decide +kernel
theorem test_well_formed_1 : ([.registerWrite sec 0x20000004 1, .hostBarAccess 1 0 true 1 1 1, .pairedWrite sec 0x20000004 1, .pairTimeout 0x20000004, .tickWindowClose 0, .headTick 1, .audioTick 1, .tkgSourceSelect sec 1, .timeInfo 1, .contractAdd sec 1, .contractRelease sec 1, .contractReplace sec 1, .pwCommit sec, .pwDiscard sec 1, .plFloorWrite sec 1, .add 1 1 1 1 1, .sub 1 1 1 1 1, .andR 1 1 1 1 1, .orR 1 1 1 1 1, .xorR 1 1 1 1 1, .andn 1 1 1 1 1, .shl 1 1 1 1 1, .shr 1 1 1 1 1, .sar 1 1 1 1 1, .rol 1 1 1 1 1, .min 1 1 1 1 1, .max 1 1 1 1 1, .minu 1 1 1 1 1, .maxu 1 1 1 1 1, .clz 1 1 1 1, .popc 1 1 1 1, .cmp 1 1 .lt 1 1 1, .pand 1 1 1 1 1, .por 1 1 1 1 1, .pxor 1 1 1 1 1, .pandn 1 1 1 1 1, .mul 1 1 1 1 1, .mulh 1 1 1 1 1, .mulhu 1 1 1 1 1, .div 1 1 1 1 1, .divu 1 1 1 1 1, .rem 1 1 1 1 1, .remu 1 1 1 1 1, .mfs 1 1 1 1, .mts 1 1 6 1, .addi 1 1 1 1, .andi 1 1 1 1, .ori 1 1 1 1, .xori 1 1 1 1, .shli 1 1 1 1, .shri 1 1 1 1, .sari 1 1 1 1, .seth 1 1 1 1, .cmpi 1 .lt 1 1 1, .ld 1 1 1 1 1, .lw 1 1 1 1 1, .lws 1 1 1 1 1, .lh 1 1 1 1 1, .lhs 1 1 1 1 1, .lb 1 1 1 1 1] : List Instr).all (fun i => i.wf) = true := by decide +kernel
theorem test_well_formed_2 : ([.lbs 1 1 1 1 1, .st 1 1 1 1 1, .stw 1 1 1 1 1, .sth 1 1 1 1 1, .stb 1 1 1 1 1, .ldc 1 1 1 1 1, .stc 1 1 1 1 1, .twr 1 1 1 1 1, .sig 1 1 1, .br 1 1 1, .brn 1 1 1, .call 1 1 1, .ret 1 1, .loop 1 1 1 1, .jtab 1 1 1, .waitt 1 1, .waits 1 1 1, .rennet 1 1 1, .evret 1, .wret 1, .drain 1 1, .drainComplete 1, .fence 1 1, .wcall 1 1, .eventRaise 1, .eventEntry 1, .hostSourceMessage 1, .evrDone sec 1 1, .evrRearm sec 1 1, .evrPendWrite sec 1 1, .pinRawEdge 1, .pinFilteredTransition 1 true, .pinLatchCapture 1 true, .create sec 1, .destroy sec 1, .partitionReset sec 1, .run sec 1, .claim sec, .claimRelease sec, .potRewriteDone 1, .potEdit sec, .faultLatchClear sec, .dramRequest 1 true 1 true 1 1 [], .ssAccess 1 true 1 true 1 1 [], .retrainStart 1 true, .rowActivation 1 1 1 1, .refreshRateChange 1 1, .channelPowerDown 1 true, .dmaStart sec 1, .dmaStop sec 1, .dmaStopped 1, .dmaHalfPoint 1, .dmaEnd 1, .dmaError 1 1, .crcConfigWrite sec 1 1, .crcRestart sec 1, .crcAliveReset sec 1, .crcFeed sec 1 1 1, .crcCheck sec 1 1, .csiFrameStart 1 1] : List Instr).all (fun i => i.wf) = true := by decide +kernel
theorem test_well_formed_3 : ([.csiLine 1 1 1 true true [], .csiFrameEnd 1 1, .csiLinkFailure 1, .rtpPacket 1 1 1 1 1 true true 1 [], .rtcpSenderReport 1 1 1 1 1, .publishGuest sec 1, .publishDerived sec 1 1, .publishReplay sec 1, .publishSynthetic sec 1, .sourceLossDeadline 1, .vdeWptrWrite sec 1 1 1, .pictureTokenRefill 1 1, .pictureDecoded 1 1 noPic, .vdeCancel sec 1 1, .latchInstant 1, .stripCompositionStart 1 1, .stripScanoutStart 1 1 true, .layerWrite sec 1 1 1 1, .engineFault 1 true, .headLineStart 1 true true 1, .headEnable sec 1 true, .rasterStart 1, .syncWrite sec 1 true 1, .adaptGo sec 1, .frameDone 1, .linkTrain 1 1, .linkTrainingDone 1 1 1 true true 1 1 true true, .hpdLoss 1, .irqHpd 1 true, .linkLoss 1, .auxNativeWrite sec 1 1 1, .auxNativeRead sec 1 1 1, .auxI2cWrite sec 1 1 1, .auxI2cRead sec 1 1 1, .auxReply 1 1 [], .auxDeferRetry 1, .sinkCrcResult 1 1 true 1, .encodeTokenRefill 1 1, .ctuRowReady 1 1 1 1 1 1 1, .ctuRowCoded 1 1 1 [] [], .rowDeadline 1 1 1 [], .encoderFault 1, .segmentClose 1 true, .holdSet sec 1, .holdRelease sec 1, .programFailure 1 1, .caveRead 1 1 true [], .affinageRead 1 1 1 1 true true, .remove sec 1, .forceRemove sec 1, .insert sec 1, .memberDrained 1, .memberTimeout 1, .caveFormat sec [], .mixSample 1, .tdmFrame 1 0 [], .tdmFsTimeout 1, .tdmConfigWrite sec 1 1, .audioPacket 1 1 1 1 1 1 [], .audioPacketTx 1 1] : List Instr).all (fun i => i.wf) = true := by decide +kernel
theorem test_well_formed_4 : ([.nsConfigWrite sec 1 1 1, .inConfigWrite sec 1 1, .bridgeRatioFault 1 0, .silenceHoldExpiry 1, .ampWakeDone 1, .chimeStart sec 1, .chimeStop sec 1, .meterRead sec 1, .touchRateTick 1, .scanStart 1, .scanEnd 1 [] [], .freeModeFallback 1, .tslStepFrame 1 1 true [], .tslWrite sec 1 1 1, .tslRead sec 1 1 1, .tslReply 1 true [], .tslTimeout 1, .touchStart sec 1, .touchStop sec 1, .rebase sec 1, .touchSelftest sec 1, .longHold 1, .wakeGesture 1, .hptGo sec 1 1, .carrierPeriod 1, .effectSegmentEnd 1, .enableHoldExpiry 1, .enableDelayDone 1, .hapticFault 1 1, .hapticSelftest sec 1, .hapticSelftestEnd 1 1, .hapticDisable sec 1, .sqTailWrite 1 1 1, .cqHeadWrite 1 1 1, .nop 1 1, .contract 1 1, .commit 1 1, .discard 1 1, .submit 1 1, .waitEpoch 1 1, .readSeg 1 1 true [] true, .moderationTimer 1, .msixUnmask 1 1, .d3hotEntry 1, .flr 1, .linkFrame 1 (frame 0), .portUp 1 1, .portDown 1, .exportEnable sec 1 1 true, .exportSnapshot 1, .stripSend 1 1, .stripMissing 1 1, .thermalSample 1 0, .domainRequest 1, .powerGoodLoss 1, .chip sec [] 1, .recover sec [] 1, .confirm sec, .rollbackCommit sec, .headReset sec 1] : List Instr).all (fun i => i.wf) = true := by decide +kernel
theorem test_well_formed_5 : ([.unitReset sec 1 1, .debugHalt ⟨1, []⟩, .debugResume ⟨1, false⟩, .netLinkChange 1 true, .functionD0Entry 1 true, .aspmL1Entry 1, .refreshWindowEnd 1, .loReadLatch sec 0x20000004, .pwCommit (.seq 63), .pwCommit (.dma 127), .pwCommit .starter, .pwCommit .debug] : List Instr).all (fun i => i.wf) = true := by decide +kernel


/-! ### Single steps with results from the spec

Sequencer instructions on edge operands, by hand from R61 to R68; then the worked examples and tables of the chapters. -/

/-- g3 after an instruction on sequencer 0 with g1 = a and g2 = b. -/
def g3 (a b : W64) (i : Instr) (v : W64) : Bool := gives (two a b) i (fun t => t.core.g 0 3 == v)
/-- Predicate 3 after it. -/
def p3 (a b : W64) (i : Instr) (v : Bool) : Bool := gives (two a b) i (fun t => t.core.pr 0 3 == v)
def minNeg : W64 := 0x8000000000000000
def ones : W64 := 0xFFFFFFFFFFFFFFFF

theorem test_add_wraps : g3 ones 2 (.add 0 0 3 1 2) 1 = true := by decide +kernel
theorem test_sub_wraps : g3 1 2 (.sub 0 0 3 1 2) ones = true := by decide +kernel
theorem test_and : g3 0xC 0xA (.andR 0 0 3 1 2) 8 = true := by decide +kernel
theorem test_or : g3 0xC 0xA (.orR 0 0 3 1 2) 0xE = true := by decide +kernel
theorem test_xor : g3 0xC 0xA (.xorR 0 0 3 1 2) 6 = true := by decide +kernel
theorem test_andn : g3 0xC 0xA (.andn 0 0 3 1 2) 4 = true := by decide +kernel
theorem test_shl_by_64 : g3 3 64 (.shl 0 0 3 1 2) 3 = true := by decide +kernel
theorem test_shr : g3 minNeg 63 (.shr 0 0 3 1 2) 1 = true := by decide +kernel
theorem test_sar : g3 minNeg 63 (.sar 0 0 3 1 2) ones = true := by decide +kernel
theorem test_rol : g3 (minNeg + 1) 1 (.rol 0 0 3 1 2) 3 = true := by decide +kernel
theorem test_min_signed : g3 minNeg 1 (.min 0 0 3 1 2) minNeg = true ∧ g3 minNeg 1 (.minu 0 0 3 1 2) 1 = true := by decide +kernel
theorem test_max_signed : g3 minNeg 1 (.max 0 0 3 1 2) 1 = true ∧ g3 minNeg 1 (.maxu 0 0 3 1 2) minNeg = true := by decide +kernel
theorem test_clz : g3 0 0 (.clz 0 0 3 1) 64 = true ∧ g3 1 0 (.clz 0 0 3 1) 63 = true := by decide +kernel
theorem test_popc : g3 ones 0 (.popc 0 0 3 1) 64 = true := by decide +kernel
theorem test_cmp : p3 minNeg 1 (.cmp 0 0 .lt 3 1 2) true = true ∧ p3 minNeg 1 (.cmp 0 0 .ltu 3 1 2) false = true := by decide +kernel
theorem test_pandn : p3 0 0 (.pandn 0 0 3 0 1) true = true ∧ p3 0 0 (.pand 0 0 3 0 1) false = true := by decide +kernel
theorem test_pxor : p3 0 0 (.pxor 0 0 3 0 1) true = true ∧ p3 0 0 (.por 0 0 3 1 2) false = true := by decide +kernel
theorem test_mulh : g3 ones ones (.mulh 0 0 3 1 2) 0 = true ∧ g3 ones ones (.mulhu 0 0 3 1 2) (ones - 1) = true := by decide +kernel
theorem test_mul : g3 ones 3 (.mul 0 0 3 1 2) (ones - 2) = true := by decide +kernel
theorem test_div_truncates : g3 (0 - 7) 2 (.div 0 0 3 1 2) (0 - 3) = true ∧ g3 (0 - 7) 2 (.rem 0 0 3 1 2) (0 - 1) = true := by decide +kernel
theorem test_div_by_zero : g3 7 0 (.divu 0 0 3 1 2) ones = true ∧ g3 7 0 (.remu 0 0 3 1 2) 7 = true := by decide +kernel
theorem test_div_overflow : g3 minNeg ones (.div 0 0 3 1 2) minNeg = true ∧ g3 minNeg ones (.rem 0 0 3 1 2) 0 = true := by decide +kernel
theorem test_addi_sign : g3 5 0 (.addi 0 3 1 0xFFFF) 4 = true := by decide +kernel
theorem test_andi_zero_extends : g3 ones 0 (.andi 0 3 1 0xFFFF) 0xFFFF = true ∧ g3 0 0 (.ori 0 3 1 0x8000) 0x8000 = true := by decide +kernel
theorem test_xori : g3 0xFFFF 0 (.xori 0 3 1 0xFF00) 0xFF = true := by decide +kernel
theorem test_shift_immediates : g3 1 0 (.shli 0 3 1 63) minNeg = true ∧ g3 minNeg 0 (.sari 0 3 1 62) (ones - 1) = true := by decide +kernel
theorem test_shri : g3 minNeg 0 (.shri 0 3 1 62) 2 = true := by decide +kernel
theorem test_seth : gives (two ones 0) (.seth 0 1 1 0x1234) (fun t => t.core.g 0 1 == 0xFFFFFFFF1234FFFF) = true := by decide +kernel
theorem test_cmpi : p3 (0 - 1) 0 (.cmpi 0 .lt 3 1 0) true = true ∧ p3 (0 - 1) 0 (.cmpi 0 .ltu 3 1 0) false = true := by decide +kernel
theorem test_g0_discards : gives (two 5 7) (.add 0 0 0 1 2) (fun t => t.core.g 0 0 == 0 && (t.core.seq 0).pc == 4) = true := by decide +kernel
theorem test_false_predicate : gives (two 5 7) (.add 0 2 3 1 2) (fun t => t.core.g 0 3 == 0 && (t.core.seq 0).pc == 4) = true := by decide +kernel
theorem test_loads : gives loaded (.lbs 0 0 3 1 0) (fun t => t.core.g 0 3 == 0xFFFFFFFFFFFFFF80) = true ∧ gives loaded (.lb 0 0 3 1 0) (fun t => t.core.g 0 3 == 0x80) = true := by decide +kernel
theorem test_load_sizes : gives loaded (.lh 0 0 3 1 0) (fun t => t.core.g 0 3 == 0x80) = true ∧ gives loaded (.ld 0 0 3 1 0) (fun t => t.core.g 0 3 == 0x80) = true := by decide +kernel
theorem test_store_reads_back : gives loaded (.stw 0 0 1 1 4) (fun t => t.core.bytes 0x10010004 4 == [0, 0, 1, 0]) = true := by decide +kernel
theorem test_branch : gives (two 0 0) (.br 0 0 3) (fun t => (t.core.seq 0).pc == 12) = true ∧ gives (two 0 0) (.brn 0 1 3) (fun t => (t.core.seq 0).pc == 12) = true := by decide +kernel
theorem test_call_ret : gives (two 0 0) (.call 0 0 2) (fun t => t.core.g 0 31 == 4 && (t.core.seq 0).pc == 8) = true := by decide +kernel
theorem test_loop_skips : gives (two 0 0) (.loop 0 1 2 4) (fun t => (t.core.seq 0).pc == 12) = true := by decide +kernel
theorem test_jtab : gives (two 5 0) (.jtab 0 1 4) (fun t => (t.core.seq 0).pc == 20) = true := by decide +kernel
theorem test_sig : gives (evented) (.sig 0 0 5) (fun t => t.core.srcBit .EVR_PEND 5) = true := by decide +kernel
theorem test_event_entry : gives pendingSrc (.eventEntry 0) (fun t => (t.core.seq 0).level == 1 && (t.core.seq 0).pc == 0x40 && t.core.srcBit .EVR_ACTIVE 5) = true := by decide +kernel

/-- The words of "a head-3 status program" in the chapter on the USFER, and those given for comparison, cost what it says. -/
theorem test_words : (decodeWord 0x61240000).map (fun x => x.cost) = some 1 ∧ (decodeWord 0xE8002005).map (fun x => (x.cost, x.skip)) = some (2, true) ∧
    (decodeWord 0xE0E40004).map (fun x => x.flow) = some (.loop 4 4) ∧ (decodeWord 0x00642800).map (fun x => x.cost) = some 1 ∧ (decodeWord 0x4064000C).isSome = true ∧
    (decodeWord 0xA0644008).map (fun x => x.skip) = some true ∧ decodeWord 0xFFFFFFFF = none := by decide +kernel
/-- The same words as commands: one per format of R61. -/
theorem test_word_commands : usferCommand 5 0x61240000 = some (.cmpi 5 .ne 1 4 0) ∧ usferCommand 5 0xE8002005 = some (.sig 5 1 5) ∧ usferCommand 5 0xE0E40004 = some (.loop 5 7 4 4) ∧
    usferCommand 5 0x00642800 = some (.add 5 0 3 4 5) ∧ usferCommand 5 0x4064000C = some (.addi 5 3 4 12) ∧ usferCommand 5 0xA0644008 = some (.st 5 2 3 4 8) := by decide +kernel
/-- By hand from R61 and R62: DIVU, BRN p3 by 2 words, RET, TWR; a reserved field, a backward branch and an unlisted function are no command. -/
theorem test_word_formats : usferCommand 0 0x10642901 = some (.divu 0 1 3 4 5) ∧ usferCommand 0 0xC5800002 = some (.brn 0 3 2) ∧ usferCommand 0 0x18000003 = some (.ret 0 0) ∧
    usferCommand 0 0xB8644004 = some (.twr 0 2 3 4 4) ∧ usferCommand 0 0x18200003 = none ∧ usferCommand 0 0xC47FFFFF = none ∧ usferCommand 0 0x00642810 = none := by decide +kernel
/-- R9: "On the first stepping the register therefore reads 0xB100_0C08"; SYS_CAP2 of a T08W reads 0x8080_3040. -/
theorem test_capability : capWord { part := .T08W, dieStep := 0 } 0 = 0xB1000C08 ∧ capWord { part := .T08W, dieStep := 0 } 2 = 0x80803040 := by decide
/-- Ticks, Contracts: 9,997,768 cycles at 1.2 GHz and 120 Hz; 98,758 at 192 kHz, 16 samples a tick; e = 8 × (1 + 1); C of the wall. -/
theorem test_capacity : seqCapacity 1200 (120, 1) 0x12 = 9997768 ∧ seqCapacity 1200 (12000, 1) 0x20 = 98758 ∧ eventsPerTick (60, 1) (120, 1) 0x12 8 = 16 ∧ eventsPerTick (60, 1) (12000, 1) 0x20 4 = 8 ∧
    memCapacity 16 (60, 1) = 3385555810 := by decide +kernel
/-- R164: the check values over "123456789". -/
def nine (w poly init : Nat) (refl : Bool) (out : Nat) : Nat :=
  let r := (List.range 9).foldl (fun r i => crcByte w poly refl r (0x31 + i)) init
  (if refl then revBits w r else r) ^^^ out
theorem test_check_values : nine 3 3 0 false 7 = 4 ∧ nine 8 0x1D 0xFF false 0xFF = 0x4B ∧ nine 16 0x1021 0xFFFF false 0 = 0x29B1 ∧ nine 32 0x04C11DB7 0xFFFFFFFF true 0xFFFFFFFF = 0xCBF43926 := by decide +kernel
theorem test_check_value_64 : nine 64 0x42F0E1EBA9EA3693 0xFFFFFFFFFFFFFFFF true 0xFFFFFFFFFFFFFFFF = 0x995DC9BBDF1939FA := by decide +kernel
/-- R185: t = 205,032,704 arriving at 4,500,001,800 ticks stands for 4,500,000,000. -/
theorem test_media_time : extStamp 4500001800 205032704 = 4500000000 := by decide
/-- R143: a read on port 20 becomes U1, U2 and U3 at 4,000, 6,000 and 7,200 ns. -/
theorem test_urgency : urgencyAt 0 8000 1 = 4000000 ∧ urgencyAt 0 8000 2 = 6000000 ∧ urgencyAt 0 8000 3 = 7200000 := by decide
/-- R387: a strip of the wall's export: 32 lines of 3840 × P010, 1,537 frames. -/
theorem test_strip_frames : stripSpan 0 32 0 2160 2160 = some (0, 31) ∧ stripSpan 67 32 0 2160 2160 = some (2144, 2159) ∧ spanFrames (planesOf 1 0 0 0 0) 3840 0 31 = 1537 := by decide +kernel
/-- R287: before CTU 389 the CTU of 2,400 bytes still codes, from CTU 390 on it is fallback, 41 bytes each, 143,620 in all. -/
theorem test_cap_rule : capRow 150000 96 121 136300 false false [2400] [41] = (138700, false, false) ∧ capRow 150000 96 120 138700 false false (List.replicate 120 2400) (List.replicate 120 41) = (143620, true, true) := by decide +kernel
/-- R10: the device address w.m = 3.17 is 0x0311. -/
theorem test_device_address : (on (fun c => c.wr (rg0 .RGL_ID) 0x0311)).core.wheel = 3 ∧ (on (fun c => c.wr (rg0 .RGL_ID) 0x0311)).core.wheelNo = 17 := by decide +kernel
/-- R23: a register of a block that is not there, or an address that is no multiple of 4, is no register. -/
theorem test_register_map : regAt 0x20000100 = some (rg0 .SYS_CAP0) ∧ regAt 0x20000102 = none := by decide +kernel
/-- R33, R50: the boundary of the master tick at 60 Hz that follows 1 s is number 60. -/
theorem test_boundary : State.reset.core.boundaryNs 60 = 1000000000 ∧ State.reset.core.boundaryNs 1001 = 16683333333 := by decide +kernel

end Sys2Proof.Tests
end

section
/-! PROOFS. The outcome of a command, and writes of control space: what a register keeps of a written value, which command is a write of
which register, what the gate lets through and what it leaves of a write that it turns away. -/

namespace Sys2Proof.Machine

open Sys2Proof

/-! ### The outcome of a command -/

/-- Every command is the run of some effect on the block: none stops it. -/
theorem exec_eq_run (i : Instr) (s : State) : ∃ f, exec i s = run s f := by
  cases i <;> exact ⟨_, rfl⟩

/-- Of an effect, only what it makes of the state at hand counts. -/
theorem after_congr {s : State} {f g : Core → Core} (h : f s.core = g s.core) : s.after f = s.after g := by
  rw [State.after, State.after, h]

theorem Does.congr {i : Instr} {s : State} {f g : Core → Core} (hi : Does i s f) (h : f s.core = g s.core) : Does i s g :=
  hi.trans (congrArg Host.Outcome.next (after_congr h))

/-- Settles O5: a command is the run of an effect, and a run puts variant and queue back and never lowers the time. -/
theorem commandsKeepVariantQueueAndTimeOrder : Obligations.CommandsKeepVariantQueueAndTimeOrder := by
  intro i s t h
  obtain ⟨f, hf⟩ := exec_eq_run i s
  obtain rfl := run_next (hf ▸ h)
  exact ⟨after_var s f, after_pending s f, (after_later s f).2⟩

/-! ### The value a plain register takes (R11, R102) -/

theorem bit_eq_getLsbD (v : W32) (i : Nat) : bit v i = v.getLsbD i := bit_eq_testBit v i

/-- Bit by bit: a W1C bit clears on 1, an RW bit takes the written one, any other and any bit outside `m` stays. -/
theorem bit_mergeWrite (info : RegInfo) (m old v : W32) {j : Nat} (hj : j < 32) :
    bit (mergeWrite info m old v) j =
      if bit m j && bit (w32 info.w1c) j && bit v j then false
      else if bit m j && bit (w32 info.rw) j then bit v j else bit old j := by
  simp only [bit_eq_getLsbD, mergeWrite, BitVec.getLsbD_and, BitVec.getLsbD_or, BitVec.getLsbD_not, hj, decide_true, Bool.true_and]
  cases m.getLsbD j <;> cases v.getLsbD j <;> cases (w32 info.w1c).getLsbD j <;> cases (w32 info.rw).getLsbD j <;> simp

/-- A source that becomes pending moves its pending bit and its stamp only. -/
theorem rd_setPend (c : Core) (s : Nat) {r : Reg} (hp : r.fam ≠ .EVR_PEND) (ht : r.fam ≠ .EVR_SRC_TIME) :
    (c.setPend s).rd r = c.rd r := by
  unfold Core.setPend
  split
  · rfl
  · exact (rd_wr_fam _ _ ht).trans (rd_wr_fam c _ hp)

theorem rd_relevel (c : Core) (s : Nat) {r : Reg} (hp : r.fam ≠ .EVR_PEND) (ht : r.fam ≠ .EVR_SRC_TIME) :
    (c.relevel s).rd r = c.rd r := by
  unfold Core.relevel
  split
  · rfl
  · dsimp only
    split
    · exact rd_setPend _ s hp ht
    · split
      · exact rd_wr_fam _ _ hp
      · rfl

theorem rd_foldl_relevel (l : List Nat) (c : Core) {r : Reg} (hp : r.fam ≠ .EVR_PEND) (ht : r.fam ≠ .EVR_SRC_TIME) :
    (l.foldl Core.relevel c).rd r = c.rd r := by
  induction l generalizing c with
  | nil => rfl
  | cons s l ih => exact (ih _).trans (rd_relevel c s hp ht)

/-- A register set, a background register too, reads the value: the events that follow it touch pending bits and stamps, and these two
carry the level of no source. -/
theorem rd_set_same (c : Core) (r : Reg) (v : W32) : (c.set r v).rd r = v := by
  unfold Core.set
  by_cases h : r.fam = .EVR_PEND ∨ r.fam = .EVR_SRC_TIME
  · have hsrcs : srcsOf r = [] := by rcases h with h | h <;> simp [srcsOf, h]
    rw [hsrcs]
    exact rd_wr_self c r v
  · rw [not_or] at h
    rw [rd_foldl_relevel _ _ h.1 h.2, rd_wr_self]

/-- Settles O27: the value set is the merge of R11, bit by bit. -/
theorem plainRegistersTakeTheirWritableBits : Obligations.PlainRegistersTakeTheirWritableBits := by
  intro c t r v m j hj
  rw [Core.plainWrite, rd_set_same]
  exact bit_mergeWrite r.fam.info m (c.rd r) v hj

/-! ### The gate of a write -/

/-- Past the journal's check, which a sequencer's write always passes (R420, R422): the other checks, at a register that is there. -/
theorem ctlWrite_past_journal {c : Core} {ag : Agent} {a : Nat} {r : Reg} {t : Owner} (v : W32) (e : CtlEnv) (hat : regAt a = some r)
    (htag : c.ctlTag ag r = some t) (hlog : c.canLog t = true ∨ ∃ n, ag = .seq n) (hre : c.reachable r = true) :
    c.ctlWrite ag a v e =
      if !c.mayWrite ag t r v then (if r.fam.info.wr == .window then c.logWrite ag a (Config.writeStatus 0) v else c.refuse ag true a 1)
      else if c.ownedBar ag r then c.logWrite ag a (Config.writeStatus 1) v
      else if isRwp r then (c.logWrite ag a 0 v).pairWord ag t r v e
      else (c.logWrite ag a 0 v).unitEffect ag t r v e := by
  unfold Core.ctlWrite
  obtain hlog | ⟨n, rfl⟩ := hlog
  · simp [hat, htag, hlog, hre]
  · simp [hat, htag, hre]

theorem cmdWrite_in_space {c : Core} {a : Nat} (ag : Agent) (v : W32) (e : CtlEnv) (haw : c.awake = true)
    (ha : 0x20000000 ≤ a ∧ a < 0x22000000 ∧ a % 4 = 0) : c.cmdWrite ag a v e = c.ctlWrite ag a v e := by
  simp [Core.cmdWrite, haw, ha]

/-- The checks that `Core.granted` stands for, one by one. -/
theorem granted_checks {c : Core} {ag : Agent} {t : Owner} {r : Reg} {v : W32} (h : c.granted ag t r v = true) :
    c.awake = true ∧ (0x20000000 ≤ r.addr ∧ r.addr < 0x22000000 ∧ r.addr % 4 = 0) ∧ regAt r.addr = some r ∧ c.ctlTag ag r = some t ∧
      (c.canLog t = true ∨ ∃ n, ag = .seq n) ∧ c.reachable r = true ∧ c.mayWrite ag t r v = true ∧ c.ownedBar ag r = false := by
  simp only [Core.granted, Bool.and_eq_true, Bool.not_eq_true', beq_iff_eq, decide_eq_true_eq, Bool.or_eq_true] at h
  obtain ⟨⟨⟨⟨⟨⟨⟨haw, ha⟩, hat⟩, htag⟩, hlog⟩, hre⟩, hmay⟩, hbar⟩ := h
  refine ⟨haw, ha, hat, htag, hlog.imp id fun hseq => ?_, hre, hmay, hbar⟩
  cases ag with
  | seq n => exact ⟨n, rfl⟩
  | _ => cases hseq

/-- A write that passes every check is journalled and has its register's effect (R11, R108, R420). -/
theorem cmdWrite_granted {c : Core} {ag : Agent} {t : Owner} {r : Reg} {v : W32} (e : CtlEnv) (h : c.granted ag t r v = true)
    (hr : isRwp r = false) : c.cmdWrite ag r.addr v e = (c.logWrite ag r.addr 0 v).unitEffect ag t r v e := by
  obtain ⟨haw, ha, hat, htag, hlog, hre, hmay, hbar⟩ := granted_checks h
  rw [cmdWrite_in_space ag v e haw ha, ctlWrite_past_journal v e hat htag hlog hre]
  simp [hmay, hbar, hr]

/-- A write without the right, at a register outside the windows, is refused (R109). -/
theorem cmdWrite_refused {c : Core} {ag : Agent} {a : Nat} {r : Reg} {o : Owner} {v : W32} (e : CtlEnv) (haw : c.awake = true)
    (ha : 0x20000000 ≤ a ∧ a < 0x22000000 ∧ a % 4 = 0) (hat : regAt a = some r) (hre : c.reachable r = true)
    (htag : c.ctlTag ag r = some o) (hlog : c.canLog o = true ∨ ∃ n, ag = .seq n) (hmay : c.mayWrite ag o r v = false)
    (hwr : r.fam.info.wr ≠ .window) : c.cmdWrite ag a v e = c.refuse ag true a 1 := by
  rw [cmdWrite_in_space ag v e haw ha, ctlWrite_past_journal v e hat htag hlog hre]
  simp [hmay, hwr]

theorem quiet_ctlWrite_unmapped {c : Core} (ag : Agent) {a : Nat} (v : W32) (e : CtlEnv) (h : regAt a = none) :
    c.Quiet (c.ctlWrite ag a v e) := by
  unfold Core.ctlWrite
  simp only [h]
  exact .ite (quiet_logWrite c ag a _ v) (.refl c)

theorem quiet_ctlWrite_unreachable {c : Core} (ag : Agent) {a : Nat} {r : Reg} (v : W32) (e : CtlEnv) (hat : regAt a = some r)
    (hre : c.reachable r = false) : c.Quiet (c.ctlWrite ag a v e) := by
  unfold Core.ctlWrite
  simp only [hat, hre, Bool.and_false, Bool.false_eq_true, if_false, Bool.not_false, if_true]
  split
  · exact .refl c
  · exact .ite (.refl c) (quiet_logWrite c ag a _ v)

/-- A write that reaches no register, or comes while the device sleeps, leaves at most its journal entry (R5, R23, R24). -/
theorem quiet_cmdWrite_nowhere {c : Core} (ag : Agent) {a : Nat} (v : W32) (e : CtlEnv)
    (h : regAt a = none ∨ ¬ (0x20000000 ≤ a ∧ a < 0x22000000 ∧ a % 4 = 0) ∨ c.awake = false ∨
      (∃ r, regAt a = some r ∧ c.reachable r = false)) :
    c.Quiet (c.cmdWrite ag a v e) := by
  unfold Core.cmdWrite
  split
  · next hin =>
    rw [Bool.and_eq_true, decide_eq_true_eq] at hin
    obtain ⟨haw, hsp⟩ := hin
    obtain h | h | h | ⟨r, hat, hre⟩ := h
    · exact quiet_ctlWrite_unmapped ag v e h
    · exact absurd hsp h
    · rw [haw] at h; cases h
    · exact quiet_ctlWrite_unreachable ag v e hat hre
  · exact .refl c

/-! ### The commands that are one write -/

/-- A command, in the form its dispatch gives, has every effect that agrees with its own on the state at hand. -/
theorem does_of_eq {i : Instr} {s : State} {f g : Core → Core} (hi : exec i s = run s f) (h : f s.core = g s.core) : Does i s g :=
  Does.congr hi h

/-- The address of register `i` of a family that is not flat. -/
theorem addr_rg (f : Fam) (i : Nat) (hf : f.info.flat = false) : (rg f i).addr = f.info.base + f.info.s1 * i := by
  simp [Reg.addr, rg, hf, Nat.mul_comm]

theorem cmdReg_eq {c : Core} {ag : Agent} {r : Reg} {a : Nat} {v w : W32} (ha : r.addr = a) (hv : v = w) :
    c.cmdReg ag r v = c.cmdWrite ag a w {} := by
  rw [Core.cmdReg, ha, hv]

/-- In range, a command that writes one word is that write through the gate. -/
theorem does_cmdWrite {i : Instr} {s : State} {ag : Agent} {a : Nat} {v : W32} {e : CtlEnv} (hwf : i.wf = true)
    (hw : s.core.writeOf i = some (ag, a, v, e)) : Does i s (fun c => c.cmdWrite ag a v e) := by
  cases i with
  | registerWrite | tkgSourceSelect | potEdit | faultLatchClear | claim | claimRelease | caveFormat =>
    cases hw
    exact does_of_eq rfl rfl
  | contractAdd | contractRelease | contractReplace =>
    cases hw
    exact does_of_eq rfl (cmdReg_eq (addr_rg .ADM_PW_DESC_HI _ rfl) rfl)
  | pwCommit | pwDiscard =>
    cases hw
    exact does_of_eq rfl (cmdReg_eq (addr_rg .ADM_PW_CMD _ rfl) rfl)
  | evrDone | evrRearm | evrPendWrite | dmaStart | dmaStop | crcConfigWrite | crcRestart | crcAliveReset | crcCheck | headEnable | syncWrite
  | adaptGo | holdSet | holdRelease | remove | forceRemove | insert | tdmConfigWrite | inConfigWrite | chimeStart | chimeStop | touchStart
  | touchStop | rebase | touchSelftest | hptGo | hapticSelftest | hapticDisable | exportEnable =>
    cases hw
    exact does_of_eq rfl (if_pos (of_decide_eq_true (Bool.and_eq_true_iff.1 hwf).2))
  | vdeWptrWrite | vdeCancel | nsConfigWrite =>
    cases hw
    simp only [Instr.wf, Bool.and_eq_true, decide_eq_true_eq] at hwf
    exact does_of_eq rfl (if_pos ⟨hwf.1.2, hwf.2⟩)
  | create | destroy | partitionReset | run =>
    cases hw
    simp only [Instr.wf, Bool.and_eq_true, decide_eq_true_eq] at hwf
    exact does_of_eq rfl (cmdReg_eq rfl (congrArg w32 (by omega)))
  | crcFeed ag n width v =>
    cases hw
    simp only [Instr.wf, Bool.and_eq_true, Bool.or_eq_true, decide_eq_true_eq, beq_iff_eq] at hwf
    obtain ⟨⟨-, hn⟩, hwidth⟩ := hwf
    refine does_of_eq rfl ((if_neg (Nat.not_le.2 hn)).trans ?_)
    obtain (rfl | rfl) | rfl := hwidth <;> rfl
  | publishGuest | publishDerived | publishReplay | publishSynthetic =>
    cases hw
    simp only [Instr.wf, Bool.and_eq_true, decide_eq_true_eq] at hwf
    exact does_of_eq rfl (cmdReg_eq (addr_rg .SYS_SRC_PW_CMD _ rfl) (congrArg w32 (by omega)))
  | layerWrite ag h k off v =>
    simp only [Core.writeOf, Option.ite_none_right_eq_some] at hw
    obtain ⟨hk, hw⟩ := hw
    cases hw
    simp only [Instr.wf, Bool.and_eq_true, decide_eq_true_eq] at hwf
    refine does_of_eq rfl ((if_neg (by omega)).trans ((if_neg (by omega)).trans ?_))
    rw [Nat.mul_comm h, Nat.mul_comm k]
  | auxNativeWrite | auxNativeRead | auxI2cWrite | auxI2cRead | tslWrite | tslRead =>
    cases hw
    simp only [Instr.wf, Bool.and_eq_true, decide_eq_true_eq] at hwf
    exact does_of_eq rfl ((if_pos (by omega)).trans (cmdReg_eq rfl (congrArg w32 (by omega))))
  | _ => cases hw

/-- Settles O25: the command is the write through the gate, and the gate lets it through. -/
theorem registerCommandsHaveTheirRegistersEffect : Obligations.RegisterCommandsHaveTheirRegistersEffect := by
  intro i s ag t r v e hwf hw hg hr
  exact (does_cmdWrite hwf hw).congr (cmdWrite_granted e hg hr)

/-! ### Effects on registers alone -/

/-- `d` is `c` but for the registers in `L` and what the Event Router and the journal record. -/
def Core.RegsOnly (L : Reg → Bool) (c d : Core) : Prop :=
  d = { c with regs := d.regs, evr := { c.evr with level := d.evr.level }, jnl := d.jnl } ∧
  ∀ r : Reg, r.fam.background = false → L r = false → d.rd r = c.rd r

section RegsOnly

variable {L : Reg → Bool}

theorem Core.Quiet.regsOnly {c d : Core} (h : c.Quiet d) : c.RegsOnly L d := ⟨h.1, fun r hr _ => h.2 r hr⟩

theorem Core.RegsOnly.trans {a b c : Core} (h : a.RegsOnly L b) (g : b.RegsOnly L c) : a.RegsOnly L c := by
  obtain ⟨h1, h2⟩ := h
  obtain ⟨g1, g2⟩ := g
  refine ⟨?_, fun r hb hr => (g2 r hb hr).trans (h2 r hb hr)⟩
  rw [g1]
  generalize c.regs = x, c.evr.level = y, c.jnl = z
  rw [h1]

theorem regsOnly_wr (c : Core) {r : Reg} (v : W32) (h : L r = true) : c.RegsOnly L (c.wr r v) :=
  ⟨rfl, fun q _ hq => rd_wr_ne c v (fun e => by rw [e, h] at hq; cases hq)⟩

theorem regsOnly_set (c : Core) {r : Reg} (v : W32) (h : L r = true) : c.RegsOnly L (c.set r v) :=
  (regsOnly_wr c v h).trans (quiet_set c r v).regsOnly

/-- A command whose effect is on registers alone, from a state between commands. -/
theorem onlyRegs_after {s : State} {f : Core → Core} (hp : s.core.posted = []) (h : s.core.RegsOnly L (f s.core)) :
    OnlyRegs L s (s.after f) := by
  obtain ⟨hf, hr⟩ := h
  have hv : (f s.core).var = s.core.var := by rw [hf]
  have hpo : (f s.core).posted = [] := by rw [hf]; exact hp
  have hnow : (f s.core).settle.now = s.core.now := by rw [now_settle, hf]
  have hset : (f s.core).settle.posted = [] := by rw [posted_settle, hpo]
  obtain ⟨hq, -⟩ := quiet_settle (f s.core)
  refine ⟨after_pending s f, ?_, fun r hb hl => (after_rd s f hv hb).trans (hr r hb hl), fun a => by rw [after_mem_same s f hpo]⟩
  unfold State.after
  dsimp only
  rw [hset, hnow, if_neg (Nat.lt_irrefl _)]
  generalize (f s.core).settle = d at *
  generalize f s.core = e at *
  rw [hq, hf]
  simp only [flush, hp]

end RegsOnly

/-! ### The record of a refusal (R109) -/

theorem fld_w32 (n : Nat) {hi lo : Nat} (h : hi < 32) (hl : lo ≤ hi) : fld (w32 n) hi lo = n / 2 ^ lo % 2 ^ (hi - lo + 1) := by
  apply Nat.eq_of_testBit_eq
  intro j
  rw [testBit_fld, Nat.testBit_mod_two_pow, Nat.testBit_div_two_pow, w32, BitVec.toNat_ofNat, Nat.testBit_mod_two_pow, Nat.add_comm lo]
  by_cases hj : j < hi - lo + 1
  · have : j + lo < 32 := by omega
    simp [hj, this]
  · simp [hj]

theorem bit_w32 (n : Nat) {i : Nat} (h : i < 32) : bit (w32 n) i = decide (n / 2 ^ i % 2 = 1) := by
  rw [bit_eq_testBit, w32, BitVec.toNat_ofNat, Nat.testBit_mod_two_pow, Nat.testBit_eq_decide_div_mod_eq]
  simp [h]

/-- A number written to a register pair reads back from it. -/
theorem rdPair_wrPair (c : Core) {l h : Reg} (hlh : l ≠ h) {n : Nat} (hn : n < 2 ^ 64) : (c.wrPair l h n).rdPair l h = n := by
  rw [Core.rdPair, Core.rdN, Core.rdN, Core.wrPair, rd_wr_self, rd_wr_ne _ _ hlh, rd_wr_self]
  simp only [lo32, hi32, w32, BitVec.toNat_ofNat]
  omega

/-- The word that an ownership refusal puts into POT_FAULT_INFO. -/
def refusalInfo (t : Owner) (cls unit : Nat) (write : Bool) (kind : Nat) : W32 :=
  w32 (2147483648 + (if write then 1073741824 else 0) + (if t.world then 536870912 else 0)
    + t.part % 64 * 8388608 + cls % 8 * 1048576 + unit % 256 * 4096 + kind % 16)

/-- The fields of that word for a write: latched, write, world, partition, class, unit, kind. -/
theorem refusalInfo_fields (t : Owner) (cls unit kind : Nat) :
    let v := refusalInfo t cls unit true kind
    bit v 31 = true ∧ bit v 30 = true ∧ bit v 29 = t.world ∧ fld v 28 23 = t.part % 64 ∧ fld v 22 20 = cls % 8 ∧
      fld v 19 12 = unit % 256 ∧ fld v 3 0 = kind % 16 := by
  intro v
  simp only [v, refusalInfo, bit_w32 _ (show 31 < 32 by decide), bit_w32 _ (show 30 < 32 by decide), bit_w32 _ (show 29 < 32 by decide),
    fld_w32 _ (show 28 < 32 by decide) (show 23 ≤ 28 by decide), fld_w32 _ (show 22 < 32 by decide) (show 20 ≤ 22 by decide),
    fld_w32 _ (show 19 < 32 by decide) (show 12 ≤ 19 by decide), fld_w32 _ (show 3 < 32 by decide) (show 0 ≤ 3 by decide)]
  cases t.world <;> simp <;> omega

/-- The registers that a refusal sets, with a fault latched before it or not. -/
def refusalRegs (latched : Bool) (q : Reg) : Bool :=
  q == rg0 .POT_FAULT_CNT || (!latched && (q == rg0 .POT_FAULT_ADDR_LO || q == rg0 .POT_FAULT_ADDR_HI || q == rg0 .POT_FAULT_INFO))

/-- The latch of a refusal: the address and the word of POT_FAULT_INFO. -/
def Core.latchRefusal (c : Core) (a : Nat) (info : W32) : Core :=
  (c.wrPair (rg0 .POT_FAULT_ADDR_LO) (rg0 .POT_FAULT_ADDR_HI) a).set (rg0 .POT_FAULT_INFO) info

theorem regsOnly_latchRefusal (c : Core) (a : Nat) (info : W32) : c.RegsOnly (refusalRegs false) (c.latchRefusal a info) :=
  ((regsOnly_wr c _ (by decide)).trans (regsOnly_wr _ _ (by decide))).trans (regsOnly_set _ _ (by decide))

theorem rd_latchRefusal_info (c : Core) (a : Nat) (info : W32) : (c.latchRefusal a info).rd (rg0 .POT_FAULT_INFO) = info :=
  rd_set_self _ _ rfl

theorem rd_latchRefusal_cnt (c : Core) (a : Nat) (info : W32) :
    (c.latchRefusal a info).rd (rg0 .POT_FAULT_CNT) = c.rd (rg0 .POT_FAULT_CNT) := by
  rw [Core.latchRefusal, rd_set_ne _ _ rfl (by decide), Core.wrPair, rd_wr_ne _ _ (by decide), rd_wr_ne _ _ (by decide)]

theorem rdPair_latchRefusal (c : Core) {a : Nat} (info : W32) (ha : a < 2 ^ 64) :
    (c.latchRefusal a info).rdPair (rg0 .POT_FAULT_ADDR_LO) (rg0 .POT_FAULT_ADDR_HI) = a := by
  rw [Core.rdPair, Core.rdN, Core.rdN, Core.latchRefusal, rd_set_ne _ _ rfl (by decide), rd_set_ne _ _ rfl (by decide)]
  exact rdPair_wrPair c (by decide) ha

section OwnRefuse

variable {c : Core} (t : Owner) (cls unit : Nat) (write : Bool) (a kind : Nat)

/-- With a fault latched a refusal only counts. -/
theorem ownRefuse_latched (h : c.rdB (rg0 .POT_FAULT_INFO) 31 = true) :
    (c.addSat (rg0 .POT_FAULT_CNT) 15 0 1).Quiet (c.ownRefuse t cls unit write a kind) := by
  have hl : (c.addSat (rg0 .POT_FAULT_CNT) 15 0 1).rdB (rg0 .POT_FAULT_INFO) 31 = true := by
    rw [Core.rdB, rd_addSat_ne c 15 0 1 rfl (by decide)]; exact h
  unfold Core.ownRefuse
  simp only [hl, if_true]
  exact quiet_faultOnce _ _ _ _ _ _

/-- With none latched it counts and latches. -/
theorem ownRefuse_unlatched (h : c.rdB (rg0 .POT_FAULT_INFO) 31 = false) :
    ((c.addSat (rg0 .POT_FAULT_CNT) 15 0 1).latchRefusal (a % 2 ^ 64) (refusalInfo t cls unit write kind)).Quiet
      (c.ownRefuse t cls unit write a kind) := by
  have hl : (c.addSat (rg0 .POT_FAULT_CNT) 15 0 1).rdB (rg0 .POT_FAULT_INFO) 31 = false := by
    rw [Core.rdB, rd_addSat_ne c 15 0 1 rfl (by decide)]; exact h
  unfold Core.ownRefuse
  simp only [hl, Bool.false_eq_true, if_false]
  exact quiet_faultOnce _ _ _ _ _ _

theorem regsOnly_ownRefuse (c : Core) :
    c.RegsOnly (refusalRegs (c.rdB (rg0 .POT_FAULT_INFO) 31)) (c.ownRefuse t cls unit write a kind) := by
  have hcnt : ∀ l, c.RegsOnly (refusalRegs l) (c.addSat (rg0 .POT_FAULT_CNT) 15 0 1) := fun l => regsOnly_set c _ (by cases l <;> decide)
  cases h : c.rdB (rg0 .POT_FAULT_INFO) 31 with
  | true => exact (hcnt true).trans (ownRefuse_latched t cls unit write a kind h).regsOnly
  | false => exact ((hcnt false).trans (regsOnly_latchRefusal _ _ _)).trans (ownRefuse_unlatched t cls unit write a kind h).regsOnly

theorem rdF_ownRefuse_cnt (c : Core) :
    (c.ownRefuse t cls unit write a kind).rdF (rg0 .POT_FAULT_CNT) 15 0 = sat 65535 (c.rdF (rg0 .POT_FAULT_CNT) 15 0 + 1) := by
  have hcnt : (c.ownRefuse t cls unit write a kind).rd (rg0 .POT_FAULT_CNT) =
      (c.addSat (rg0 .POT_FAULT_CNT) 15 0 1).rd (rg0 .POT_FAULT_CNT) := by
    cases h : c.rdB (rg0 .POT_FAULT_INFO) 31 with
    | true => exact (ownRefuse_latched t cls unit write a kind h).rd rfl
    | false => exact ((ownRefuse_unlatched t cls unit write a kind h).rd rfl).trans (rd_latchRefusal_cnt _ _ _)
  rw [Core.rdF, hcnt]
  exact rdF_addSat_self c 1 rfl (by decide) (by decide)

theorem rd_ownRefuse_info (h : c.rdB (rg0 .POT_FAULT_INFO) 31 = false) :
    (c.ownRefuse t cls unit write a kind).rd (rg0 .POT_FAULT_INFO) = refusalInfo t cls unit write kind :=
  ((ownRefuse_unlatched t cls unit write a kind h).rd rfl).trans (rd_latchRefusal_info _ _ _)

theorem rdPair_ownRefuse_addr (h : c.rdB (rg0 .POT_FAULT_INFO) 31 = false) (ha : a < 2 ^ 64) :
    (c.ownRefuse t cls unit write a kind).rdPair (rg0 .POT_FAULT_ADDR_LO) (rg0 .POT_FAULT_ADDR_HI) = a := by
  have hq := ownRefuse_unlatched t cls unit write a kind h
  rw [Nat.mod_eq_of_lt ha] at hq
  rw [Core.rdPair, Core.rdN, Core.rdN, hq.rd rfl, hq.rd rfl]
  exact rdPair_latchRefusal _ _ ha

end OwnRefuse

/-- Settles O28: where nothing is reached the write is quiet; without the right it is the refusal, whose record is read off. -/
theorem writesTurnedAwayChangeNothingElse : Obligations.WritesTurnedAwayChangeNothingElse := by
  intro s ag a v hp
  refine ⟨fun h => ⟨_, rfl, onlyRegs_after hp (quiet_cmdWrite_nowhere ag v {} h).regsOnly⟩, ?_⟩
  intro r o ha haw hat hre htag hlog hmay hwr
  have hdoes : Does (.registerWrite ag a v) s (fun c => c.refuse ag true a 1) :=
    does_of_eq rfl (cmdWrite_refused {} haw ha hat hre htag hlog hmay hwr)
  have honly := regsOnly_ownRefuse (s.core.tag ag) (agCls ag).1 (agCls ag).2 true a 1 s.core
  have hrd : ∀ q : Reg, q.fam.background = false → (s.after fun c => c.refuse ag true a 1).core.rd q = (s.core.refuse ag true a 1).rd q :=
    fun q hq => after_rd s _ (by rw [Core.refuse, honly.1]) hq
  refine ⟨_, hdoes, ?_, fun hl => ⟨?_, ?_⟩, onlyRegs_after hp honly⟩
  · rw [Core.rdF, hrd _ rfl]
    exact rdF_ownRefuse_cnt ..
  · rw [Core.rdPair, Core.rdN, Core.rdN, hrd _ rfl, hrd _ rfl]
    exact rdPair_ownRefuse_addr _ _ _ _ _ _ hl (by omega)
  · have hinfo := (hrd (rg0 .POT_FAULT_INFO) rfl).trans (rd_ownRefuse_info _ _ _ _ _ _ hl)
    simp only [Core.rdB, Core.rdF, hinfo]
    exact refusalInfo_fields ..

end Sys2Proof.Machine
end

section
/-! PROOFS. The machine at rest and in motion: the state after reset, a period without a command, what every step keeps, and the map of
the device address space. -/

namespace Sys2Proof.Machine

open Sys2Proof

/-! ### A period without a command -/

section Now

variable (c : Core)

theorem now_upTo (t : Nat) : (c.upTo t).now = max c.now t := by
  unfold Core.upTo
  split
  · next h => exact (Nat.max_eq_right (Nat.le_of_lt h)).symm
  · next h => exact (Nat.max_eq_left (Nat.le_of_not_lt h)).symm

/-- A fold of operations that take no time takes none. -/
theorem now_foldl {α : Type} {f : Core → α → Core} (h : ∀ c a, (f c a).now = c.now) (l : List α) : (l.foldl f c).now = c.now := by
  induction l generalizing c with
  | nil => rfl
  | cons a l ih => exact (ih _).trans (h c a)

@[simp] theorem now_store (a : Nat) (bs : List Byte) : (c.store a bs).now = c.now := by rw [store_eq]

@[simp] theorem now_potDrop (l : Nat) : (c.potDrop l).now = c.now := rfl

@[simp] theorem now_crcDrain (n : Nat) : (c.crcDrain n).now = c.now := by
  unfold Core.crcDrain
  dsimp only
  split
  · rfl
  · rw [now_setB, now_setCrc]

@[simp] theorem now_potStep : c.potStep.now = c.now := by
  unfold Core.potStep
  split
  · split
    · rfl
    · exact now_store c _ _
  · rfl

@[simp] theorem now_txDrain (p : Nat) : (c.txDrain p).now = c.now := by
  unfold Core.txDrain
  dsimp only
  split
  · rfl
  · split
    · rfl
    · exact now_setRgl c _

@[simp] theorem now_rglSend (p : Nat) (fs : List RFrame) : (c.rglSend p fs).now = c.now := by
  unfold Core.rglSend Core.rglSendBy
  rw [now_txDrain, now_setRgl, now_txDrain]

@[simp] theorem now_timeFrames : c.timeFrames.now = c.now := by
  unfold Core.timeFrames
  split
  · rfl
  · refine (now_foldl _ (fun c p => ?_) _).trans (now_setRgl c _)
    dsimp only
    split
    · split
      · rfl
      · rw [now_rglSend, now_setRgl]
    · rfl

end Now

/-- The work that goes on in the background of a period. -/
def Core.background (c : Core) : Core :=
  if !c.awake then c else ((((c.crcs.foldl (fun (c : Core) e => c.crcDrain e.1) c).potStep).timeFrames).txDrain 0).txDrain 1

theorem step_idle {s : State} (h : s.pending = []) : step s = run s (fun c => (c.upTo (c.now + 625)).background) := by
  rw [step, h]
  rfl

theorem now_background (c : Core) : c.background.now = c.now := by
  unfold Core.background
  split
  · rfl
  · rw [now_txDrain, now_txDrain, now_timeFrames, now_potStep]
    exact now_foldl c (fun c e => now_crcDrain c e.1) c.crcs

/-- Settles O2: the period brings the time up to the next stamp, and the background work that goes on in it takes none. -/
theorem idleStepIsOneStampCount : Obligations.IdleStepIsOneStampCount := by
  intro s hs
  refine ⟨_, step_idle hs, (after_pending s _).trans hs, ?_⟩
  rw [after_now, now_background, now_upTo]
  omega

/-! ### What every step keeps -/

/-- A step is the run of some effect, on the queue without its front command. -/
theorem step_eq_run (s : State) : ∃ f, step s = run { s with pending := s.pending.tail } f := by
  obtain ⟨c, _ | ⟨i, rest⟩⟩ := s
  · exact ⟨_, rfl⟩
  · exact exec_eq_run i { core := c, pending := rest }

/-- Settles O3: memory, the bytes on their way and the queue are empty lists. -/
theorem resetHasCanonicalMemory : Obligations.ResetHasCanonicalMemory := ⟨⟨rfl, rfl⟩, rfl⟩

/-- Settles O4: a step is a run, and a run lays its bytes into memory one by one, each in its place. -/
theorem stepKeepsCanonicalMemory : Obligations.StepKeepsCanonicalMemory := by
  intro s t hs ht
  obtain ⟨f, hf⟩ := step_eq_run s
  obtain rfl := run_next (hf ▸ ht)
  exact after_inv (s := { s with pending := s.pending.tail }) hs f

/-! ### The address map (R14, R15) -/

theorem dram_counts (c : Core) : c.counts.dram = 16 ∨ c.counts.dram = 12 ∨ c.counts.dram = 8 := by
  unfold Core.counts
  cases c.var.part <;> decide

/-- The last address of the DRAM window, by the number of channels. -/
theorem lt_dramEnd_iff (c : Core) (a : Nat) : a < dramEnd c.counts ↔
    a ≤ if c.counts.dram = 16 then 0x1DFFFFFFFF else if c.counts.dram = 12 then 0x1A7FFFFFFF else 0x16FFFFFFFF := by
  unfold dramEnd
  rcases dram_counts c with h | h | h <;> rw [h] <;> exact Nat.lt_succ_iff

/-- Settles O39: the map's bounds are the last addresses that R14 and R15 give, and host memory lies above the 48 bits. -/
theorem everyAddressHasItsPlace : Obligations.EveryAddressHasItsPlace := by
  refine ⟨fun c a ha => ?_, dram_counts⟩
  have hhost : ¬ hostBase ≤ a := by unfold hostBase; omega
  unfold Core.place
  rw [if_neg hhost]
  exact ite_congr (propext (by omega)) (fun _ => rfl) fun _ => ite_congr (propext (by omega)) (fun _ => rfl) fun _ =>
    ite_congr (propext (by omega)) (fun _ => rfl) fun _ => ite_congr (propext (by omega)) (fun _ => rfl) fun _ =>
    ite_congr (propext (and_congr_right fun _ => lt_dramEnd_iff c a)) (fun _ => rfl) fun _ => rfl

end Sys2Proof.Machine
end

section
/-! PROOFS. The register map and back (R21, R22). A family of registers is a doubly strided progression of addresses; modulo a suitable
number its addresses fill one interval of residues, and the intervals of two families of one block lie apart. -/

namespace Sys2Proof.Machine

open Sys2Proof

/-! ### The families, one after the other -/

theorem ctorIdx_lt (f : Fam) : f.ctorIdx < 402 := by cases f <;> decide

/-- What holds of the families by number holds of each: how a check of the register tables reaches every row. -/
theorem forall_fam {P : Fam → Prop} (h : ∀ n < 402, P (Fam.ofNat n)) (f : Fam) : P f :=
  Fam.ofNat_ctorIdx f ▸ h _ (ctorIdx_lt f)

/-! ### The addresses of one family -/

/-- The address of the register with number `i` and, inside it, index `j`. -/
def RegInfo.slot (t : RegInfo) (i j : Nat) : Nat := t.base + i * t.s1 + j * t.s2

/-- What the decoder of a family asks of its row: a stride of zero stands with a count of one, the inner extent stays below the outer
stride, and the addresses are words of one 64 KiB block of control space. -/
abbrev RegInfo.Fits (t : RegInfo) : Prop :=
  (t.s1 = 0 → t.n1 = 1) ∧ (t.s2 = 0 → t.n2 = 1) ∧ (t.s1 ≠ 0 → (t.n2 - 1) * t.s2 < t.s1) ∧ (t.flat = true → t.n2 = 32) ∧
  (t.base % 4 = 0 ∧ t.s1 % 4 = 0 ∧ t.s2 % 4 = 0) ∧ (0x20000000 ≤ t.base ∧ t.base < 0x22000000) ∧
  t.base % 65536 + (t.n1 - 1) * t.s1 + (t.n2 - 1) * t.s2 < 65536

/-- Every row of the register tables does. -/
theorem info_fits : ∀ f : Fam, f.info.Fits := forall_fam (by decide +kernel)

/-- The register of a family with number `i` and index `j`: the DMA channels are numbered through (R22). -/
def Fam.regOf (f : Fam) (i j : Nat) : Reg := if f.info.flat then { fam := f, i := 32 * i + j } else { fam := f, i := i, j := j }

/-- A register in the range of its family has a number and an index, and stands at their address. -/
theorem exists_regOf (r : Reg)
    (hr : if r.fam.info.flat then r.i < r.fam.info.n1 * r.fam.info.n2 ∧ r.j = 0 else r.i < r.fam.info.n1 ∧ r.j < r.fam.info.n2) :
    ∃ i j, i < r.fam.info.n1 ∧ j < r.fam.info.n2 ∧ r.fam.regOf i j = r ∧ r.addr = r.fam.info.slot i j := by
  obtain ⟨f, a, b⟩ := r
  obtain ⟨-, -, -, hflat, -⟩ := info_fits f
  unfold Fam.regOf Reg.addr RegInfo.slot
  cases hf : f.info.flat
  · simp only [hf, Bool.false_eq_true, if_false] at hr ⊢
    exact ⟨a, b, hr.1, hr.2, rfl, rfl⟩
  · have h32 := hflat hf
    simp only [hf, if_true, h32] at hr ⊢
    obtain ⟨ha, rfl⟩ := hr
    exact ⟨a / 32, a % 32, by omega, by omega, by rw [Nat.div_add_mod], rfl⟩

/-- A stride of zero needs no case of its own in the decoders: its quotient is 0 and its remainder the offset. -/
theorem stride_div (s o : Nat) : (if s = 0 then 0 else o / s) = o / s := by
  split
  · next h => rw [h, Nat.div_zero]
  · rfl

theorem stride_mod (s o : Nat) : (if s = 0 then o else o % s) = o % s := by
  split
  · next h => rw [h, Nat.mod_zero]
  · rfl

/-- The decoder's arithmetic: quotient and remainder by a stride undo the multiplication by it. -/
theorem stride_mul_add_divMod {s n i o : Nat} (hi : i < n) (hz : s = 0 → n = 1) (ho : s ≠ 0 → o < s) :
    (i * s + o) / s = i ∧ (i * s + o) % s = o := by
  by_cases hs : s = 0
  · have := hz hs
    subst hs
    simp only [Nat.div_zero, Nat.mod_zero]
    omega
  · rw [Nat.mul_comm i, Nat.mul_add_div (Nat.pos_of_ne_zero hs), Nat.mul_add_mod, Nat.div_eq_of_lt (ho hs), Nat.mod_eq_of_lt (ho hs)]
    exact ⟨rfl, rfl⟩

section Families

variable {f g : Fam} {i j k l : Nat}

/-- The decoder of a family, in quotients and remainders alone. -/
theorem fam_regAt_eq (f : Fam) (a : Nat) : f.regAt a =
    if a < f.info.base then none
    else if (a - f.info.base) / f.info.s1 < f.info.n1 ∧ (a - f.info.base) % f.info.s1 / f.info.s2 < f.info.n2 ∧
        (a - f.info.base) % f.info.s1 % f.info.s2 = 0 then
      some (f.regOf ((a - f.info.base) / f.info.s1) ((a - f.info.base) % f.info.s1 / f.info.s2))
    else none := by
  unfold Fam.regAt Fam.regOf
  simp only [stride_div, stride_mod]

/-- The decoder of a family gives back the register whose address it is given. -/
theorem fam_regAt_slot (hi : i < f.info.n1) (hj : j < f.info.n2) : f.regAt (f.info.slot i j) = some (f.regOf i j) := by
  obtain ⟨hz1, hz2, hlt, -⟩ := info_fits f
  have hin : f.info.s1 ≠ 0 → j * f.info.s2 < f.info.s1 := fun hs =>
    Nat.lt_of_le_of_lt (Nat.mul_le_mul_right _ (Nat.le_sub_one_of_lt hj)) (hlt hs)
  obtain ⟨hdiv, hmod⟩ := stride_mul_add_divMod hi hz1 hin
  obtain ⟨hdiv', hmod'⟩ := stride_mul_add_divMod (o := 0) hj hz2 Nat.pos_of_ne_zero
  rw [Nat.add_zero] at hdiv' hmod'
  have hge : ¬ f.info.slot i j < f.info.base := by unfold RegInfo.slot; omega
  have hoff : f.info.slot i j - f.info.base = i * f.info.s1 + j * f.info.s2 := by unfold RegInfo.slot; omega
  rw [fam_regAt_eq, if_neg hge, hoff, hdiv, hmod, hdiv', hmod', if_pos ⟨hi, hj, rfl⟩]

/-- An address that the decoder of a family takes is that of one of its registers. -/
theorem slot_of_fam_regAt {a : Nat} {r : Reg} (h : f.regAt a = some r) :
    ∃ i j, i < f.info.n1 ∧ j < f.info.n2 ∧ a = f.info.slot i j := by
  rw [fam_regAt_eq, Option.ite_none_left_eq_some, Option.ite_none_right_eq_some] at h
  obtain ⟨hge, ⟨hi, hj, hleft⟩, -⟩ := h
  refine ⟨_, _, hi, hj, ?_⟩
  have h1 := Nat.div_add_mod' (a - f.info.base) f.info.s1
  have h2 := Nat.div_add_mod' ((a - f.info.base) % f.info.s1) f.info.s2
  unfold RegInfo.slot
  omega

/-- The addresses of a family are words of control space, in the 64 KiB block of its first. -/
theorem slot_in_block (hi : i < f.info.n1) (hj : j < f.info.n2) :
    f.info.slot i j / 65536 = f.info.base / 65536 ∧ 0x20000000 ≤ f.info.slot i j ∧ f.info.slot i j < 0x22000000 ∧ f.info.slot i j % 4 = 0 := by
  obtain ⟨-, -, -, -, ⟨hb, hs1, hs2⟩, hbase, htop⟩ := info_fits f
  have h1 : i * f.info.s1 ≤ (f.info.n1 - 1) * f.info.s1 := Nat.mul_le_mul_right _ (Nat.le_sub_one_of_lt hi)
  have h2 : j * f.info.s2 ≤ (f.info.n2 - 1) * f.info.s2 := Nat.mul_le_mul_right _ (Nat.le_sub_one_of_lt hj)
  have hm1 : i * f.info.s1 % 4 = 0 := by simp [Nat.mul_mod, hs1]
  have hm2 : j * f.info.s2 % 4 = 0 := by simp [Nat.mul_mod, hs2]
  unfold RegInfo.slot
  omega

/-! ### Two families of one block -/

/-- How far the addresses of a family reach modulo `m`: a stride that `m` divides adds nothing. -/
def RegInfo.spread (t : RegInfo) (m : Nat) : Nat :=
  (if m ∣ t.s1 then 0 else (t.n1 - 1) * t.s1) + (if m ∣ t.s2 then 0 else (t.n2 - 1) * t.s2)

/-- Modulo `m` the addresses of one family all lie below those of the other. -/
abbrev RegInfo.ApartMod (t u : RegInfo) (m : Nat) : Prop :=
  t.base % m + t.spread m < m ∧ u.base % m + u.spread m < m ∧
    (t.base % m + t.spread m < u.base % m ∨ u.base % m + u.spread m < t.base % m)

/-- The moduli that tell two families of a block apart: the block itself, or a stride of one of them. -/
def RegInfo.apart (t u : RegInfo) : Bool := [65536, t.s1, t.s2, u.s1, u.s2].any (fun m => t.ApartMod u m)

/-- Any two families of a block have such a modulus. -/
theorem block_apart : ∀ f : Fam, (blockFams (f.info.base / 65536)).all (fun g => g == f || f.info.apart g.info) :=
  forall_fam (by decide +kernel)

theorem mem_blockFams : ∀ f : Fam, f ∈ blockFams (f.info.base / 65536) := forall_fam (by decide +kernel)

/-- A multiple of a stride, up to multiples of `m`: nothing, or within the stride's full reach. -/
theorem exists_stride_add_mul (m s : Nat) {n i : Nat} (hi : i < n) :
    ∃ x c, x ≤ (if m ∣ s then 0 else (n - 1) * s) ∧ i * s = x + m * c := by
  by_cases h : m ∣ s
  · obtain ⟨q, rfl⟩ := h
    exact ⟨0, i * q, Nat.zero_le _, by rw [Nat.zero_add, Nat.mul_left_comm]⟩
  · rw [if_neg h]
    exact ⟨i * s, 0, Nat.mul_le_mul_right _ (Nat.le_sub_one_of_lt hi), rfl⟩

/-- Modulo `m` the addresses of a family fill one interval of residues at most. -/
theorem slot_mod {t : RegInfo} {m : Nat} (h : t.base % m + t.spread m < m) (hi : i < t.n1) (hj : j < t.n2) :
    t.base % m ≤ t.slot i j % m ∧ t.slot i j % m ≤ t.base % m + t.spread m := by
  obtain ⟨x, c, hx, ex⟩ := exists_stride_add_mul m t.s1 hi
  obtain ⟨y, d, hy, ey⟩ := exists_stride_add_mul m t.s2 hj
  have hxy : x + y ≤ t.spread m := Nat.add_le_add hx hy
  have hslot : t.slot i j = t.base % m + x + y + m * (t.base / m + c + d) := by
    have hb := Nat.mod_add_div t.base m
    rw [RegInfo.slot, ex, ey, Nat.mul_add, Nat.mul_add]
    omega
  have hmod : t.slot i j % m = t.base % m + x + y := by
    rw [hslot, Nat.add_mul_mod_self_left]
    exact Nat.mod_eq_of_lt (by omega)
  omega

theorem slot_ne {t u : RegInfo} (h : t.apart u = true) (hi : i < t.n1) (hj : j < t.n2) (hk : k < u.n1) (hl : l < u.n2) :
    t.slot i j ≠ u.slot k l := by
  obtain ⟨m, -, hm⟩ := List.any_eq_true.1 h
  obtain ⟨ht, hu, hlt⟩ := of_decide_eq_true hm
  have h1 := slot_mod ht hi hj
  have h2 := slot_mod hu hk hl
  intro e
  rw [e] at h1
  omega

/-- No other family of the block takes an address of this one. -/
theorem fam_regAt_slot_other (hg : g ∈ blockFams (f.info.base / 65536)) (hne : g ≠ f) (hi : i < f.info.n1) (hj : j < f.info.n2) :
    g.regAt (f.info.slot i j) = none := by
  have hap : f.info.apart g.info = true := by simpa [hne] using List.all_eq_true.1 (block_apart f) g hg
  rw [Option.eq_none_iff_forall_not_mem]
  intro r hr
  obtain ⟨k, l, hk, hl, e⟩ := slot_of_fam_regAt hr
  exact slot_ne hap hi hj hk hl e

/-! ### The map and back -/

/-- A search of a list finds what one member gives when no other gives anything. -/
theorem findSome?_of_unique {α β : Type} {p : α → Option β} {l : List α} {x : α} {y : β} (hx : x ∈ l) (hp : p x = some y)
    (ho : ∀ z ∈ l, z ≠ x → p z = none) : l.findSome? p = some y := by
  induction l with
  | nil => cases hx
  | cons z l ih =>
    rw [List.findSome?_cons]
    by_cases e : z = x
    · rw [e, hp]
    · rw [ho z List.mem_cons_self e]
      exact ih ((List.mem_cons.1 hx).resolve_left (Ne.symm e)) (fun w hw => ho w (List.mem_cons_of_mem _ hw))

theorem regAt_slot (hi : i < f.info.n1) (hj : j < f.info.n2) : regAt (f.info.slot i j) = some (f.regOf i j) := by
  unfold regAt
  rw [(slot_in_block hi hj).1]
  exact findSome?_of_unique (mem_blockFams f) (fam_regAt_slot hi hj) (fun g hg hne => fam_regAt_slot_other hg hne hi hj)

end Families

/-- Settles O26: the decoder of the register's own family gives it back, and no other family of the block takes its address. -/
theorem everyRegisterHasItsOwnAddress : Obligations.EveryRegisterHasItsOwnAddress := by
  intro r hr
  obtain ⟨i, j, hi, hj, hreg, haddr⟩ := exists_regOf r hr
  rw [haddr]
  exact ⟨(regAt_slot hi hj).trans (congrArg some hreg), (slot_in_block hi hj).2⟩

end Sys2Proof.Machine
end

section
/-! PROOFS. The ordering instructions, the tick window and a program's accesses to control space (R24, R35, R62, R64, R69 to R71). -/

namespace Sys2Proof.Machine

open Sys2Proof

/-! ### A command that is one instruction of a program -/

section Instruction

variable {i : Instr} {s : State} {n p k : Nat} {E : Core → Core}

theorem Gives.mono {P Q : State → Prop} (h : Gives i s P) (hPQ : ∀ t, P t → Q t) : Gives i s Q := by
  obtain ⟨t, hi, ht⟩ := h
  exact ⟨t, hi, hPQ t ht⟩

/-- An executed instruction is its effect, at its cost. -/
theorem does_of_executes {F : Core → Core} (hi : exec i s = run s (fun c => c.instr n p k E)) (hx : s.core.Executes n p)
    (hF : (E (s.core.charge n k)).stepDone n = F s.core) : Does i s F :=
  does_of_eq hi ((instr_executes hx.1 hx.2).trans hF)

/-- An effect on one sequencer alone, from a state between commands, is all that happens. -/
theorem onlySeq_after (h : Core.Local n s.core (E s.core)) (hp : s.core.posted = []) : OnlySeq n s (s.after E) := by
  obtain ⟨hE, hother⟩ := h
  have hpo : (E s.core).posted = [] := by rw [hE]; exact hp
  refine ⟨after_pending s E, after_local ⟨hE, hother⟩ hp, fun r hr => after_local_rd ⟨hE, hother⟩ hr, fun a => ?_, fun m hm => ?_⟩
  · rw [after_mem_same s E hpo]
  · rw [after_seq, after_st]
    exact hother m hm

/-- An executed instruction that leaves the block as `d`, moved from the charged one in its own sequencer alone: single-stepped, the
sequencer is halted again (R127). -/
theorem gives_of_executes {d : Core} (hi : exec i s = run s (fun c => c.instr n p k E)) (hx : s.core.Executes n p)
    (hp : s.core.posted = []) (hE : E (s.core.charge n k) = d) (hd : Core.Local n (s.core.charge n k) d)
    (hdbg : (d.seq n).dbg = (s.core.seq n).dbg) :
    Gives i s (fun u => u.core.seq n = { d.seq n with dbg := (d.seq n).step, step := false } ∧ u.core.st n = d.st n ∧ OnlySeq n s u) := by
  have hdoes : Does i s (fun c => (E (c.charge n k)).stepDone n) := does_of_executes hi hx rfl
  have hloc : Core.Local n s.core ((E (s.core.charge n k)).stepDone n) :=
    (local_charge s.core n k).trans ((hE ▸ hd).trans (local_stepDone _ n))
  refine ⟨_, hdoes, ?_, ?_, onlySeq_after hloc hp⟩
  · rw [after_seq, seq_stepDone, hE, hdbg, canRun_dbg hx.1, Bool.false_or]
  · rw [after_st, st_stepDone, hE]

end Instruction

/-! ### What the instructions do -/

section Ordering

variable {s : State} {n p : Nat}

/-- FENCE (R71): the next word. -/
theorem gives_fence (hx : s.core.Executes n p) (hp : s.core.posted = []) : Gives (.fence n p) s (fun t =>
    NextWord n 4 s t ∧ (t.core.seq n).sets = (s.core.seq n).sets ∧ OnlySeq n s t) := by
  refine (gives_of_executes rfl hx hp rfl (local_advance _ n) (by rw [seq_advance]; rfl)).mono ?_
  rintro t ⟨hq, ht, honly⟩
  rw [seq_advance, charge_seq] at hq
  rw [st_advance, charge_st] at ht
  refine ⟨⟨?_, ht⟩, ?_, honly⟩
  · rw [hq, seq_advance]
    rfl
  · rw [hq, past_sets_eq]

/-- DRAIN (R71): the wait, at the same word. -/
theorem gives_drain (hx : s.core.Executes n p) (hp : s.core.posted = []) : Gives (.drain n p) s (fun t =>
    t.core.seq n = { s.core.seq n with dbg := (s.core.seq n).step, step := false } ∧
    t.core.st n = { s.core.st n with tickCyc := (s.core.st n).tickCyc + 64, drain := true } ∧ OnlySeq n s t) := by
  refine (gives_of_executes rfl hx hp rfl (local_setSt _ n _) rfl).mono ?_
  rintro t ⟨hq, ht, honly⟩
  rw [st_setSt_self, charge_st] at ht
  exact ⟨hq, ht, honly⟩

/-- DRAIN_COMPLETE (R71, R162): the wait is over, the next word. -/
theorem gives_drainComplete (hd : (s.core.st n).drain = true) (hp : s.core.posted = []) : Gives (.drainComplete n) s (fun t =>
    t.core.seq n = (s.core.advance n).seq n ∧ t.core.st n = { s.core.st n with drain := false } ∧ OnlySeq n s t) := by
  have hdoes : Does (.drainComplete n) s (fun c => (c.setSt n { c.st n with drain := false }).advance n) := does_of_eq rfl (if_pos hd)
  refine ⟨_, hdoes, ?_, ?_, onlySeq_after ((local_setSt _ n _).trans (local_advance _ n)) hp⟩
  · rw [after_seq, seq_advance, seq_advance, seq_setSt]
  · rw [after_st, st_advance, st_setSt_self]

/-- The special registers of a level with register `b` set to `v`: EVPC and EVPS take a value, no other (R56, R62; log entry 8). -/
def LevelCtx.mts (x : LevelCtx) (b v : Nat) : LevelCtx :=
  if b = 6 then { x with evpc := v } else if b = 7 then { x with evps := v % 1024 } else x

/-- MTS in a handler (R56, R62). -/
theorem gives_mts (b a : Nat) (hx : s.core.Executes n p) (hp : s.core.posted = []) (hl : (s.core.seq n).level ≠ 0) :
    Gives (.mts n p b a) s (fun t => kget {} (t.core.seq n).ctx (s.core.seq n).level =
        (kget {} (s.core.seq n).ctx (s.core.seq n).level).mts b (s.core.g n a).toNat ∧
      (t.core.seq n).sets = (s.core.seq n).sets ∧ OnlySeq n s t) := by
  refine (gives_of_executes rfl hx hp (congrArg (Core.advance · n) (if_neg hl))
    ((local_setSeq _ n _).trans (local_advance _ n)) (by rw [seq_advance, seq_setSeq_self]; rfl)).mono ?_
  rintro t ⟨hq, -, honly⟩
  rw [seq_advance, seq_setSeq_self] at hq
  refine ⟨?_, ?_, honly⟩
  · rw [hq]
    exact kget_kset_self _ _ _ _
  · rw [hq]
    rfl

/-- An aligned word of control space (R24). -/
abbrev ControlWord (a : Nat) : Prop := 0x20000000 ≤ a ∧ a < 0x22000000 ∧ a % 4 = 0

/-- A write put at the end of a sequencer's tick window, and counted (R35). -/
def Core.bufferTwr (c : Core) (n : Nat) (w : TickWrite) : Core :=
  (c.setSeq n { c.seq n with tw := (c.seq n).tw ++ [w] }).setSt n { c.st n with twCount := (c.st n).twCount + 1 }

theorem local_bufferTwr (c : Core) (n : Nat) (w : TickWrite) : Core.Local n c (c.bufferTwr n w) :=
  (local_setSeq c n _).trans (local_setSt _ n _)

theorem seq_bufferTwr (c : Core) (n : Nat) (w : TickWrite) :
    (c.bufferTwr n w).seq n = { c.seq n with tw := (c.seq n).tw ++ [w] } := seq_setSeq_self c n _

/-- TWR (R35): its word and value, at the end of the tick's window. -/
theorem gives_twr (d a : Nat) (off : BitVec 13) (hx : s.core.Executes n p) (hp : s.core.posted = [])
    (hat : ControlWord (s.core.effAddr n a off)) :
    Gives (.twr n p d a off) s (fun t =>
      (t.core.seq n).tw = (s.core.seq n).tw ++ [{ addr := s.core.effAddr n a off, value := (s.core.g n d).setWidth 32 }] ∧
      (t.core.seq n).sets = (s.core.seq n).sets ∧ OnlySeq n s t) := by
  have hloc (w : TickWrite) := (local_bufferTwr (s.core.charge n 1) n w).trans (local_advance _ n)
  have hseq (w : TickWrite) : (((s.core.charge n 1).bufferTwr n w).advance n).seq n =
      ({ s.core.seq n with tw := (s.core.seq n).tw ++ [w] } : Seq).past := by rw [seq_advance, seq_bufferTwr, charge_seq]
  refine (gives_of_executes rfl hx hp ?_ (hloc { addr := s.core.effAddr n a off, value := (s.core.g n d).setWidth 32 })
    (by rw [hseq]; rfl)).mono ?_
  · exact if_pos hat
  · rintro t ⟨hq, -, honly⟩
    rw [hseq] at hq
    exact ⟨by rw [hq]; rfl, by rw [hq]; rfl, honly⟩

end Ordering

/-- Settles O19: each instruction is its effect at its cost, and outside control space the effect is exception 2. -/
theorem orderingWindowAndControlInstructions : Obligations.OrderingWindowAndControlInstructions := by
  refine ⟨fun s n p hp => ⟨fun hx => ⟨gives_fence hx hp, gives_drain hx hp, fun a hl => ⟨?_, ?_⟩, fun d a off => ⟨?_, fun hat => ?_⟩⟩,
    fun hd => gives_drainComplete hd hp⟩, fun s n p d a off hx => ⟨fun hat => ⟨?_, ?_⟩, fun hat => ⟨?_, ?_⟩⟩⟩
  · exact (gives_mts 6 a hx hp hl).mono fun t ⟨hctx, hrest⟩ => ⟨by rw [hctx]; rfl, hrest⟩
  · exact (gives_mts 7 a hx hp hl).mono fun t ⟨hctx, hrest⟩ => ⟨by rw [hctx]; rfl, hrest⟩
  · exact gives_twr d a off hx hp
  · exact does_of_executes rfl hx (congrArg (Core.stepDone · n) (if_neg hat))
  · exact does_of_executes rfl hx (congrArg (Core.stepDone · n) (if_pos hat))
  · exact does_of_executes rfl hx (congrArg (Core.stepDone · n) (if_pos hat))
  · exact does_of_executes rfl hx (congrArg (Core.stepDone · n) (if_neg hat))
  · exact does_of_executes rfl hx (congrArg (Core.stepDone · n) (if_neg hat))

end Sys2Proof.Machine
end

section
/-! PROOFS. The Event Router's source bits: what the journal, the quarantines and the messages to the host leave of them; the
writes of EVR_DONE, EVR_REARM and EVR_PEND; the pins' filter and latch (R85 to R103). -/

namespace Sys2Proof.Machine

open Sys2Proof

/-! ### Source bits -/

section SourceBits

variable (c : Core) {f : Fam} {s u : Nat}

theorem srcBit_congr {c d : Core} (h : d.rd (rg f (u / 32)) = c.rd (rg f (u / 32))) : d.srcBit f u = c.srcBit f u :=
  congrArg (bit · (u % 32)) h

@[simp] theorem srcBit_setSrcBit_self (b : Bool) : (c.setSrcBit f s b).srcBit f s = b := by
  rw [Core.srcBit, Core.setSrcBit, Core.rdB, rd_wr_self]
  exact bit_setBit_self _ b (Nat.mod_lt _ (by decide))

theorem srcBit_setSrcBit_ne (b : Bool) (h : u ≠ s) : (c.setSrcBit f s b).srcBit f u = c.srcBit f u := by
  by_cases hw : u / 32 = s / 32
  · have hj : u % 32 ≠ s % 32 := by omega
    rw [Core.srcBit, Core.srcBit, Core.setSrcBit, Core.rdB, hw, rd_wr_self]
    exact bit_setBit_ne _ b (Nat.mod_lt _ (by decide)) hj
  · exact srcBit_congr (rd_wr_ne _ _ fun e => hw (congrArg Reg.i e))

theorem srcBit_wr_fam {r : Reg} (v : W32) (h : f ≠ r.fam) : (c.wr r v).srcBit f u = c.srcBit f u :=
  srcBit_congr (rd_wr_fam c v h)

theorem srcBit_stamp (v : W32) : (c.wr (rg .EVR_SRC_TIME s) v).srcBit .EVR_PEND u = c.srcBit .EVR_PEND u :=
  srcBit_wr_fam c (r := rg .EVR_SRC_TIME s) v nofun

@[simp] theorem srcBit_setPend_self : (c.setPend s).srcBit .EVR_PEND s = true := by
  unfold Core.setPend
  split
  · assumption
  · rw [srcBit_stamp, srcBit_setSrcBit_self]

theorem srcBit_setPend_ne (h : u ≠ s) : (c.setPend s).srcBit .EVR_PEND u = c.srcBit .EVR_PEND u := by
  unfold Core.setPend
  split
  · rfl
  · rw [srcBit_stamp, srcBit_setSrcBit_ne _ _ h]

theorem srcBit_relevel_ne (h : u ≠ s) : (c.relevel s).srcBit .EVR_PEND u = c.srcBit .EVR_PEND u := by
  unfold Core.relevel
  split
  · rfl
  · dsimp only
    split
    · exact srcBit_setPend_ne _ h
    · split
      · exact srcBit_setSrcBit_ne _ _ h
      · rfl

theorem srcBit_foldl_relevel {l : List Nat} (h : u ∉ l) : (l.foldl Core.relevel c).srcBit .EVR_PEND u = c.srcBit .EVR_PEND u := by
  induction l generalizing c with
  | nil => rfl
  | cons s l ih =>
    rw [List.mem_cons, not_or] at h
    exact (ih _ h.2).trans (srcBit_relevel_ne c h.1)

/-- An event of a source under a live contract makes it pending (R85, R86). -/
theorem srcBit_raise_self (h : c.srcLive s = true) : (c.raise s).srcBit .EVR_PEND s = true := by
  rw [Core.raise, if_pos h, srcBit_setPend_self]

end SourceBits

/-! ### What leaves the sources alone -/

/-- The registers of the sources' pending bits, activity, quarantine and counts. -/
def Fam.ofSources : Fam → Bool
  | .EVR_PEND | .EVR_ACTIVE | .EVR_QUAR | .EVR_SRC_STAT => true
  | _ => false

/-- `d` has the variant, sequencers, owner records and source registers of `c`, and its pending bits but those of L sources (R84). -/
structure Core.SparesSources (c d : Core) : Prop where
  var : d.var = c.var
  seqs : d.seqs = c.seqs
  owners : d.owners = c.owners
  rd : ∀ q : Reg, q.fam.ofSources = true → q.fam ≠ .EVR_PEND → d.rd q = c.rd q
  pend : ∀ u, srcKind u ≠ 0 → d.srcBit .EVR_PEND u = c.srcBit .EVR_PEND u

theorem Core.SparesSources.refl (c : Core) : c.SparesSources c := ⟨rfl, rfl, rfl, fun _ _ _ => rfl, fun _ _ => rfl⟩

theorem Core.SparesSources.trans {a b c : Core} (h : a.SparesSources b) (g : b.SparesSources c) : a.SparesSources c where
  var := g.var.trans h.var
  seqs := g.seqs.trans h.seqs
  owners := g.owners.trans h.owners
  rd q hq hp := (g.rd q hq hp).trans (h.rd q hq hp)
  pend u hu := (g.pend u hu).trans (h.pend u hu)

theorem Core.SparesSources.ite {c d e : Core} {p : Prop} [Decidable p] (hd : c.SparesSources d) (he : c.SparesSources e) :
    c.SparesSources (if p then d else e) := by
  split
  · exact hd
  · exact he

/-- A change of other fields. -/
theorem sparesSources_of_regs {c d : Core} (hv : d.var = c.var) (hs : d.seqs = c.seqs) (ho : d.owners = c.owners) (hr : d.regs = c.regs) :
    c.SparesSources d := ⟨hv, hs, ho, fun q _ _ => rd_congr hv hr q, fun _ _ => srcBit_congr (rd_congr hv hr _)⟩

theorem ne_of_ofSources {f g : Fam} (hf : f.ofSources = true) (hg : g.ofSources = false) : f ≠ g :=
  fun e => by rw [e, hg] at hf; cases hf

/-- A write of another register. -/
theorem sparesSources_wr (c : Core) {r : Reg} (v : W32) (hr : r.fam.ofSources = false) : c.SparesSources (c.wr r v) :=
  ⟨rfl, rfl, rfl, fun _ hq _ => rd_wr_fam c v (ne_of_ofSources hq hr), fun _ _ => srcBit_wr_fam c v (ne_of_ofSources rfl hr)⟩

/-- The L sources that follow a register sampled. -/
theorem sparesSources_foldl_relevel (c : Core) {l : List Nat} (hl : ∀ u ∈ l, srcKind u = 0) : c.SparesSources (l.foldl Core.relevel c) where
  var := (Core.Quiet.foldl _ quiet_relevel l c).var
  seqs := (Core.Quiet.foldl _ quiet_relevel l c).seqs
  owners := (Core.Quiet.foldl _ quiet_relevel l c).owners
  rd _ hq hp := rd_foldl_relevel l c hp (ne_of_ofSources hq rfl)
  pend u hu := srcBit_foldl_relevel c fun h => hu (hl u h)

/-- A register set that none but L sources follow. -/
theorem sparesSources_set (c : Core) {r : Reg} (v : W32) (hr : r.fam.ofSources = false) (hl : ∀ u ∈ srcsOf r, srcKind u = 0) :
    c.SparesSources (c.set r v) :=
  (sparesSources_wr c v hr).trans (sparesSources_foldl_relevel _ hl)

theorem sparesSources_addSat (c : Core) {r : Reg} (hi lo n : Nat) (hr : r.fam.ofSources = false) (hl : ∀ u ∈ srcsOf r, srcKind u = 0) :
    c.SparesSources (c.addSat r hi lo n) := sparesSources_set c _ hr hl

theorem sparesSources_jnl (c : Core) (j : Journal) : c.SparesSources { c with jnl := j } := sparesSources_of_regs rfl rfl rfl rfl

theorem sparesSources_hostIf (c : Core) (h : HostIf) : c.SparesSources { c with hostIf := h } := sparesSources_of_regs rfl rfl rfl rfl

/-- The journal's events are L sources (R423). -/
theorem sparesSources_setB_jnlEvt (c : Core) (i : Nat) (b : Bool) : c.SparesSources (c.setB (rg0 .JNL_EVT) i b) :=
  sparesSources_set c _ rfl (by decide)

/-- So are those of the host interface (R376). -/
theorem sparesSources_hostEvt (c : Core) (i : Nat) : c.SparesSources (c.hostEvt i) :=
  sparesSources_set c _ rfl (by decide)

theorem sparesSources_jpush (c : Core) (e : JEntry) : c.SparesSources (c.jpush e) := by
  unfold Core.jpush
  extract_lets s x e1 j c1 c2
  have h1 : c.SparesSources c1 := (sparesSources_jnl c j).trans (sparesSources_wr _ _ rfl)
  have h2 : c.SparesSources c2 := .ite (h1.trans (sparesSources_setB_jnlEvt _ _ _)) h1
  exact .ite (h2.trans ((sparesSources_jnl c2 _).trans (sparesSources_setB_jnlEvt _ _ _))) h2

theorem sparesSources_log (c : Core) (k st : Nat) (o a v x : W32) : c.SparesSources (c.log k st o a v x) := by
  unfold Core.log Core.jput
  refine .ite (sparesSources_jpush c _) (.ite ?_ (.refl c))
  exact (sparesSources_jnl c _).trans (sparesSources_addSat _ _ _ _ rfl nofun)

theorem sparesSources_logWrite (c : Core) (ag : Agent) (a st : Nat) (v : W32) : c.SparesSources (c.logWrite ag a st v) := by
  cases ag with
  | seq n => exact .refl c
  | _ => exact sparesSources_log c _ _ _ _ _ _

/-! ### A message of a vector (R373, R374) -/

theorem sparesSources_store (c : Core) (a : Nat) (bs : List Byte) : c.SparesSources (c.store a bs) := by
  rw [store_eq]
  exact sparesSources_of_regs rfl rfl rfl rfl

theorem sparesSources_msixSend (c : Core) (f v : Nat) : c.SparesSources (c.msixSend f v) :=
  ((sparesSources_store c _ _).trans (sparesSources_hostIf _ _)).trans (sparesSources_set _ _ rfl nofun)

theorem sparesSources_msixOut (c : Core) (f v : Nat) : c.SparesSources (c.msixOut f v) := by
  unfold Core.msixOut
  have hd : c.SparesSources { c with hostIf := { c.hostIf with held := kset false c.hostIf.held v true } } := sparesSources_hostIf c _
  refine .ite (sparesSources_msixSend c f v) (.ite hd (.ite ?_ (.ite ?_ (.ite ?_ hd))))
  · exact ((hd.trans (sparesSources_set _ (r := rg0 .HOST_LINK) _ rfl nofun)).trans (sparesSources_hostEvt _ 5)).trans
      (sparesSources_log _ _ _ _ _ _ _)
  · exact hd.trans (sparesSources_hostEvt _ 0)
  · exact hd.trans (sparesSources_hostIf _ _)

theorem sparesSources_msixDue (c : Core) (v : Nat) : c.SparesSources (c.msixDue v) :=
  .ite (sparesSources_hostIf c _) (sparesSources_msixOut c _ v)

theorem sparesSources_msixEvent (c : Core) (v : Nat) : c.SparesSources (c.msixEvent v) := by
  unfold Core.msixEvent
  extract_lets n h c1 c2
  have h1 : c.SparesSources c1 := .ite (sparesSources_hostIf c _) (.refl c)
  have h2 : c.SparesSources c2 := h1.trans (sparesSources_addSat _ _ _ _ rfl nofun)
  exact .ite (.refl c) (.ite (h2.trans (sparesSources_msixDue c2 v)) h2)

/-! ### The quarantines after a command (R100) -/

/-- Beside the source's own registers a quarantine is a count and a journal entry. -/
theorem sparesSources_quarantine (c : Core) (s : Nat) :
    ((c.setSrcBit .EVR_QUAR s true).addSat (rg .EVR_SRC_STAT s) 31 16 1).SparesSources (c.quarantine s) :=
  (sparesSources_addSat _ (r := rg0 .EVR_QCNT) 15 0 1 rfl nofun).trans (sparesSources_log _ _ _ _ _ _ _)

/-- What every quarantine keeps, the end of a command keeps. -/
theorem settle_preserves {P : Core → Prop} (hP : ∀ (d : Core) (s : Nat), P d → P (d.quarantine s)) {c : Core} (h : P c) : P c.settle := by
  refine List.foldlRecOn _ _ h fun d hd w _ => ?_
  unfold Core.settleWord
  extract_lets p
  split
  · exact hd
  · refine List.foldlRecOn _ _ hd fun e he j _ => ?_
    split
    · exact hP e _ he
    · exact he

/-- An L source alone can become or cease to be pending, by the journal's events. -/
theorem srcBit_settle {u : Nat} (c : Core) (hu : srcKind u ≠ 0) : c.settle.srcBit .EVR_PEND u = c.srcBit .EVR_PEND u := by
  refine settle_preserves (P := fun d => d.srcBit .EVR_PEND u = c.srcBit .EVR_PEND u) (fun d s hd => Eq.trans ?_ hd) rfl
  have hquar : (d.setSrcBit .EVR_QUAR s true).srcBit .EVR_PEND u = d.srcBit .EVR_PEND u := srcBit_wr_fam d _ nofun
  have hstat (e : Core) (v : W32) : (e.set (rg .EVR_SRC_STAT s) v).srcBit .EVR_PEND u = e.srcBit .EVR_PEND u := srcBit_wr_fam e v nofun
  exact ((sparesSources_quarantine d s).pend u hu).trans ((hstat _ _).trans hquar)

/-- A quarantine counts in the upper half of EVR_SRC_STAT. -/
theorem rdF_settle_srcStat (c : Core) (u : Nat) : c.settle.rdF (rg .EVR_SRC_STAT u) 15 0 = c.rdF (rg .EVR_SRC_STAT u) 15 0 := by
  refine settle_preserves (P := fun d => d.rdF (rg .EVR_SRC_STAT u) 15 0 = c.rdF (rg .EVR_SRC_STAT u) 15 0) (fun d s hd => Eq.trans ?_ hd) rfl
  have hquar : (d.setSrcBit .EVR_QUAR s true).rd (rg .EVR_SRC_STAT u) = d.rd (rg .EVR_SRC_STAT u) := rd_wr_fam d _ nofun
  have hstat (e : Core) (n : Nat) : (e.setF (rg .EVR_SRC_STAT s) 31 16 n).rdF (rg .EVR_SRC_STAT u) 15 0 = e.rdF (rg .EVR_SRC_STAT u) 15 0 := by
    by_cases h : u = s
    · rw [h, Core.rdF, Core.setF, rd_set_same]
      exact fld_setFld_ne _ _ (by decide) (by decide) (by decide) (by decide)
    · exact congrArg (fld · 15 0) (rd_wr_ne e _ fun e => h (congrArg Reg.i e))
  have hrest := (sparesSources_quarantine d s).rd (rg .EVR_SRC_STAT u) rfl nofun
  exact (congrArg (fld · 15 0) hrest).trans ((hstat _ _).trans (congrArg (fld · 15 0) hquar))

/-! ### The block after a command -/

section After

variable (s : State) (f : Core → Core) (hv : (f s.core).var = s.core.var)
include hv

theorem rd_after_settle (r : Reg) : (s.after f).core.rd r = (f s.core).settle.rd r := by
  have e : (s.after f).core.var = (f s.core).settle.var := by rw [after_var, var_settle, hv]
  exact rd_congr e rfl r

/-- A source that is no L source is pending as the effect left it. -/
theorem srcBit_after_pend {u : Nat} (hu : srcKind u ≠ 0) : (s.after f).core.srcBit .EVR_PEND u = (f s.core).srcBit .EVR_PEND u :=
  (srcBit_congr (rd_after_settle s f hv _)).trans (srcBit_settle _ hu)

theorem srcBit_after_active (u : Nat) : (s.after f).core.srcBit .EVR_ACTIVE u = (f s.core).srcBit .EVR_ACTIVE u :=
  srcBit_congr (after_rd s f hv rfl)

theorem rdF_after_srcStat (u : Nat) : (s.after f).core.rdF (rg .EVR_SRC_STAT u) 15 0 = (f s.core).rdF (rg .EVR_SRC_STAT u) 15 0 :=
  (congrArg (fld · 15 0) (rd_after_settle s f hv _)).trans (rdF_settle_srcStat _ u)

end After

/-- What the Event Router holds beside its registers: the effect's, but for the levels sampled. -/
theorem evr_after (s : State) (f : Core → Core) :
    (s.after f).core.evr = { (f s.core).evr with level := (f s.core).settle.evr.level } :=
  congrArg Core.evr (quiet_settle (f s.core)).1

/-- A command that moves registers, the Event Router, the journal and the power controller only: what `K` puts back decides the frame. -/
theorem only_after {L : Reg → Bool} {K : Core → Core → Core} {s : State} {f : Core → Core} (hp : s.core.posted = [])
    (hK : ∀ (d : Core) x y z, K s.core { d with regs := x, evr := { d.evr with level := y }, jnl := z } =
      { K s.core d with regs := x, evr := { (K s.core d).evr with level := y }, jnl := z })
    (hf : f s.core = { s.core with regs := (f s.core).regs, evr := (f s.core).evr, jnl := (f s.core).jnl, pwr := (f s.core).pwr })
    (hKf : K s.core (f s.core) =
      { s.core with regs := (f s.core).regs, evr := { s.core.evr with level := (f s.core).evr.level }, jnl := (f s.core).jnl })
    (hrd : ∀ r : Reg, r.fam.background = false → L r = false → (f s.core).rd r = s.core.rd r) : Only L K s (s.after f) := by
  have hv : (f s.core).var = s.core.var := by rw [hf]
  have hpo : (f s.core).posted = [] := by rw [hf]; exact hp
  have hcore : (s.after f).core = (f s.core).settle := by
    have hnow : (f s.core).settle.now = s.core.now := by rw [now_settle, hf]
    have hvar : (f s.core).settle.var = s.core.var := by rw [var_settle, hv]
    have hset : (f s.core).settle.posted = [] := by rw [posted_settle, hpo]
    have hmem : (f s.core).settle.mem = s.core.mem := by rw [mem_settle, hf]
    unfold State.after
    dsimp only
    rw [hset, hnow, if_neg (Nat.lt_irrefl _), ← hvar, ← hnow]
    simp only [flush, ← hmem, ← hset]
  refine ⟨after_pending s f, ?_, fun r hb hl => (after_rd s f hv hb).trans (hrd r hb hl), fun a => by rw [after_mem_same s f hpo]⟩
  rw [hcore]
  obtain ⟨hq, -⟩ := quiet_settle (f s.core)
  rw [hq, hK, hKf]

/-! ### A message to the host (R94, R98) -/

/-- A source captured as an edge is no L source (R84, R89). -/
theorem srcKind_of_isLevel {c : Core} {s : Nat} (h : c.isLevel s = false) : srcKind s ≠ 0 := by
  intro hk
  rw [Core.isLevel, hk] at h
  cases h

section Commit

variable (c : Core) (s : Nat)

@[simp] theorem var_commitSrc : (c.commitSrc s).var = c.var := var_addSat _ _ _ _ _
@[simp] theorem seqs_commitSrc : (c.commitSrc s).seqs = c.seqs := seqs_addSat _ _ _ _ _
@[simp] theorem owners_commitSrc : (c.commitSrc s).owners = c.owners := owners_addSat _ _ _ _ _

/-- The delivery count touches neither bit of a source. -/
theorem srcBit_commitSrc {f : Fam} (hf : f ≠ .EVR_SRC_STAT) (u : Nat) :
    (c.commitSrc s).srcBit f u = ((c.setSrcBit .EVR_PEND s false).setSrcBit .EVR_ACTIVE s true).srcBit f u :=
  srcBit_wr_fam _ (r := rg .EVR_SRC_STAT s) _ hf

theorem srcBit_commitSrc_pend : (c.commitSrc s).srcBit .EVR_PEND s = false := by
  have hact : ((c.setSrcBit .EVR_PEND s false).setSrcBit .EVR_ACTIVE s true).srcBit .EVR_PEND s =
      (c.setSrcBit .EVR_PEND s false).srcBit .EVR_PEND s := srcBit_wr_fam _ _ nofun
  rw [srcBit_commitSrc c s (f := .EVR_PEND) nofun, hact, srcBit_setSrcBit_self]

theorem srcBit_commitSrc_active : (c.commitSrc s).srcBit .EVR_ACTIVE s = true := by
  rw [srcBit_commitSrc c s (f := .EVR_ACTIVE) nofun, srcBit_setSrcBit_self]

theorem rdF_commitSrc_srcStat :
    (c.commitSrc s).rdF (rg .EVR_SRC_STAT s) 15 0 = sat 65535 (c.rdF (rg .EVR_SRC_STAT s) 15 0 + 1) := by
  have hstat : ((c.setSrcBit .EVR_PEND s false).setSrcBit .EVR_ACTIVE s true).rd (rg .EVR_SRC_STAT s) = c.rd (rg .EVR_SRC_STAT s) :=
    (rd_wr_fam (r := rg .EVR_ACTIVE (s / 32)) (q := rg .EVR_SRC_STAT s) _ _ nofun).trans
      (rd_wr_fam (r := rg .EVR_PEND (s / 32)) (q := rg .EVR_SRC_STAT s) c _ nofun)
  rw [Core.commitSrc, Core.addSat, Core.setF, Core.rdF, rd_set_same, fld_setFld_self _ _ (by decide) (by decide),
    Nat.mod_eq_of_lt (sat_lt _ _), Core.rdF, hstat]
  rfl

end Commit

/-- HOST_SOURCE_MESSAGE of the best eligible source: it is committed, and a message of its vector spares every other source. -/
theorem gives_hostSourceMessage {s : State} {f src : Nat}
    (hbest : s.core.best (s.core.eligible (fun u => s.core.srcTarget u = 255 && !(s.core.srcBit .EVR_ACTIVE u) &&
      sameOwner (s.core.owner 6 u) { part := f })) = some src) :
    Gives (.hostSourceMessage f) s (fun t => (s.core.isLevel src = false → t.core.srcBit .EVR_PEND src = false) ∧
      t.core.srcBit .EVR_ACTIVE src = true ∧
      t.core.rdF (rg .EVR_SRC_STAT src) 15 0 = sat 65535 (s.core.rdF (rg .EVR_SRC_STAT src) 15 0 + 1) ∧ t.core.seqs = s.core.seqs ∧
      t.core.owners = s.core.owners) := by
  have hdoes : Does (.hostSourceMessage f) s (fun c => (c.commitSrc src).msixEvent (c.srcHandler src)) :=
    does_of_eq rfl (by simp only [hbest])
  have hspare := sparesSources_msixEvent (s.core.commitSrc src) (s.core.srcHandler src)
  have hv := hspare.var.trans (var_commitSrc s.core src)
  have hact := hspare.rd (rg .EVR_ACTIVE (src / 32)) rfl nofun
  have hstat := hspare.rd (rg .EVR_SRC_STAT src) rfl nofun
  refine ⟨_, hdoes, fun hl => ?_, ?_, ?_, ?_, ?_⟩
  · have hk := srcKind_of_isLevel hl
    rw [srcBit_after_pend s _ hv hk, hspare.pend src hk, srcBit_commitSrc_pend]
  · rw [srcBit_after_active s _ hv, srcBit_congr hact, srcBit_commitSrc_active]
  · rw [rdF_after_srcStat s _ hv, Core.rdF, hstat]
    exact rdF_commitSrc_srcStat s.core src
  · rw [after_seqs, hspare.seqs, seqs_commitSrc]
  · rw [after_owners, hspare.owners, owners_commitSrc]

/-! ### Writes of the source bits (R98, R101 to R103) -/

section Quiet

variable {c d : Core} (h : c.Quiet d)
include h

theorem Core.Quiet.ownsSrc (t : Owner) (s : Nat) : d.ownsSrc t s = c.ownsSrc t s := by
  simp only [Core.ownsSrc, Core.counts, Core.isSecure, Core.secure, Core.owner, h.var, h.owners]

theorem Core.Quiet.isLevel (s : Nat) : d.isLevel s = c.isLevel s := by
  rw [Core.isLevel, Core.isLevel, Core.rdF, Core.rdF, h.rd (r := rg .EVR_PIN_CFG (s - 992)) rfl]

theorem Core.Quiet.srcLive (s : Nat) : d.srcLive s = c.srcLive s := by
  rw [Core.srcLive, Core.srcLive, Core.rdB, Core.rdB, h.rd (r := rg .EVR_SRC_CFG s) rfl]

theorem Core.Quiet.inHandler (s : Nat) : d.inHandler s = c.inHandler s := by
  unfold Core.inHandler Core.seq
  rw [h.seqs]

end Quiet

theorem unitEffect_evrDone (c : Core) (ag : Agent) (t : Owner) (w : Nat) (v : W32) (e : CtlEnv) :
    c.unitEffect ag t (rg .EVR_DONE w) v e = c.evrDone t w v := rfl

theorem unitEffect_evrRearm (c : Core) (ag : Agent) (t : Owner) (w : Nat) (v : W32) (e : CtlEnv) :
    c.unitEffect ag t (rg .EVR_REARM w) v e = c.evrRearm t w v := rfl

theorem unitEffect_evrPend (c : Core) (ag : Agent) (t : Owner) (w : Nat) (v : W32) (e : CtlEnv) :
    c.unitEffect ag t (rg .EVR_PEND w) v e = c.evrPendWrite t w v := rfl

/-- A granted write of one of the 32 words of a family that the gate does not pair: journalled, then the word's effect (R11, R420). -/
theorem does_granted {i : Instr} {s : State} {ag : Agent} {o : Owner} {f : Fam} {w : Nat} {v : W32} (hw : w < 32)
    (hi : exec i s = run s (fun c => if w < 32 then c.cmdReg ag (rg f w) v else c)) (hr : isRwp (rg f w) = false)
    (hg : s.core.granted ag o (rg f w) v = true) :
    Does i s (fun c => (c.logWrite ag (rg f w).addr 0 v).unitEffect ag o (rg f w) v {}) :=
  does_of_eq hi ((if_pos hw).trans (cmdWrite_granted {} hg hr))

theorem mem_bitSrcs {w : Nat} {v : W32} {ok : Nat → Bool} {u : Nat} :
    u ∈ bitSrcs w v ok ↔ (∃ j, j < 32 ∧ bit v j = true ∧ 32 * w + j = u) ∧ ok u = true := by
  simp [bitSrcs, bitsOf, and_assoc]

/-- Bit `j` of word `w` stands for source `32w + j`. -/
theorem mem_bitSrcs_add {w j : Nat} {v : W32} {ok : Nat → Bool} (hj : j < 32) :
    32 * w + j ∈ bitSrcs w v ok ↔ bit v j = true ∧ ok (32 * w + j) = true := by
  rw [mem_bitSrcs]
  refine and_congr_left fun _ => ⟨?_, fun hb => ⟨j, hj, hb, rfl⟩⟩
  rintro ⟨k, -, hb, e⟩
  obtain rfl : k = j := by omega
  exact hb

theorem div_of_mem_bitSrcs {w : Nat} {v : W32} {ok : Nat → Bool} {u : Nat} (h : u ∈ bitSrcs w v ok) : u / 32 = w := by
  obtain ⟨⟨j, hj, -, rfl⟩, -⟩ := mem_bitSrcs.1 h
  omega

/-! #### EVR_DONE -/

section Done

variable (c : Core)

theorem quiet_releaseSrc (s : Nat) : (c.setSrcBit .EVR_ACTIVE s false).Quiet (c.releaseSrc s) :=
  .ite (quiet_setPend _ s) (.refl _)

theorem regsOnly_releaseSrc {s w : Nat} (h : s / 32 = w) : c.RegsOnly (fun r => r == rg .EVR_ACTIVE w) (c.releaseSrc s) :=
  (regsOnly_wr c _ (by rw [h, beq_self_eq_true])).trans (quiet_releaseSrc c s).regsOnly

theorem srcBit_releaseSrc (s u : Nat) : (c.releaseSrc s).srcBit .EVR_ACTIVE u = (c.srcBit .EVR_ACTIVE u && u != s) := by
  rw [srcBit_congr ((quiet_releaseSrc c s).rd rfl)]
  by_cases h : u = s
  · rw [h, srcBit_setSrcBit_self, bne_self_eq_false, Bool.and_false]
  · rw [srcBit_setSrcBit_ne _ _ h, bne_iff_ne.2 h, Bool.and_true]

theorem regsOnly_foldl_releaseSrc {l : List Nat} {w : Nat} (h : ∀ s ∈ l, s / 32 = w) :
    c.RegsOnly (fun r => r == rg .EVR_ACTIVE w) (l.foldl Core.releaseSrc c) := by
  induction l generalizing c with
  | nil => exact (Core.Quiet.refl c).regsOnly
  | cons s l ih =>
    rw [List.forall_mem_cons] at h
    exact (regsOnly_releaseSrc c h.1).trans (ih _ h.2)

theorem srcBit_foldl_releaseSrc (l : List Nat) (u : Nat) :
    (l.foldl Core.releaseSrc c).srcBit .EVR_ACTIVE u = (c.srcBit .EVR_ACTIVE u && decide (u ∉ l)) := by
  induction l generalizing c with
  | nil => simp
  | cons s l ih =>
    rw [List.foldl_cons, ih, srcBit_releaseSrc]
    simp [Bool.and_assoc, bne, Bool.beq_eq_decide_eq]

end Done

/-- EVR_DONE: the owned sources among its bits that no handler runs for, released. -/
theorem gives_evrDone {s : State} {ag : Agent} {o : Owner} {w : Nat} {v : W32} (hw : w < 32) (hp : s.core.posted = [])
    (hg : s.core.granted ag o (rg .EVR_DONE w) v = true) :
    Gives (.evrDone ag w v) s (fun t => (∀ j, j < 32 → let u := 32 * w + j
      t.core.srcBit .EVR_ACTIVE u = (s.core.srcBit .EVR_ACTIVE u && !(bit v j && s.core.ownsSrc o u && !s.core.inHandler u))) ∧
      OnlyRegs (fun r => r == rg .EVR_ACTIVE w) s t) := by
  have hdoes : Does (.evrDone ag w v) s (fun c => (c.logWrite ag (rg .EVR_DONE w).addr 0 v).evrDone o w v) :=
    (does_granted hw rfl rfl hg).congr (unitEffect_evrDone _ ag o w v {})
  have hlog := quiet_logWrite s.core ag (rg .EVR_DONE w).addr 0 v
  have honly : s.core.RegsOnly (fun r => r == rg .EVR_ACTIVE w) ((s.core.logWrite ag (rg .EVR_DONE w).addr 0 v).evrDone o w v) :=
    hlog.regsOnly.trans (regsOnly_foldl_releaseSrc _ fun _ => div_of_mem_bitSrcs)
  refine ⟨_, hdoes, fun j hj => ?_, onlyRegs_after hp honly⟩
  have hact := srcBit_congr (f := .EVR_ACTIVE) (u := 32 * w + j) (hlog.rd rfl)
  dsimp only
  rw [srcBit_after_active s _ (by rw [honly.1]), Core.evrDone, srcBit_foldl_releaseSrc, hact]
  simp only [mem_bitSrcs_add hj, hact, hlog.ownsSrc, hlog.inHandler]
  cases s.core.srcBit .EVR_ACTIVE (32 * w + j) <;> simp [Bool.or_assoc]

/-! #### EVR_REARM -/

/-- The re-arms scheduled go with their map alone. -/
theorem foldl_rearm (l : List Nat) (c : Core) :
    l.foldl (fun (d : Core) s => { d with evr := { d.evr with rearm := kset false d.evr.rearm s true } }) c =
      { c with evr := { c.evr with rearm := l.foldl (fun m s => kset false m s true) c.evr.rearm } } := by
  induction l generalizing c with
  | nil => rfl
  | cons s l ih => exact ih _

theorem kget_foldl_kset_true (l : List Nat) (m : KMap Bool) (u : Nat) :
    kget false (l.foldl (fun m s => kset false m s true) m) u = (kget false m u || decide (u ∈ l)) := by
  induction l generalizing m with
  | nil => simp
  | cons s l ih =>
    rw [List.foldl_cons, ih, kget_kset]
    by_cases h : u = s <;> simp [h]

/-- EVR_REARM: the clearing of the owned quarantines among its bits is scheduled. -/
theorem gives_evrRearm {s : State} {ag : Agent} {o : Owner} {w : Nat} {v : W32} (hw : w < 32) (hp : s.core.posted = [])
    (hg : s.core.granted ag o (rg .EVR_REARM w) v = true) :
    Gives (.evrRearm ag w v) s (fun t => (∀ j, j < 32 → let u := 32 * w + j
      kget false t.core.evr.rearm u = (kget false s.core.evr.rearm u || (bit v j && s.core.srcBit .EVR_QUAR u &&
        (s.core.ownsSrc o u || (isP0 o && !(s.core.owner 6 u).world))))) ∧
      Only (fun _ => false) (fun c d => { d with evr := { d.evr with rearm := c.evr.rearm } }) s t) := by
  have hdoes : Does (.evrRearm ag w v) s (fun c => (c.logWrite ag (rg .EVR_REARM w).addr 0 v).evrRearm o w v) :=
    (does_granted hw rfl rfl hg).congr (unitEffect_evrRearm _ ag o w v {})
  have hlog := quiet_logWrite s.core ag (rg .EVR_REARM w).addr 0 v
  have hspare := sparesSources_logWrite s.core ag (rg .EVR_REARM w).addr 0 v
  have hown6 (u : Nat) : (s.core.logWrite ag (rg .EVR_REARM w).addr 0 v).owner 6 u = s.core.owner 6 u := by
    unfold Core.owner Core.secure Core.counts
    rw [hlog.owners, hlog.var]
  have hevr : (s.core.logWrite ag (rg .EVR_REARM w).addr 0 v).evr.rearm = s.core.evr.rearm := by rw [hlog.1]
  refine ⟨_, hdoes, fun j hj => ?_, only_after hp (fun _ _ _ _ => rfl) ?_ ?_ ?_⟩
  · have hquar := srcBit_congr (f := .EVR_QUAR) (u := 32 * w + j) (hspare.rd (rg .EVR_QUAR ((32 * w + j) / 32)) rfl nofun)
    rw [evr_after, Core.evrRearm, foldl_rearm]
    simp only [kget_foldl_kset_true, mem_bitSrcs_add hj, hevr, hquar, hlog.ownsSrc, hown6]
    simp [Bool.and_assoc]
  · rw [Core.evrRearm, foldl_rearm, hlog.1]
  · rw [Core.evrRearm, foldl_rearm, hlog.1]
  · intro r hb _
    rw [Core.evrRearm, foldl_rearm]
    exact hlog.rd hb

/-! #### EVR_PEND -/

/-- A written bit of EVR_PEND: it goes to an owned source under a live contract that is captured as an edge (R102, R103). -/
def Core.takePend (c : Core) (t : Owner) (s : Nat) (b : Bool) : Core :=
  if c.ownsSrc t s && !c.isLevel s && c.srcLive s then (if b then c.setPend s else c.setSrcBit .EVR_PEND s false) else c

theorem evrPendWrite_eq_foldl (c : Core) (t : Owner) (w : Nat) (v : W32) :
    c.evrPendWrite t w v = (List.range 32).foldl (fun d j => d.takePend t (32 * w + j) (bit v j)) c := rfl

section Pend

variable (c : Core) (t : Owner)

theorem quiet_takePend (s : Nat) (b : Bool) : c.Quiet (c.takePend t s b) :=
  .ite (.ite (quiet_setPend c s) (quiet_setSrcBit c s false rfl)) (.refl c)

theorem srcBit_takePend_self {s : Nat} (b : Bool) (h : (c.ownsSrc t s && !c.isLevel s && c.srcLive s) = true) :
    (c.takePend t s b).srcBit .EVR_PEND s = b := by
  rw [Core.takePend, if_pos h]
  cases b
  · exact srcBit_setSrcBit_self c false
  · exact srcBit_setPend_self c

theorem srcBit_takePend_ne {s u : Nat} (b : Bool) (h : u ≠ s) : (c.takePend t s b).srcBit .EVR_PEND u = c.srcBit .EVR_PEND u := by
  unfold Core.takePend
  split
  · split
    · exact srcBit_setPend_ne c h
    · exact srcBit_setSrcBit_ne c _ h
  · rfl

/-- The source of a bit among those written takes it, whatever the others do. -/
theorem srcBit_foldl_takePend {w j : Nat} (v : W32) (l : List Nat)
    (h : (c.ownsSrc t (32 * w + j) && !c.isLevel (32 * w + j) && c.srcLive (32 * w + j)) = true) :
    (l.foldl (fun d j => d.takePend t (32 * w + j) (bit v j)) c).srcBit .EVR_PEND (32 * w + j) =
      if j ∈ l then bit v j else c.srcBit .EVR_PEND (32 * w + j) := by
  induction l generalizing c with
  | nil => rfl
  | cons k l ih =>
    have hq := quiet_takePend c t (32 * w + k) (bit v k)
    rw [List.foldl_cons, ih _ (by rw [hq.ownsSrc, hq.isLevel, hq.srcLive]; exact h)]
    by_cases hk : j = k
    · subst hk
      simp [srcBit_takePend_self c t (bit v j) h]
    · rw [srcBit_takePend_ne c t _ (by omega)]
      simp [hk]

end Pend

/-- EVR_PEND written: the owned contracted sources captured as edges follow its bits. -/
theorem gives_evrPendWrite {s : State} {ag : Agent} {o : Owner} {w : Nat} {v : W32} (hw : w < 32) (hp : s.core.posted = [])
    (hg : s.core.granted ag o (rg .EVR_PEND w) v = true) :
    Gives (.evrPendWrite ag w v) s (fun t => (∀ j, j < 32 → let u := 32 * w + j
      s.core.ownsSrc o u = true → s.core.isLevel u = false → s.core.srcLive u = true → t.core.srcBit .EVR_PEND u = bit v j) ∧
      OnlyRegs (fun _ => false) s t) := by
  have hdoes : Does (.evrPendWrite ag w v) s (fun c => (c.logWrite ag (rg .EVR_PEND w).addr 0 v).evrPendWrite o w v) :=
    (does_granted hw rfl rfl hg).congr (unitEffect_evrPend _ ag o w v {})
  have hlog := quiet_logWrite s.core ag (rg .EVR_PEND w).addr 0 v
  have hquiet : s.core.Quiet ((s.core.logWrite ag (rg .EVR_PEND w).addr 0 v).evrPendWrite o w v) :=
    hlog.trans (.foldl _ (fun d _ => quiet_takePend d o _ _) _ _)
  refine ⟨_, hdoes, fun j hj hown hlev hlive => ?_, onlyRegs_after hp hquiet.regsOnly⟩
  rw [srcBit_after_pend s _ hquiet.var (srcKind_of_isLevel hlev), evrPendWrite_eq_foldl, srcBit_foldl_takePend,
    if_pos (List.mem_range.2 hj)]
  rw [hlog.ownsSrc, hlog.isLevel, hlog.srcLive, hown, hlev, hlive]
  rfl

/-! ### Pins (R89 to R91) -/

/-- `d` is `c` but for the registers in `L`, the latched edges, the wake, and what the Event Router and the journal record. -/
def Core.PinsOnly (L : Reg → Bool) (c d : Core) : Prop :=
  d = { c with regs := d.regs, evr := { c.evr with level := d.evr.level, latched := d.evr.latched }, jnl := d.jnl, pwr := d.pwr } ∧
  ∀ r : Reg, r.fam.background = false → L r = false → d.rd r = c.rd r

section PinsOnly

variable {L M : Reg → Bool} {a b c d : Core} {pin : Nat}

theorem Core.RegsOnly.pinsOnly (h : c.RegsOnly L d) : c.PinsOnly L d := by
  obtain ⟨h1, h2⟩ := h
  refine ⟨?_, h2⟩
  generalize hx : d.regs = x, hy : d.evr.level = y, hz : d.jnl = z at h1
  rw [h1]

theorem Core.PinsOnly.trans (h : a.PinsOnly L b) (g : b.PinsOnly L c) : a.PinsOnly L c := by
  obtain ⟨h1, h2⟩ := h
  obtain ⟨g1, g2⟩ := g
  refine ⟨?_, fun r hb hr => (g2 r hb hr).trans (h2 r hb hr)⟩
  rw [g1]
  generalize c.regs = x, c.evr.level = y, c.evr.latched = u, c.jnl = z, c.pwr = v
  rw [h1]

theorem Core.PinsOnly.mono (h : c.PinsOnly L d) (hLM : ∀ r, L r = true → M r = true) : c.PinsOnly M d :=
  ⟨h.1, fun r hb hr => h.2 r hb (Bool.eq_false_iff.2 fun hl => by rw [hLM r hl] at hr; cases hr)⟩

theorem Core.PinsOnly.var (h : c.PinsOnly L d) : d.var = c.var := by rw [h.1]

/-- The direction, the mode and the contract of a pin follow its configuration registers. -/
theorem Core.PinsOnly.pinDir (h : c.PinsOnly L d) (hL : L (rg .EVR_PIN_CFG pin) = false) (l : Bool) : d.pinDir pin l = c.pinDir pin l := by
  rw [Core.pinDir, Core.pinDir, Core.rdF, Core.rdF, Core.rdB, Core.rdB, h.2 _ rfl hL]

theorem Core.PinsOnly.srcLive (h : c.PinsOnly L d) {u : Nat} (hL : L (rg .EVR_SRC_CFG u) = false) : d.srcLive u = c.srcLive u := by
  rw [Core.srcLive, Core.srcLive, Core.rdB, Core.rdB, h.2 _ rfl hL]

end PinsOnly

theorem srcKind_pin (pin : Nat) : srcKind (992 + pin) = 2 := by
  rw [srcKind, if_neg (by omega), if_pos (by omega)]

/-- A pin's source is a level in mode 0b11 alone (R89). -/
theorem isLevel_pin (c : Core) (pin : Nat) : c.isLevel (992 + pin) = decide (c.rdF (rg .EVR_PIN_CFG pin) 3 2 = 3) := by
  rw [Core.isLevel, srcKind_pin, Nat.add_sub_cancel_left]
  rfl

theorem Core.PinsOnly.isLevel_pin {L : Reg → Bool} {c d : Core} {pin : Nat} (h : c.PinsOnly L d) (hL : L (rg .EVR_PIN_CFG pin) = false) :
    d.isLevel (992 + pin) = c.isLevel (992 + pin) := by
  rw [Machine.isLevel_pin, Machine.isLevel_pin, Core.rdF, Core.rdF, h.2 _ rfl hL]

theorem pinsOnly_wakeBy (c : Core) (cause unit : Nat) (L : Reg → Bool) : c.PinsOnly L (c.wakeBy cause unit) := by
  unfold Core.wakeBy
  split
  · exact ⟨rfl, fun _ _ _ => rfl⟩
  · exact ⟨rfl, fun _ _ _ => rfl⟩

theorem evr_wakeBy (c : Core) (cause unit : Nat) : (c.wakeBy cause unit).evr = c.evr := by
  unfold Core.wakeBy
  split <;> rfl

/-- The pin's latch holds an edge, or none. -/
def Core.setLatch (c : Core) (pin : Nat) (e : Option Bool) : Core :=
  { c with evr := { c.evr with latched := kset none c.evr.latched pin e } }

theorem pinsOnly_setLatch (c : Core) (pin : Nat) (e : Option Bool) (L : Reg → Bool) : c.PinsOnly L (c.setLatch pin e) :=
  ⟨rfl, fun _ _ _ => rfl⟩

/-- The latch captures an edge, and an armed pin asks for the wake (R91, R402). -/
def Core.capture (c : Core) (pin : Nat) (l : Bool) : Core :=
  let d := c.setLatch pin (some l)
  if d.pinWakes pin then d.wakeBy 1 pin else d

theorem pinsOnly_capture (c : Core) (pin : Nat) (l : Bool) (L : Reg → Bool) : c.PinsOnly L (c.capture pin l) := by
  have hd := pinsOnly_setLatch c pin (some l) L
  unfold Core.capture
  dsimp only
  split
  · exact hd.trans (pinsOnly_wakeBy _ 1 pin L)
  · exact hd

theorem evr_capture (c : Core) (pin : Nat) (l : Bool) : (c.capture pin l).evr = (c.setLatch pin (some l)).evr := by
  unfold Core.capture
  dsimp only
  split
  · exact evr_wakeBy _ 1 pin
  · rfl

/-- The pin's raw and filtered levels. -/
def Core.setRaw (c : Core) (pin : Nat) (l : Bool) : Core := c.wr (rg0 .EVR_PIN_RAW) (setBit (c.rd (rg0 .EVR_PIN_RAW)) pin l)
def Core.setFilt (c : Core) (pin : Nat) (l : Bool) : Core := c.wr (rg0 .EVR_PIN_FILT) (setBit (c.rd (rg0 .EVR_PIN_FILT)) pin l)

/-- The registers that a transition moves: the levels, and what its verdict may move, the pin's chatter counter. -/
def levelRegs (r : Reg) : Bool := r == rg0 .EVR_PIN_RAW || r == rg0 .EVR_PIN_FILT
def chatOnly (pin : Nat) (r : Reg) : Bool := r == rg .EVR_PIN_CHAT pin
def pinRegs (pin : Nat) (r : Reg) : Bool := levelRegs r || chatOnly pin r

section Levels

variable (c : Core) {pin : Nat} (l : Bool)

theorem rdB_setRaw (h : pin < 32) : (c.setRaw pin l).rdB (rg0 .EVR_PIN_RAW) pin = l := by
  rw [Core.rdB, Core.setRaw, rd_wr_self, bit_setBit_self _ _ h]

theorem rdB_setFilt (h : pin < 32) : (c.setFilt pin l).rdB (rg0 .EVR_PIN_FILT) pin = l := by
  rw [Core.rdB, Core.setFilt, rd_wr_self, bit_setBit_self _ _ h]

theorem rd_setRaw_fam {r : Reg} (h : r.fam ≠ .EVR_PIN_RAW) : (c.setRaw pin l).rd r = c.rd r := rd_wr_fam c _ h
theorem rd_setFilt_fam {r : Reg} (h : r.fam ≠ .EVR_PIN_FILT) : (c.setFilt pin l).rd r = c.rd r := rd_wr_fam c _ h

theorem pinsOnly_setRaw : c.PinsOnly levelRegs (c.setRaw pin l) := (regsOnly_wr c _ rfl).pinsOnly
theorem pinsOnly_setFilt : c.PinsOnly levelRegs (c.setFilt pin l) := (regsOnly_wr c _ rfl).pinsOnly

end Levels

/-! #### What follows a filtered transition -/

/-- An active transition of an armed pin asks for the wake (R403; log entry 195). -/
def Core.pinWake (c : Core) (pin : Nat) (was level : Bool) : Core :=
  if was != level && c.pinDir pin level && c.pinWakes pin then c.wakeBy 1 pin else c

/-- A transition that no latch captured: the wake, and the source follows the pin's mode (R89). -/
def Core.pinEdge (c : Core) (pin : Nat) (was level : Bool) : Core :=
  let d := c.pinWake pin was level
  if d.isLevel (992 + pin) then d.relevel (992 + pin)
  else if was = level then d
  else if d.pinDir pin level then d.raise (992 + pin) else d

section Verdict

variable (c : Core) (pin : Nat) (level : Bool)

theorem pinsOnly_pinWake (was : Bool) (L : Reg → Bool) : c.PinsOnly L (c.pinWake pin was level) := by
  unfold Core.pinWake
  split
  · exact pinsOnly_wakeBy c 1 pin L
  · exact (Core.Quiet.refl c).regsOnly.pinsOnly

theorem pinsOnly_pinEdge (was : Bool) : c.PinsOnly (chatOnly pin) (c.pinEdge pin was level) := by
  unfold Core.pinEdge
  extract_lets d
  have hq : d.Quiet (if d.isLevel (992 + pin) then d.relevel (992 + pin) else if was = level then d
      else if d.pinDir pin level then d.raise (992 + pin) else d) :=
    .ite (quiet_relevel d _) (.ite (.refl d) (.ite (quiet_raise d _) (.refl d)))
  exact (pinsOnly_pinWake c pin level was _).trans hq.regsOnly.pinsOnly

theorem regsOnly_latchEnd (dir : Bool) : c.RegsOnly (chatOnly pin) (c.latchEnd pin dir level) := by
  have hq : c.Quiet (if c.isLevel (992 + pin) then c.relevel (992 + pin) else c) := .ite (quiet_relevel c _) (.refl c)
  have hraise : c.Quiet (if c.isLevel (992 + pin) then c.relevel (992 + pin) else c.raise (992 + pin)) :=
    .ite (quiet_relevel c _) (quiet_raise c _)
  unfold Core.latchEnd
  extract_lets src active
  split
  · exact hq.regsOnly.trans (regsOnly_set _ _ (beq_self_eq_true _))
  · exact hraise.regsOnly

/-- The level at which the edge captured counts as the event: in mode 0b10 the one after it, else the active one (R91). -/
def Core.latchActive (c : Core) (pin : Nat) (dir level : Bool) : Bool :=
  if c.rdF (rg .EVR_PIN_CFG pin) 3 2 = 2 then level == dir else c.pinDir pin level

variable {c pin level}

theorem Core.PinsOnly.latchActive {L : Reg → Bool} {d : Core} (h : c.PinsOnly L d) (hL : L (rg .EVR_PIN_CFG pin) = false) (dir : Bool) :
    d.latchActive pin dir level = c.latchActive pin dir level := by
  rw [Core.latchActive, Core.latchActive, h.pinDir hL, Core.rdF, Core.rdF, h.2 _ rfl hL]

theorem latchEnd_active {dir : Bool} (hlev : c.isLevel (992 + pin) = false) (h : c.latchActive pin dir level = true) :
    c.latchEnd pin dir level = c.raise (992 + pin) := by
  unfold Core.latchActive at h
  simp [Core.latchEnd, h, hlev]

theorem latchEnd_inactive {dir : Bool} (hlev : c.isLevel (992 + pin) = false) (h : c.latchActive pin dir level = false) :
    c.latchEnd pin dir level = c.addSat (rg .EVR_PIN_CHAT pin) 15 0 1 := by
  unfold Core.latchActive at h
  simp [Core.latchEnd, h, hlev]

theorem pinEdge_active {was : Bool} (hlev : c.isLevel (992 + pin) = false) (hne : was ≠ level) (hdir : c.pinDir pin level = true)
    (hlive : c.srcLive (992 + pin) = true) : (c.pinEdge pin was level).srcBit .EVR_PEND (992 + pin) = true := by
  unfold Core.pinEdge
  extract_lets d
  have hd : c.PinsOnly (fun _ => false) d := pinsOnly_pinWake c pin level was _
  rw [hd.isLevel_pin rfl, hlev, if_neg (by decide), if_neg hne, hd.pinDir rfl, if_pos hdir]
  exact srcBit_raise_self d (by rw [hd.srcLive rfl]; exact hlive)

end Verdict

/-! #### The commands of a pin -/

section PinCommands

variable {s : State} {f : Core → Core} {pin : Nat} {l : Bool}

/-- A command that moves a pin alone. -/
theorem only_of_pinsOnly {L : Reg → Bool} (hp : s.core.posted = []) (h : s.core.PinsOnly L (f s.core)) :
    Only L (fun c d => { d with evr := { d.evr with latched := c.evr.latched }, pwr := c.pwr }) s (s.after f) := by
  obtain ⟨h1, h2⟩ := h
  refine only_after hp (fun _ _ _ _ => rfl) ?_ ?_ h2
  · generalize f s.core = d at h1 ⊢
    rw [h1]
  · generalize f s.core = d at h1 ⊢
    rw [h1]

/-- PIN_RAW_EDGE (R90). -/
theorem gives_pinRawEdge (hpin : pin < 32) (hp : s.core.posted = []) : Gives (.pinRawEdge pin) s (fun t =>
    t.core.rdB (rg0 .EVR_PIN_RAW) pin = !s.core.rdB (rg0 .EVR_PIN_RAW) pin ∧
    t.core.rdF (rg .EVR_PIN_CHAT pin) 15 0 = sat 65535 (s.core.rdF (rg .EVR_PIN_CHAT pin) 15 0 + 1) ∧
    OnlyRegs (fun r => r == rg0 .EVR_PIN_RAW || r == rg .EVR_PIN_CHAT pin) s t) := by
  have hdoes : Does (.pinRawEdge pin) s (fun c => (c.setRaw pin (!c.rdB (rg0 .EVR_PIN_RAW) pin)).addSat (rg .EVR_PIN_CHAT pin) 15 0 1) :=
    does_of_eq rfl (if_pos hpin)
  refine ⟨_, hdoes, ?_, ?_, onlyRegs_after hp ((regsOnly_wr _ _ (by simp)).trans (regsOnly_set _ _ (by simp)))⟩
  · rw [Core.rdB, after_rd s _ (var_addSat _ _ _ _ _) rfl, rd_addSat_ne _ (r := rg .EVR_PIN_CHAT pin) (q := rg0 .EVR_PIN_RAW) _ _ _ rfl nofun]
    exact rdB_setRaw s.core _ hpin
  · rw [Core.rdF, after_rd s _ (var_addSat _ _ _ _ _) rfl, ← Core.rdF, rdF_addSat_self _ _ rfl (by decide) (by decide), Core.rdF,
      rd_setRaw_fam (r := rg .EVR_PIN_CHAT pin) _ _ nofun]
    rfl

/-- PIN_LATCH_CAPTURE (R91, R402). -/
theorem gives_pinLatchCapture (hpin : pin < 32) (hp : s.core.posted = []) :
    (s.core.refStopped = true → s.core.rdB (rg .EVR_PIN_CFG pin) 4 = true → s.core.pinDir pin l = true → kget none s.core.evr.latched pin = none →
      Gives (.pinLatchCapture pin l) s (fun t => kget none t.core.evr.latched pin = some l ∧
        Only (fun _ => false) (fun c d => { d with evr := { d.evr with latched := c.evr.latched }, pwr := c.pwr }) s t)) ∧
    (s.core.refStopped = false → Gives (.pinLatchCapture pin l) s (fun t => OnlyRegs (fun _ => false) s t)) := by
  have hin : ¬ 32 ≤ pin := by omega
  constructor
  · intro hstop harm hdir hnone
    have hdoes : Does (.pinLatchCapture pin l) s (fun c => c.capture pin l) :=
      does_of_eq rfl (if_neg (by simp [hin, hstop, harm, hdir, hnone]))
    refine ⟨_, hdoes, ?_, only_of_pinsOnly hp (pinsOnly_capture s.core pin l _)⟩
    rw [evr_after, evr_capture]
    exact kget_kset_self none s.core.evr.latched pin (some l)
  · intro hrun
    have hdoes : Does (.pinLatchCapture pin l) s (fun c => c) := does_of_eq rfl (if_pos (by simp [hrun]))
    exact ⟨_, hdoes, onlyRegs_after hp (Core.Quiet.refl _).regsOnly⟩

/-- The pin's filter runs: it is enabled and the reference is not stopped (R89, R91). -/
abbrev Core.filterRuns (c : Core) (pin : Nat) : Bool := c.rdB (rg .EVR_PIN_CFG pin) 0 && !c.refStopped

theorem not_filterRuns_setRaw (c : Core) (pin : Nat) (l : Bool) :
    (!(c.setRaw pin l).rdB (rg .EVR_PIN_CFG pin) 0 || (c.setRaw pin l).refStopped) = !c.filterRuns pin := by
  have hcfg : (c.setRaw pin l).rd (rg .EVR_PIN_CFG pin) = c.rd (rg .EVR_PIN_CFG pin) := rd_setRaw_fam c l nofun
  rw [Core.rdB, hcfg, Bool.not_and, Bool.not_not]
  rfl

theorem does_pinFilter_off (hpin : pin < 32) (h : s.core.filterRuns pin = false) :
    Does (.pinFilteredTransition pin l) s (fun c => c.setRaw pin l) :=
  does_of_eq rfl ((if_neg (Nat.not_le.2 hpin)).trans (if_pos ((not_filterRuns_setRaw s.core pin l).trans (congrArg not h))))

/-- The levels after a transition of a pin whose filter runs. -/
def Core.setLevels (c : Core) (pin : Nat) (l : Bool) : Core := (c.setRaw pin l).setFilt pin l

theorem pinsOnly_setLevels (c : Core) (pin : Nat) (l : Bool) : c.PinsOnly levelRegs (c.setLevels pin l) :=
  (pinsOnly_setRaw c l).trans (pinsOnly_setFilt _ l)

/-- The verdict on a transition, of the edge that the latch captured if there is one (R89, R91). -/
def Core.pinVerdict (c : Core) (pin : Nat) (was l : Bool) : Core :=
  match kget none c.evr.latched pin with
  | some dir => (c.setLatch pin none).latchEnd pin dir l
  | none => c.pinEdge pin was l

theorem does_pinFilter_on (hpin : pin < 32) (h : s.core.filterRuns pin = true) :
    Does (.pinFilteredTransition pin l) s (fun c => (c.setLevels pin l).pinVerdict pin (c.rdB (rg0 .EVR_PIN_FILT) pin) l) := by
  have hon : ¬ (!(s.core.setRaw pin l).rdB (rg .EVR_PIN_CFG pin) 0 || (s.core.setRaw pin l).refStopped) = true := by
    rw [not_filterRuns_setRaw, h]
    exact Bool.false_ne_true
  have hfilt : (s.core.setRaw pin l).rdB (rg0 .EVR_PIN_FILT) pin = s.core.rdB (rg0 .EVR_PIN_FILT) pin :=
    congrArg (bit · pin) (rd_setRaw_fam _ _ nofun)
  refine does_of_eq rfl ?_
  unfold Core.setRaw at hon hfilt
  dsimp only
  rw [if_neg (Nat.not_le.2 hpin), if_neg hon, ← hfilt]
  rfl

theorem pinsOnly_pinVerdict (c : Core) (pin : Nat) (was l : Bool) : c.PinsOnly (chatOnly pin) (c.pinVerdict pin was l) := by
  unfold Core.pinVerdict
  split
  · exact (pinsOnly_setLatch c pin none _).trans (regsOnly_latchEnd _ pin l _).pinsOnly
  · exact pinsOnly_pinEdge c pin l was

/-- The verdict moves neither level. -/
theorem rdB_levels_pinVerdict (c : Core) (was : Bool) (hpin : pin < 32) :
    ((c.setLevels pin l).pinVerdict pin was l).rdB (rg0 .EVR_PIN_RAW) pin = l ∧
      ((c.setLevels pin l).pinVerdict pin was l).rdB (rg0 .EVR_PIN_FILT) pin = l := by
  obtain ⟨-, hrd⟩ := pinsOnly_pinVerdict (c.setLevels pin l) pin was l
  constructor
  · have hraw : (c.setLevels pin l).rd (rg0 .EVR_PIN_RAW) = (c.setRaw pin l).rd (rg0 .EVR_PIN_RAW) := rd_setFilt_fam _ l nofun
    rw [Core.rdB, hrd _ rfl rfl, hraw]
    exact rdB_setRaw c l hpin
  · rw [Core.rdB, hrd _ rfl rfl]
    exact rdB_setFilt _ l hpin

theorem pinVerdict_latched {c : Core} {dir : Bool} (was : Bool) (h : kget none c.evr.latched pin = some dir) :
    c.pinVerdict pin was l = (c.setLatch pin none).latchEnd pin dir l := by rw [Core.pinVerdict, h]

theorem pinVerdict_unlatched {c : Core} (was : Bool) (h : kget none c.evr.latched pin = none) :
    c.pinVerdict pin was l = c.pinEdge pin was l := by rw [Core.pinVerdict, h]

/-- The verdict clears the latch. -/
theorem latched_latchEnd (c : Core) (dir : Bool) : kget none ((c.setLatch pin none).latchEnd pin dir l).evr.latched pin = none := by
  obtain ⟨h, -⟩ := regsOnly_latchEnd (c.setLatch pin none) pin l dir
  rw [h]
  exact kget_kset_self none c.evr.latched pin none

/-- The edge captured, of a pin in an edge mode: the event where the line is steady at the active level, else one more count (R91). -/
theorem latchEnd_edge {c d : Core} (dir : Bool) (hd : c.PinsOnly levelRegs d) (hlev : c.isLevel (992 + pin) = false) :
    if c.latchActive pin dir l = true then c.srcLive (992 + pin) = true → (d.latchEnd pin dir l).srcBit .EVR_PEND (992 + pin) = true
    else (d.latchEnd pin dir l).rdF (rg .EVR_PIN_CHAT pin) 15 0 = sat 65535 (c.rdF (rg .EVR_PIN_CHAT pin) 15 0 + 1) := by
  have hlev' : d.isLevel (992 + pin) = false := (hd.isLevel_pin rfl).trans hlev
  have hact := hd.latchActive (pin := pin) (level := l) rfl dir
  split
  · next h =>
    intro hlive
    rw [latchEnd_active hlev' (hact.trans h)]
    exact srcBit_raise_self d ((hd.srcLive rfl).trans hlive)
  · next h =>
    rw [latchEnd_inactive hlev' (hact.trans (Bool.eq_false_iff.2 h)), rdF_addSat_self d 1 rfl (by decide) (by decide), Core.rdF,
      hd.2 _ rfl rfl]
    rfl

/-- PIN_FILTERED_TRANSITION (R89, R91). -/
theorem gives_pinFilteredTransition (hpin : pin < 32) (hp : s.core.posted = []) : Gives (.pinFilteredTransition pin l) s (fun t =>
    t.core.rdB (rg0 .EVR_PIN_RAW) pin = l ∧
    t.core.rdB (rg0 .EVR_PIN_FILT) pin =
      (if s.core.rdB (rg .EVR_PIN_CFG pin) 0 && !s.core.refStopped then l else s.core.rdB (rg0 .EVR_PIN_FILT) pin) ∧
    (s.core.rdB (rg .EVR_PIN_CFG pin) 0 = true → s.core.refStopped = false → s.core.rdF (rg .EVR_PIN_CFG pin) 3 2 ≠ 3 →
      (kget none s.core.evr.latched pin = none → s.core.rdB (rg0 .EVR_PIN_FILT) pin ≠ l → s.core.pinDir pin l = true →
        s.core.srcLive (992 + pin) = true → t.core.srcBit .EVR_PEND (992 + pin) = true) ∧
      ∀ dir, kget none s.core.evr.latched pin = some dir → kget none t.core.evr.latched pin = none ∧
        (if s.core.latchActive pin dir l = true then s.core.srcLive (992 + pin) = true → t.core.srcBit .EVR_PEND (992 + pin) = true
         else t.core.rdF (rg .EVR_PIN_CHAT pin) 15 0 = sat 65535 (s.core.rdF (rg .EVR_PIN_CHAT pin) 15 0 + 1))) ∧
    Only (pinRegs pin) (fun c d => { d with evr := { d.evr with latched := c.evr.latched }, pwr := c.pwr }) s t) := by
  cases hrun : s.core.filterRuns pin with
  | false =>
    have hfilt : (s.core.setRaw pin l).rd (rg0 .EVR_PIN_FILT) = s.core.rd (rg0 .EVR_PIN_FILT) := rd_setRaw_fam _ l nofun
    have hdoes := does_pinFilter_off (l := l) hpin hrun
    refine ⟨_, hdoes, ?_, ?_, fun hen hstop => ?_,
      only_of_pinsOnly hp ((pinsOnly_setRaw _ l).mono fun r hr => (Bool.or_eq_true _ _).mpr (.inl hr))⟩
    · rw [Core.rdB, after_rd s _ rfl rfl]
      exact rdB_setRaw s.core l hpin
    · rw [if_neg (Bool.eq_false_iff.1 hrun), Core.rdB, after_rd s _ rfl rfl, hfilt]
      rfl
    · rw [Core.filterRuns, hen, hstop] at hrun
      cases hrun
  | true =>
    have hlevels := pinsOnly_setLevels s.core pin l
    have hpins : s.core.PinsOnly (pinRegs pin) ((s.core.setLevels pin l).pinVerdict pin (s.core.rdB (rg0 .EVR_PIN_FILT) pin) l) :=
      (hlevels.mono fun r hr => (Bool.or_eq_true _ _).mpr (.inl hr)).trans
        ((pinsOnly_pinVerdict _ pin _ l).mono fun r hr => (Bool.or_eq_true _ _).mpr (.inr hr))
    obtain ⟨hraw, hfilt⟩ := rdB_levels_pinVerdict (l := l) s.core (s.core.rdB (rg0 .EVR_PIN_FILT) pin) hpin
    have hk : srcKind (992 + pin) ≠ 0 := by rw [srcKind_pin]; decide
    have hdoes := does_pinFilter_on (l := l) hpin hrun
    refine ⟨_, hdoes, ?_, ?_, fun _ _ hmode => ?_, only_of_pinsOnly hp hpins⟩
    · rw [Core.rdB, after_rd s _ hpins.var rfl]
      exact hraw
    · rw [if_pos hrun, Core.rdB, after_rd s _ hpins.var rfl]
      exact hfilt
    · refine ⟨fun hnone hne hdir hlive => ?_, fun dir hsome => ⟨?_, ?_⟩⟩
      · have hlev : (s.core.setLevels pin l).isLevel (992 + pin) = false := by
          rw [hlevels.isLevel_pin rfl, isLevel_pin, decide_eq_false hmode]
        rw [srcBit_after_pend s _ hpins.var hk, pinVerdict_unlatched (c := s.core.setLevels pin l) _ hnone]
        exact pinEdge_active hlev hne ((hlevels.pinDir rfl l).trans hdir) ((hlevels.srcLive rfl).trans hlive)
      · rw [evr_after, pinVerdict_latched (c := s.core.setLevels pin l) _ hsome]
        exact latched_latchEnd _ dir
      · have hend := latchEnd_edge (l := l) dir (hlevels.trans (pinsOnly_setLatch _ pin none _))
          ((isLevel_pin s.core pin).trans (decide_eq_false hmode))
        rw [srcBit_after_pend s _ hpins.var hk, Core.rdF, after_rd s _ hpins.var rfl,
          pinVerdict_latched (c := s.core.setLevels pin l) _ hsome]
        exact hend

end PinCommands

/-- Settles O24: each command is its effect, and the journal and the quarantines move the pending bits of L sources alone. -/
theorem sourceBitsAndPinsFollowTheirInputs : Obligations.SourceBitsAndPinsFollowTheirInputs := by
  refine ⟨⟨fun s f src _ hbest => gives_hostSourceMessage hbest, fun s ag o w v hw hp => ?_⟩, fun s pin l hpin hp => ?_⟩
  · exact ⟨gives_evrDone hw hp, gives_evrRearm hw hp, gives_evrPendWrite hw hp⟩
  · exact ⟨gives_pinRawEdge hpin hp, gives_pinFilteredTransition hpin hp, gives_pinLatchCapture hpin hp⟩

end Sys2Proof.Machine
end
